-- ==== Sys2Proof/Word.lean ====
section
/-! DEFINITION. The word types of the block: the widths the spec gives its numbers (R8, R43, Table 0-2). -/

namespace Sys2Proof

/-- One byte of an in-memory structure (little-endian throughout, R8). -/
abbrev Byte := BitVec 8
/-- A 32-bit register (Table 0-4 and the text below it). -/
abbrev Word := BitVec 32
/-- A 20-bit event number (R43). -/
abbrev Event := BitVec 20
/-- A 16-bit context number (Table 0-2). -/
abbrev CtxNo := BitVec 16
/-- A ring number, 16,384 rings (Table 0-2). -/
abbrev RingNo := BitVec 14
/-- A hardware thread number, up to 2,048 threads (R3). -/
abbrev ThreadNo := BitVec 11
/-- A VIF number (R255). -/
abbrev VifNo := BitVec 12
/-- An owner code: 0 the PMF, v + 1 VIF v (R255). -/
abbrev OwnerNo := BitVec 13
/-- A priority, 0 the most urgent (Table 0-2). -/
abbrev Prio := BitVec 6
/-- Global time in nanoseconds (R173). -/
abbrev Gt := BitVec 64

/-- A sum that stops at the largest value of its width (the saturating counters of the register tables). -/
def satAdd {w : Nat} (x : BitVec w) (n : Nat) : BitVec w :=
  if x.toNat + n < 2 ^ w then BitVec.ofNat w (x.toNat + n) else BitVec.allOnes w

/-- The smaller of two numbers of one width. -/
def bvMin {w : Nat} (x y : BitVec w) : BitVec w := if x.toNat ≤ y.toNat then x else y

end Sys2Proof
end

