-- ==== Sys2Proof/Syntax.lean ====
section
/-! DEFINITION. The commands of the block: one constructor per row of the table of operations and events
(opcode_table.json), with the operands that the command's step needs from outside the block. The table gives no
operands; what each command carries is the model's choice (log 1). -/

namespace Sys2Proof

/-- One beat of a write at a station port: aperture offset, byte enables, data and source tag (Table 17-1). -/
structure Beat where
  addr : BitVec 25
  be : BitVec 8
  data : BitVec 64
  tag : BitVec 24
  deriving DecidableEq, Repr

/-- The two lookup lanes of a station (R83). -/
inductive Lane where
  | message
  | wired
  deriving DecidableEq, Repr

/-- A place in memory as the block names it: a segment and an offset (R276). -/
structure SegAddr where
  seg : BitVec 6
  off : BitVec 64
  deriving DecidableEq, Repr

/-- What memory answers to a read (Table 17-3, M_RSP_CODE). -/
inductive MemResp where
  /-- OK with the bytes read, lowest address first. -/
  | ok (bytes : List Byte)
  /-- ERR. -/
  | err
  /-- POISON (treated as a read error wherever it arrives, R403). -/
  | poison
  deriving DecidableEq, Repr

/-- What memory answers to a table read of a walk (8 bytes, R284). -/
inductive WalkResp where
  | ok (e : BitVec 64)
  | err
  | poison
  deriving DecidableEq, Repr

/-- The bytes of one spill bucket as a refill read them (R66, R69): priority and 256 bytes. -/
structure BucketRead where
  prio : Prio
  resp : MemResp
  deriving DecidableEq, Repr

/-- What a pass of the loader read (R127): the image's bytes (an offset that is not listed reads 0), and the line at
which a read failed, if one did. -/
structure ImgRead where
  bytes : List (Nat × Byte)
  stop : Option Nat
  deriving DecidableEq, Repr

/-- The four parts of a register page (R320). -/
inductive Alias where
  | base
  | set
  | clear
  | toggle
  deriving DecidableEq, Repr

/-- One 32-bit write part to a register that its command names: identity, alias part, data (R326, R327). -/
structure RegAcc where
  rid : BitVec 5
  als : Alias
  data : Word
  deriving DecidableEq, Repr

/-- The spaces an access can name: the four of the register port (Table 17-2), and the self alias of the thread
interface page, with the issuing thread and privilege (R214, R215). -/
inductive Space where
  | regs
  | vif
  | tif
  | pmu
  | core (t : ThreadNo) (priv : BitVec 2)
  deriving DecidableEq, Repr

/-- One access: space, offset in the space, size code 0 to 3 for 1, 2, 4 or 8 bytes, write data, identity. -/
structure Access where
  space : Space
  addr : BitVec 24
  size : BitVec 2
  data : BitVec 64
  rid : BitVec 5
  deriving DecidableEq, Repr

/-- The three windows of a thread interface page (R215). -/
inductive Win where
  | host
  | guest
  | user
  deriving DecidableEq, Repr

/-- How a thread operation reaches the block: the self alias with the core's privilege, or the absolute page through
the register port with an identity (R214, R215). -/
inductive Via where
  | self (priv : BitVec 2)
  | absolute (rid : BitVec 5)
  deriving DecidableEq, Repr

/-- A thread operation's thread, window and path. -/
structure TifOp where
  thread : ThreadNo
  win : Win
  via : Via
  deriving DecidableEq, Repr

/-- The three PLLs (Table 13-1). -/
inductive Pll where
  | dpll
  | mpll
  | tpll
  deriving DecidableEq, Repr

/-- The three glitch-free multiplexers (Table 13-4). -/
inductive Mux where
  | dref
  | dclk
  | mclk
  deriving DecidableEq, Repr

/-- The kinds of unit whose clock gates (Table 13-5). -/
inductive GateUnit where
  | station
  | pendBank
  | engine
  | ctxBank
  | dport
  | writer
  | xlate
  deriving DecidableEq, Repr

/-- What the boot ROM found in the firmware store (R380, R383): the 64 bytes of each copy of the store header, and the VERSION of each slot
that verifies (0: empty or invalid). -/
structure FwBoot where
  copy0 : List Byte
  copy1 : List Byte
  verA : Word
  verB : Word
  deriving DecidableEq, Repr

/-- What a mailbox command that waited was given: the bytes memory holds where it reads, the line
whose read memory answers with an error, if there is one, and whether the firmware store took its writes and read back the same
(R382, R440). -/
structure MbxEnd where
  bytes : List Byte
  stop : Option Nat
  storeOk : Bool
  deriving DecidableEq, Repr

/-- The causes of a warm reset (R397). -/
inductive WarmSrc where
  | pin
  | command (w : RegAcc)
  deriving DecidableEq, Repr

/-- The causes of a data-plane restart without drain (R397, R399). -/
inductive RestartSrc where
  | watchdog
  | command (w : RegAcc)
  deriving DecidableEq, Repr

/-- The commands: one constructor per row of the table, in the table's order. -/
inductive Instr where
  /-- LINE_EDGE (R80). A synchronised wired input goes from inactive to active, and an enabled edge-type line sets its raise bit, or the edge is absorbed into a raise bit already set. -/
  | lineEdge (c : Fin 16) (lv : BitVec 128)
  /-- LINE_ASSERT (R54). An enabled level-type line becomes asserted and its collector raises one arrival. -/
  | lineAssert (c : Fin 16) (lv : BitVec 128)
  /-- LEVEL_SAMPLE (R54). After a deactivation the line collector samples a level line and raises one arrival if the line is asserted. -/
  | levelSample (c : Fin 16)
  /-- COLLECTOR_OFFER (R82). In its turn a collector offers the first set raise bit at its scan pointer to the station's wired lane. -/
  | collectorOffer (c : Fin 16)
  /-- EDGE_LATCH_CAPTURE (R85). During Intermission a transition of an enabled line to its active level sets its PD0 edge-latch bit, and the first bit set is a wake cause. -/
  | edgeLatchCapture (c : Fin 16) (lv : BitVec 128)
  /-- LATCH_TRANSFER (R86). After two synchroniser samples on wake, a collector ORs the latch bits of its edge-type lines into their raise bits, copies the latch to LC_LATCH and clears it. -/
  | latchTransfer (c : Fin 16) (lv : BitVec 128)
  /-- SHORT_DOORBELL (R88). A 4-byte write at doorbell offset 0x000 is taken as one event word with no payload. -/
  | shortDoorbell (k : Fin 8) (id : BitVec 12) (beats : List Beat)
  /-- LONG_DOORBELL (R90). A write of 4 to 64 bytes at doorbell offset 0x040 is taken as an event word with L_EFF payload bytes, and a reassembly entry is claimed. -/
  | longDoorbell (k : Fin 8) (id : BitVec 12) (beats : List Beat)
  /-- DOORBELL_READ (R92). A read of any doorbell offset returns 0 with an OK response. -/
  | doorbellRead (k : Fin 8) (id : BitVec 12) (addr : BitVec 25) (rbeats : BitVec 3)
  /-- STATION_RESPONSE (R93). A decided station response leaves once every earlier response with its identifier has left. -/
  | stationResponse (k : Fin 8) (id : BitVec 12)
  /-- STATION_LOOKUP (R101). A station lane takes an item and looks up its SRC and EVA entries, parks it on a miss, drops it, or hands it to its pending-array bank. -/
  | stationLookup (k : Fin 8) (lane : Lane)
  /-- FILL_RESPONSE (R104). A cache-fill read returns, its entries are installed, and the result is applied to every event attached to the fill in parking order. -/
  | fillResponse (k : Fin 8) (a : SegAddr) (r : MemResp)
  /-- REFRESH_SWEEP (R138). Every 3.75 us of GT a station's refresh sweep visits one cache set and re-reads every valid entry of it. -/
  | refreshSweep (k : Fin 8)
  /-- REFRESH_RESPONSE (R138). A refresh read returns and the entry takes the memory content, or is removed if its key is gone or the read faulted. -/
  | refreshResponse (k : Fin 8) (a : SegAddr) (r : MemResp)
  /-- STN_INV (R109). A write of STN_INV with GO = 1 starts removing the cache entries that SCOPE names. -/
  | stnInv (k : Fin 8) (w : RegAcc)
  /-- STN_INV_DONE (R109). A source-route cache invalidation completes, BUSY falls, INV_COUNT rises and INV_DONE is set. -/
  | stnInvDone (k : Fin 8)
  /-- STN_CTL (R111). A write of STN_CTL sets CACHE_EN, and clearing it empties the cache. -/
  | stnCtl (k : Fin 8) (w : RegAcc)
  /-- LC_EN (R84). A write of LC_EN enables or disables lines, takes their current value as previous value, and may raise one level arrival or discard raise bits. -/
  | lcEn (c : Fin 16) (r : Fin 4) (w : RegAcc)
  /-- LC_LEVEL (R84). A write of LC_LEVEL sets lines to edge or level type without raising an edge arrival. -/
  | lcLevel (c : Fin 16) (r : Fin 4) (w : RegAcc)
  /-- LC_POL (R84). A write of LC_POL sets line polarity without raising an edge arrival. -/
  | lcPol (c : Fin 16) (r : Fin 4) (w : RegAcc)
  /-- LC_INJECT (R112). A write of LC_INJECT with GO sets the named line's raise bit, or sets INJECT_IGNORED for a disabled line. -/
  | lcInject (c : Fin 16) (w : RegAcc)
  /-- ARRIVAL_ADMIT (R53). An arrival is granted at its pending-array bank port and sets P, is held if M = 1, or is routed. -/
  | arrivalAdmit (b : Fin 16) (k : Fin 8)
  /-- ROUTE_ARRIVAL (R152). A route engine reads an arrival's route class and requests its record and its inserts or forward by KIND. -/
  | routeArrival (n : Fin 16)
  /-- MCS_SET_READ_DONE (R154). All lines of a multicast set have returned, and the engine issues one insert per member in member order, or none if a read faulted. -/
  | mcsSetReadDone (n : Fin 16) (r : MemResp)
  /-- RANK_INSERT (R66). A rank insert is granted at the context bank port and merges, enters the shortlist, or is spilled. -/
  | rankInsert (b : Fin 16) (q : Fin 19)
  /-- CTXT_ENTRY_READ (R148). The table-entry read for an insert into a non-resident context returns, and the insert is spilled or dropped under R149. -/
  | ctxtEntryRead (c : CtxNo) (r : MemResp)
  /-- SPILL_PUSH (R163). The residency and spill engine carries out a push of an entry into the context's spill bucket. -/
  | spillPush (c : CtxNo) (desc : MemResp)
  /-- REFILL_DONE (R66). The spill reads of a refill return and the entries are merged or appended to the shortlist. -/
  | refillDone (c : CtxNo) (buckets : List BucketRead)
  /-- REEVALUATE (R63). A context is re-evaluated after a change and, if its best entry qualifies and nothing is outstanding, requests a notification or a withdrawal. -/
  | reevaluate (c : CtxNo)
  /-- DELIVERY_GRANT (R207). A delivery port grants a NOTIFY or WITHDRAW for a thread, takes its delivery tracker and sends the message to the slice link. -/
  | deliveryGrant (t : ThreadNo)
  /-- NOTIFY (R209). A slice receives NOTIFY, drops it if covered, otherwise asserts the named line, and answers CONFIRM. -/
  | notify (t : ThreadNo)
  /-- WITHDRAW (R211). A slice receives WITHDRAW, de-asserts the line if it matches, moves COVERED and answers CONFIRM. -/
  | withdraw (t : ThreadNo)
  /-- ACK_RESPONSE (R209). A slice receives the response of an ACK, moves COVERED, de-asserts a covered line and returns the data to the core. -/
  | ackResponse (t : ThreadNo)
  /-- CONFIRM (R207). A CONFIRM reaches the block and releases the thread's delivery tracker. -/
  | confirm (t : ThreadNo)
  /-- SLICE_LINK_UP (R206). A slice link comes up with lines de-asserted and COVERED 0, and every context seated on it is re-evaluated. -/
  | sliceLinkUp (sl : BitVec 9)
  /-- SLICE_LINK_DOWN (R206). A slice link goes down, its trackers are released, and its seated contexts stay seated but are treated as not current. -/
  | sliceLinkDown (sl : BitVec 9)
  /-- ACK (R73). A read of ACK takes the best qualifying entry onto the active stack and returns it, or returns 0x000F_FFFF. -/
  | ack (o : TifOp)
  /-- EOI (R73). A write of EOI drops the priority of the topmost undropped activation if it matches, and deactivates it in joined mode. -/
  | eoi (o : TifOp) (data : Word)
  /-- DEACT (R73). A write of DEACT removes the topmost activation with that virtual event and recomputes RUNP. -/
  | deact (o : TifOp) (data : Word)
  /-- ACK_PEEK (R217). A read of ACK_PEEK returns the value ACK would return, with no effect. -/
  | ackPeek (o : TifOp)
  /-- GATE_WRITE (R218). A write of GATE sets the priority gate of the seat's context and causes re-evaluation. -/
  | gateWrite (o : TifOp) (data : Word)
  /-- CTL_WRITE (R218). A write of CTL sets PGRAN, JOINED and ACK_TIMEOUT of the seat's context. -/
  | ctlWrite (o : TifOp) (data : Word)
  /-- STATUS_CLR (R218). A write of STATUS_CLR clears the named sticky flags of the seat's context. -/
  | statusClr (o : TifOp) (data : Word)
  /-- UTAG_WRITE (R159). A write of UTAG sets the context's user-context tag and discards its class-U entries. -/
  | utagWrite (o : TifOp) (data : Word)
  /-- IPI_SEND (R219). A write of IPI_SEND resolves its target and inserts banked event 0x0_0800 + CLASS, or drops an invalid guest send. -/
  | ipiSend (o : TifOp) (data : Word)
  /-- TDL_LO_WRITE (R195). A write of TDL_LO applies the held high half and arms the context timer at the new deadline. -/
  | tdlLoWrite (o : TifOp) (data : Word)
  /-- TIMER_WRITE (R195). A write of TIMER sets TPRIO and TCLASS and arms or disarms the timer. -/
  | timerWrite (o : TifOp) (data : Word)
  /-- TIMER_FINE_LOAD (R196). In the slot before its key a timer is loaded from its bucket into the fine stage of comparators. -/
  | timerFineLoad (c : CtxNo)
  /-- TIMER_FIRE (R195). Sampled GT reaches TDL, TARM clears and banked event 0x0_0901 is inserted into the context. -/
  | timerFire (c : CtxNo)
  /-- RENOTIFY_CHECK (R77). At a slot boundary a context with no ACK for ACK_TIMEOUT us is re-evaluated and its outstanding notification is repeated if its best entry qualifies. -/
  | renotifyCheck (c : CtxNo)
  /-- CTX_LOAD (R223). CSG command LOAD checks the context and starts reading its table entry. -/
  | ctxLoad (g : Fin 32) (w : RegAcc)
  /-- CTX_LOAD_COMPLETE (R223). The reads of a LOAD return, the record and spill map are restored, the timer is linked, the seat is entered and the held inserts are made. -/
  | ctxLoadComplete (c : CtxNo) (entry : MemResp) (descs : List MemResp)
  /-- CTX_UNLOAD (R224). CSG command UNLOAD empties the seat, spills the shortlist, writes back the record and frees the slot. -/
  | ctxUnload (g : Fin 32) (w : RegAcc)
  /-- CTX_SEAT (R222). CSG command SEAT places a resident context in a seat and pins it automatically. -/
  | ctxSeat (g : Fin 32) (w : RegAcc)
  /-- CTX_UNSEAT (R222). CSG command UNSEAT empties the seat, removes the automatic pin and withdraws an outstanding notification. -/
  | ctxUnseat (g : Fin 32) (w : RegAcc)
  /-- CTX_MOVE (R226). CSG command MOVE starts the trapeze handoff, empties the old seat and holds inserts for the context. -/
  | ctxMove (g : Fin 32) (w : RegAcc)
  /-- HANDOFF_END (R226). After the old thread's CONFIRM the target seat is written, the handoff ends and held inserts are released. -/
  | handoffEnd (g : Fin 32)
  /-- CSG_BADOP (R222). A CSG_CMD with an undefined OP is refused with BADOP. -/
  | csgBadop (g : Fin 32) (w : RegAcc)
  /-- RE_PIN (R165). RE_PIN with OP 1 pins a resident context of the partition or is refused. -/
  | rePin (n : Fin 16) (w : RegAcc)
  /-- RE_UNPIN (R165). RE_PIN with OP 2 clears the explicit pin of a context. -/
  | reUnpin (n : Fin 16) (w : RegAcc)
  /-- FILT_CLR (R162). A write of RE_WAKE.FILT_CLR clears the partition's wake filter. -/
  | filtClr (n : Fin 16) (w : RegAcc)
  /-- MASK_SET (R55). A write setting M of the selected event takes effect at its pending-array bank port without withdrawing anything. -/
  | maskSet (n : Fin 16) (w : RegAcc)
  /-- MASK_CLEAR (R157). Clearing M of an event with P = 1 hands the held arrival to its station as a re-entry. -/
  | maskClear (n : Fin 16) (w : RegAcc)
  /-- LAST_LOAD (R127). LAST_CMD LOAD starts pass 1 of reading and checking an image in memory. -/
  | lastLoad (w : RegAcc)
  /-- LOAD_PASS1_DONE (R132). Pass 1 ends, with its cross-checks and CRC passing into pass 2 or failing with a REASON. -/
  | loadPass1Done (img : ImgRead)
  /-- LOAD_PASS2_DONE (R127). Pass 2 ends, with the inactive bank STAGED and LOAD_DONE, or EMPTY with CHANGED or FAULT2. -/
  | loadPass2Done (img : ImgRead)
  /-- COMMIT (R128). LAST_CMD COMMIT places a STAGED bank in COMMIT_PEND for the next revolution boundary. -/
  | commit (w : RegAcc)
  /-- ROLLBACK (R128). LAST_CMD ROLLBACK places a PREVIOUS bank in ROLLBACK_PEND for the next revolution boundary. -/
  | rollback (w : RegAcc)
  /-- ABORT (R128). LAST_CMD ABORT ends a load or a pending switch, or is refused with NOTHING. -/
  | abort (w : RegAcc)
  /-- BUILD (R140). LAST_CMD BUILD in basic level has the Ringmaster build a basic image in the inactive bank. -/
  | build (w : RegAcc)
  /-- BUILD_DONE (R140). A basic build has filled the bank and seated its contexts and enters COMMIT_PEND. -/
  | buildDone
  /-- LAST_BADOP (R128). A LAST_CMD with OP 0, 6 or 7 is refused with BADOP. -/
  | lastBadop (w : RegAcc)
  /-- BANK_FLIP (R129). When every admitted event has had its class read, the active bank flips in cycle S and station caches and pending lookups restart under it. -/
  | bankFlip
  /-- RING_SETTLE (R131). The last old record of a changed ring is written, and its indexes and overflow reset under the new fields. -/
  | ringSettle (r : RingNo)
  /-- CFG_CRC_COMMIT (R134). A write of CFG_CRC_COMMIT copies CFG_CRC_CUR into CFG_CRC_REF and sets REF_VALID. -/
  | cfgCrcCommit (w : RegAcc)
  /-- CFG_CRC_REF (R134). A write of CFG_CRC_REF sets the reference and REF_VALID. -/
  | cfgCrcRef (w : RegAcc)
  /-- SLOT_BOUNDARY (R185). The Carousel processes a slot boundary when N changes, handling its bucket and the deferred writes of slot pages. -/
  | slotBoundary
  /-- REVOLUTION_BOUNDARY (R185). A processed boundary that changes the revolution number performs the bank switch, sweep, held slot words, far-list scan and TIME frames. -/
  | revolutionBoundary
  /-- CAR_PERIOD_WRITE (R186). A write of CAR_PERIOD.NEXT schedules a new slot period and sets PEND. -/
  | carPeriodWrite (w : RegAcc)
  /-- PERIOD_TAKEN (R186). GT reaches a multiple of 4,096 x NEXT, the new slot period takes effect and wheel items are moved. -/
  | periodTaken
  /-- CAR_SLOT_DATA_WRITE (R190). A write of CAR_SLOT_DATA replaces a live slot word, or a shadow word in deferred mode. -/
  | carSlotDataWrite (w : RegAcc)
  /-- CAR_SLOT_DATA_READ (R190). A read of CAR_SLOT_DATA returns the slot word and advances IDX when AUTOINC = 1. -/
  | carSlotDataRead (rid : BitVec 5)
  /-- CAR_CTL_WRITE (R192). A write of CAR_CTL sets SLOT_EV_EN, TIMER_EN and COAL_EN, and a write of COAL_EN = 0 flushes every open window. -/
  | carCtlWrite (w : RegAcc)
  /-- WINDOW_EXPIRY (R192). An open coalescing window's key is reached and it closes with EXPIRY and flushes. -/
  | windowExpiry (r : RingNo)
  /-- TU_FREQ_ADJ_LO (R174). A write of TU_FREQ_ADJ_LO applies the held high half and the new value as FREQ_ADJ at one TPLL edge. -/
  | tuFreqAdjLo (w : RegAcc)
  /-- TU_STEP_LO (R175). A write of TU_STEP_LO adds the signed phase step to GT at one TPLL edge. -/
  | tuStepLo (w : RegAcc)
  /-- TU_SET_LO (R176). A write of TU_SET_LO loads GT and zeroes the fraction at one TPLL edge. -/
  | tuSetLo (w : RegAcc)
  /-- TU_CTL_WRITE (R178). A write of TU_CTL sets REF, MODE and FOLLOW_PORT and returns the TPLL to the selected crystal if it has passed its check. -/
  | tuCtlWrite (w : RegAcc)
  /-- PPS_EDGE (R182). A rising PPS_IN edge loads TU_PPS_CAP, advances TU_PPS_CNT and sets PPS_NEW. -/
  | ppsEdge
  /-- TICK_PULSE (R183). GT reaches a boundary named by TU_TICK.SEL and MON_OUT carries a tick pulse. -/
  | tickPulse
  /-- FOLLOW_HOLDOVER (R181). In FOLLOW mode no valid TIME frame has arrived for 8 revolutions, and HOLDOVER is set and VALID cleared. -/
  | followHoldover
  /-- RECORD_INTAKE (R240). A ring-writer intake grant takes up to two record descriptors, each taking a tracker into staging. -/
  | recordIntake (w : Fin 4) (n : Fin 16)
  /-- RECORD_ADMIT (R240). A staged record is admitted at the ring descriptor table port, allocating entries with RESUME and PAD, or is dropped. -/
  | recordAdmit (w : Fin 4) (r : RingNo)
  /-- RING_WRITE_ISSUE (R242). A writer translates and issues the write of staged records of a ring in index order, combining records of one line. -/
  | ringWriteIssue (r : RingNo)
  /-- RING_WRITE_ACCEPT (R242). Memory accepts a ring write and the records' trackers are freed. -/
  | ringWriteAccept (r : RingNo)
  /-- INDEX_WRITE (R243). When every entry below a flush target has been accepted, the writer writes PUB, OVF and GT to the ring's index line. -/
  | indexWrite (r : RingNo)
  /-- INDEX_WRITE_ACCEPT (R243). Memory accepts an index write and the on-die PUB takes its value. -/
  | indexWriteAccept (r : RingNo)
  /-- ERW_RING_CI (R245). A write of ERW_RING_CI returns entries if the value is within PUB, and is otherwise refused with CI_BAD. -/
  | erwRingCi (w : RegAcc)
  /-- CLEAR_FAULT (R247). ERW_RING_CMD CLEAR_FAULT clears FAULTED of the selected ring. -/
  | clearFault (w : RegAcc)
  /-- RING_RESET (R247). ERW_RING_CMD RESET zeroes the ring's indexes and OVF, ends its episode and clears FAULTED, or is refused with BUSY. -/
  | ringReset (w : RegAcc)
  /-- ERW_VIF_SHARE (R250). A write of ERW_VIF_SHARE sets SHARE and CREDIT of the selected owner. -/
  | erwVifShare (w : RegAcc)
  /-- VIF_CREATE (R257). VMGR command CREATE makes a FREE VIF ACTIVE with a new generation. -/
  | vifCreate (w : RegAcc)
  /-- VIF_RESET (R260). VMGR command RESET advances the generation and starts the purge, with the VIF RESETTING. -/
  | vifReset (w : RegAcc)
  /-- VIF_DESTROY (R260). VMGR command DESTROY advances the generation, stops dirty logging and starts the purge, with the VIF RELEASING. -/
  | vifDestroy (w : RegAcc)
  /-- SET_CTX (R259). VMGR command SET_CTX writes the VIF's context range. -/
  | setCtx (w : RegAcc)
  /-- SET_RING (R259). VMGR command SET_RING writes the VIF's ring slots after the owner check. -/
  | setRing (w : RegAcc)
  /-- SET_NOTIFY (R266). VMGR command SET_NOTIFY writes the target, priority and enable of the VIF notification. -/
  | setNotify (w : RegAcc)
  /-- DIRTY_START (R268). VMGR command DIRTY_START binds a dirty-log channel to the VIF and starts logging. -/
  | dirtyStart (w : RegAcc)
  /-- DIRTY_STOP (R268). VMGR command DIRTY_STOP clears DL_EN of the VIF. -/
  | dirtyStop (w : RegAcc)
  /-- HARVEST (R270). VMGR command HARVEST sets SNAP to PI and ends suppression by earlier filter entries. -/
  | harvest (w : RegAcc)
  /-- DRAIN (R265). VMGR command DRAIN marks the VIF's operations and flushes its open windows. -/
  | drain (w : RegAcc)
  /-- RING_IDX (R259). VMGR command RING_IDX sets PI, PUB and CI of a VIF ring slot. -/
  | ringIdx (w : RegAcc)
  /-- VMGR_BADOP (R259). A VMGR_CMD with an undefined OP is refused with BADOP. -/
  | vmgrBadop (w : RegAcc)
  /-- PURGE_END (R260). The context and ring scans of a purge finish and the RESET or DESTROY command ends. -/
  | purgeEnd
  /-- QUIESCENCE (R262). No old-generation operation remains, the VIF's rings are reset and it becomes ACTIVE or FREE with cause QUIESCED. -/
  | quiescence (v : VifNo)
  /-- DRAINED (R265). Every operation marked by a drain has completed, and cause DRAINED is set. -/
  | drained (v : VifNo)
  /-- SNAP (R270). Every write and log entry before a harvest has been accepted, and cause SNAP is set. -/
  | snap (ch : BitVec 6)
  /-- DL_CHANNEL_FREE (R268). The issued log writes of a stopped channel have been accepted and the channel becomes free. -/
  | dlChannelFree (ch : BitVec 6)
  /-- VMGR_DL_CI (R271). A write of VMGR_DL_CI frees log entries, or is refused with DL_CI_BAD. -/
  | vmgrDlCi (w : RegAcc)
  /-- VIF_HVDB (R266). A guest write of VIF_HVDB stores MSG and sets cause GUEST. -/
  | vifHvdb (v : VifNo) (rid : BitVec 5) (data : Word)
  /-- VIF_RING_CI (R267). A write of VIF_RING_CI acts as a CI write on a usable slot, and is otherwise refused and counted. -/
  | vifRingCi (v : VifNo) (j : Fin 16) (rid : BitVec 5) (data : Word)
  /-- SEG_APPLY (R277). XU_SEG_CMD APPLY replaces a segment descriptor in one cycle and starts an invalidation of the segment. -/
  | segApply (w : RegAcc)
  /-- SEG_FETCH (R277). XU_SEG_CMD FETCH copies a segment descriptor into the staging registers. -/
  | segFetch (w : RegAcc)
  /-- XU_INV (R289). A write of XU_INV with GO = 1 starts removing the TLB entries that SCOPE names. -/
  | xuInv (w : RegAcc)
  /-- XU_INV_DONE (R289). Removal is complete and old walks and accesses are done, so BUSY falls and INV_DONE is set. -/
  | xuInvDone
  /-- WALK_START (R284). A translation that misses the TLB takes a free walker, or attaches to a walk in flight, and issues its first table read. -/
  | walkStart
  /-- WALK_READ_RESPONSE (R284). A walk table read returns and the walk proceeds to the next level, installs its leaf, or faults. -/
  | walkReadResponse (w : BitVec 6) (r : WalkResp)
  /-- FAULT_REPORT (R292). A fault report at the head of its queue writes the fault log, a fault record and event 0x0_0903. -/
  | faultReport
  /-- EVENT_FRAME (R303). A receive FIFO takes an EVENT frame at its head and admits it locally or places it in a transit lane. -/
  | eventFrame (p : Fin 4) (vc1 : Bool) (arr : List (BitVec 128))
  /-- CREDIT_FRAME (R306). A CREDIT frame returns credits and releases the oldest trackers of each VC. -/
  | creditFrame (p : Fin 4) (beats : List (BitVec 128))
  /-- TIME_FRAME (R313). A TIME frame is stamped, theta and delay are computed, and in FOLLOW mode GT is steered. -/
  | timeFrame (p : Fin 4) (beats : List (BitVec 128))
  /-- HELLO (R310). A HELLO frame loads the peer's credits and may bring the port up, or sets SELF_LOOP. -/
  | hello (p : Fin 4) (beats : List (BitVec 128))
  /-- SLEEP (R311). A SLEEP frame makes the port stop presenting event frames and set PEER_ASLEEP. -/
  | sleep (p : Fin 4) (beats : List (BitVec 128))
  /-- SLEEP_ACK (R311). A SLEEP_ACK frame reports that the peer has sent its last event frame on the port. -/
  | sleepAck (p : Fin 4) (beats : List (BitVec 128))
  /-- JUWA_TRANSMIT (R306). A Juwa transmit port grants a frame, which uses a credit and a forward tracker and leaves unsplit. -/
  | juwaTransmit (p : Fin 4) (n : Fin 16)
  /-- ESCAPE (R308). A non-pinned VC0 lane head waits ESC_CYC cycles without credit and becomes eligible on VC1. -/
  | escape (p : Fin 4) (n : Fin 16)
  /-- CREDIT_RETURN (R307). CRED_BATCH credits have accumulated or 64 cycles have passed, and a CREDIT frame is sent. -/
  | creditReturn (p : Fin 4)
  /-- HELLO_SEND (R310). Every 4,096 DCLK cycles a port that is down sends HELLO. -/
  | helloSend (p : Fin 4)
  /-- WAKE_SEND (R312). Every 16 us a port whose peer sleeps and whose lane head waits only for the peer sends WAKE. -/
  | wakeSend (p : Fin 4)
  /-- PORT_UP (R310). A Juwa port has EN, link ready, GLB_INST and an exchange of HELLOs, and comes up. -/
  | portUp (p : Fin 4)
  /-- PORT_DOWN (R310). A Juwa port goes down, discards its frames, releases its trackers and credits and places origin arrivals. -/
  | portDown (p : Fin 4)
  /-- JL_PORT_CTL (R319). A write of JL_Pn_CTL enables a port or takes it down. -/
  | jlPortCtl (p : Fin 4) (w : RegAcc)
  /-- REGISTER_WRITE (R326). A register write without behaviour of its own passes the checks of Table 12-3 and is applied, held or posted. -/
  | registerWrite (a : Access)
  /-- RESERVED_PAGE_ACCESS (R322). An access to a reserved page returns 0 or is ignored, with an error response and a NOPAGE log entry. -/
  | reservedPageAccess (a : Access) (wr : Bool)
  /-- PG_STATCLR (R330). A write of PG_STATCLR clears the named status flags if its SEQ matches, and otherwise sets CLRSTALE. -/
  | pgStatclr (pg : BitVec 7) (w : RegAcc)
  /-- PG_KEY (R331). A write of PG_KEY unlocks the page with the right value, and otherwise locks it and sets KEYBAD. -/
  | pgKey (pg : BitVec 7) (w : RegAcc)
  /-- POSTED_WRITE_LAND (R334). A posted write lands in its slow domain and PG_BUSY.BUSY falls. -/
  | postedWriteLand (pg : BitVec 7)
  /-- TRN_APPLY (R339). TRN_RGN_CMD APPLY copies the staged rule into a region, at once or held for the revolution boundary. -/
  | trnApply (w : RegAcc)
  /-- TRN_FETCH (R344). TRN_RGN_CMD FETCH copies a region into the staging registers. -/
  | trnFetch (w : RegAcc)
  /-- TRN_EPOCH (R339). A write of TRN_EPOCH.GO advances EPOCH and starts counting older access parts. -/
  | trnEpoch (w : RegAcc)
  /-- TRN_DRAINED (R339). The access parts checked before the epoch have completed, OLD reaches 0 and DRAINED is set. -/
  | trnDrained
  /-- GLB_INST (R297). The once-only write of GLB_INST sets the instance number and lets Juwa ports come up. -/
  | glbInst (w : RegAcc)
  /-- ADMIT_EN (R342). A write of GLB_CTL.ADMIT_EN stops or restarts admission at stations and collectors. -/
  | admitEn (w : RegAcc)
  /-- ADMIT_STOPPED (R342). Every write and wired arrival taken before admission stopped has been admitted or dropped, and STOPPED is set. -/
  | admitStopped
  /-- XCHK_WINDOW (R347). A crystal check window ends and passes or fails, and after PASSES passes the crystal is CHECKED. -/
  | xchkWindow (x : Bool) (count : BitVec 20)
  /-- CRYSTAL_MONITOR_TRIP (R349). Monitor M0 or M1 trips and the PLLs on that crystal coast and fall back to the other crystal when it is checked. -/
  | crystalMonitorTrip (x : Bool)
  /-- FIO_MONITOR_TRIP (R348). Monitor M2 trips, FIO_BAD is set and crystal checks pause. -/
  | fioMonitorTrip
  /-- DCLK_MONITOR_TRIP (R348). Monitor M3 trips and DCLK moves to the MPLL while the DPLL relocks. -/
  | dclkMonitorTrip
  /-- PLL_LOCK (R346). A PLL's lock delay ends with its detector reporting lock and the PLL becomes usable or leaves coasting. -/
  | pllLock (p : Pll)
  /-- PLL_START_NOREF (R394). No crystal has passed after 16 windows and the PLLs start coasting without a reference. -/
  | pllStartNoref
  /-- CPC_DPLL (R350). A write of CPC_DPLL.TARGET starts a glitch-free DPLL slew to the new frequency. -/
  | cpcDpll (w : RegAcc)
  /-- SLEW_DONE (R350). A DPLL slew reaches its target and SLEW_DONE is set. -/
  | slewDone
  /-- CPC_SRC (R352). A write of CPC_SRC switches a clock multiplexer through the glitch-free path. -/
  | cpcSrc (w : RegAcc)
  /-- CLK_MUX_HUNG (R352). A multiplexer has hung for 64 SIO cycles and the clock watchdog forces it and resets its domains. -/
  | clkMuxHung (m : Mux)
  /-- RECHECK (R349). CPC_CMD RECHECK clears CHK_STOPPED and restarts the checks of unchecked crystals. -/
  | recheck (w : RegAcc)
  /-- UNIT_GATE (R354). A unit idle for its gating count stops its clock until an early wake. -/
  | unitGate (u : GateUnit) (n : Fin 16) (gate : Bool)
  /-- PWR_SLEEP (R357). PWR_CMD SLEEP is checked and, if accepted, asserts INTERMISSION, drains the data plane and writes contexts and ring descriptors to the save area. -/
  | pwrSleep (w : RegAcc)
  /-- PWR_BADOP (R369). A PWR_CMD with OP 0, 2 or 3 gives BADOP. -/
  | pwrBadop (w : RegAcc)
  /-- INTERMISSION_ENTER (R357). Memory has accepted every save-area write, latches and snapshot are written, PD29 enters retention and the other domains switch off. -/
  | intermissionEnter (accepted : Bool)
  /-- WAKE_CAUSE (R361). A wake cause is latched in PD0 and the timed wake sequence starts. -/
  | wakeCause (causes : BitVec 5)
  /-- WAKE_RESTORE (R361). At 5.0 us of the wake collectors sample, the first boundary is processed, links come up and ring restore and context reload begin. -/
  | wakeRestore
  /-- WOKE (R361). At 12.0 us the stations accept, INTERMISSION is de-asserted and WOKE is set. -/
  | woke
  /-- RINGS_RESTORED (R362). Every ring descriptor has been read back from the save area. -/
  | ringsRestored (lines : List (Nat × MemResp))
  /-- RELOADED (R362). Every saved context has been reloaded. -/
  | reloaded (lines : List (Nat × MemResp))
  /-- ACC_ASLEEP (R363). A register access arriving during Intermission is answered with an error by PD0. -/
  | accAsleep (a : Access)
  /-- SN_SWITCH (R364). VDD_AON falls below 0.70 V and PD0 and PD1 move to VBKP with PD2 to PD31 isolated. -/
  | snSwitch
  /-- SN_RETURN (R364). VDD_AON has stayed above 0.76 V for 1 ms and PD0 and PD1 move back and start the block. -/
  | snReturn
  /-- PWR_SN_TEST (R365). A write of PWR_SN_TEST forces or inhibits the switch-over under a presence grant, and is otherwise ignored. -/
  | pwrSnTest (w : RegAcc)
  /-- SENSOR_SAMPLE (R373). Once per revolution the Ringmaster samples thermal sensors and voltage monitors and raises alarms or throttles. -/
  | sensorSample (temps volts : List (BitVec 16))
  /-- LOG_WRITE (R374). The PD0 writer writes a queued record into the retention log. -/
  | logWrite
  /-- RINGMASTER_RESTART (R371). The Ringmaster restarts, ends a running mailbox command as ABORTED and releases the mailbox. -/
  | ringmasterRestart
  /-- READY (R371). The Ringmaster restart completes and RM_STAT.READY reads 1. -/
  | ready (fw : FwBoot)
  /-- TAKE (R376). A write of MBX_OWN.TAKE makes the writer the mailbox owner, or is refused. -/
  | take (w : RegAcc)
  /-- RELEASE (R378). The owner writes MBX_OWN.RELEASE and the mailbox is released. -/
  | release (w : RegAcc)
  /-- MBX_IDLE_TIMEOUT (R378). 10 ms pass with no command and no owner access, and the mailbox is released. -/
  | mbxIdleTimeout
  /-- INFO (R379). Mailbox command INFO returns firmware versions and slots. -/
  | info (w : RegAcc)
  /-- LOG_CLEAR (R375). Mailbox command LOG_CLEAR empties the log under presence and writes a LOGCLR record. -/
  | logClear (w : RegAcc)
  /-- FW_STAGE (R382). Mailbox command FW_STAGE reads, verifies and writes a firmware candidate into the inactive slot. -/
  | fwStage (w : RegAcc)
  /-- FW_ACTIVATE (R382). Mailbox command FW_ACTIVATE writes the store header for a valid slot and restarts the Ringmaster from it. -/
  | fwActivate (w : RegAcc)
  /-- LAST_UPDATE (R384). Mailbox command LAST_UPDATE loads an image, verifies its signature and optionally commits it. -/
  | lastUpdate (w : RegAcc)
  /-- LAST_FACTORY (R385). Mailbox command LAST_FACTORY aborts image activity, sets basic level, resets BASIC registers and builds. -/
  | lastFactory (w : RegAcc)
  /-- PRESENCE_OPEN (R386). Mailbox command PRESENCE_OPEN opens a grant if the seal is intact and presence was held for 1 s. -/
  | presenceOpen (w : RegAcc) (held : Bool)
  /-- PRESENCE_END (R386). Mailbox command PRESENCE_END ends the open grant. -/
  | presenceEnd (w : RegAcc)
  /-- AWL (R388). Mailbox command AWL enables the Awl port under a grant, or disables it. -/
  | awl (w : RegAcc)
  /-- MBX_BADOP (R379). A mailbox command with an unknown OP ends with BADOP. -/
  | mbxBadop (w : RegAcc)
  /-- MBX_COMMAND_END (R379). A mailbox command that waited on memory, store or load ends with its result and response. -/
  | mbxCommandEnd (e : MbxEnd)
  /-- GRANT_EXPIRY (R386). A presence grant runs out its GRANT_S seconds and ends. -/
  | grantExpiry
  /-- SEAL_BREAK (R386). SEAL_LOOP reads open for two samples, setting SEAL_BROKEN, ending the grant and disabling the Awl port. -/
  | sealBreak
  /-- AWL_ADDR (R388). Update-DR of AWL_ADDR sets the word address and starts a read or arms a write. -/
  | awlAddr (d : Word)
  /-- AWL_DATA (R388). Update-DR of AWL_DATA supplies data for an armed write to a register page under identity 4. -/
  | awlData (d : Word)
  /-- AWL_ACCESS_DONE (R388). An Awl register access completes and sets DONE, ERR or DENIED in AWL_STAT. -/
  | awlAccessDone
  /-- COLD_START (R393). AON_PGOOD rises or COLD_RST_N is released and the cold start sequence begins. -/
  | coldStart (logKept sealClosed dpGood : Bool)
  /-- DP_READY (R393). Array initialisation completes, INTERMISSION is de-asserted and the stations accept. -/
  | dpReady
  /-- PARTIAL_COLD_START (R396). A start from backup or after DP_PGOOD loss begins at the FIO step with PD0 and PD1 kept. -/
  | partialColdStart (dpGood : Bool)
  /-- DP_LOSS (R396). DP_PGOOD falls outside Intermission, FATAL is reported and PD5 to PD31 are held in reset. -/
  | dpLoss
  /-- WARM_RESET (R398). WARM_RST_N or RAS_CMD WARM stops admission and starts the drain of a warm reset. -/
  | warmReset (src : WarmSrc)
  /-- WARM_DRAIN_END (R398). A warm reset's drain empties or WARM_DRAIN runs out, windows flush and the restart begins. -/
  | warmDrainEnd
  /-- DP_RESTART (R399). RAS_CMD RESTART or the DCLK watchdog starts a data-plane restart without drain. -/
  | dpRestart (src : RestartSrc)
  /-- RESTART_END (R399). The 4,096-cycle restart ends and ports accept again. -/
  | restartEnd
  /-- RESTART_SCAN (R399). A pending-array bank presents an event with P = 1 and M = 0 as a re-entry. -/
  | restartScan (b : Fin 16)
  /-- ECC_CE (R402). A read meets a single-bit error, which is corrected and written back. -/
  | eccCe (src : BitVec 5) (index : BitVec 24) (synd : BitVec 8)
  /-- ECC_UE (R402). A read or transfer meets an uncorrectable error, handled by array as Table 15-3 states. -/
  | eccUe (src : BitVec 5) (index : BitVec 24) (synd : BitVec 8)
  /-- SCRUB_PASS (R404). Every 16 processed revolutions the scrubber starts a pass reading every protected word. -/
  | scrubPass
  /-- RAS_REPORT (R405). A queued RAS report writes the RAS log, a RAS record and event 0x0_0904. -/
  | rasReport
  /-- RAS_INJECT (R409). A write of RAS_INJECT with GO makes the next write to the array store flipped bits. -/
  | rasInject (w : RegAcc)
  /-- COUNTER_WRAP (R419). A PMU counter wraps to 0, sets its overflow bit and OVF, and may freeze the counters. -/
  | counterWrap (fixed : Bool) (n : BitVec 6)
  /-- MEM_RESPONSE_UNKNOWN_ID (R429). A memory response to an identifier with no read in flight is discarded and counted as a parity UE. -/
  | memResponseUnknownId (walk : Bool) (id : BitVec 12)
  /-- SCAN_MODE (R441). SCAN_MODE is asserted, ending the grant, disabling the Awl port, setting SEAL_BROKEN and holding every domain in reset. -/
  | scanMode
  /-- SIO_JUDGED (R345). SIO has run its first 64 cycles after its first edge, is judged usable, and FIO is enabled. -/
  | sioJudged
  /-- FIO_USABLE (R393). FIO's CPC_DELAY0 delay expires: MCLK runs from FIO, PD2 to PD4 leave reset, the register port opens, the boot ROM starts and the crystal checks begin. -/
  | fioUsable
  /-- FIO_BAD_CLEARED (R367). Monitor M2 passes 16 SIO periods in a row, FIO_BAD clears and the paused crystal checks resume. -/
  | fioBadCleared
  /-- GT_STOPPED (R180). XA stops while PD1 runs from VBKP, so GT stops and GT_STOPPED is set. -/
  | gtStopped
  /-- SPILL_WRITE_ACCEPT (R66). Memory accepts a spill write or context write-back, freeing the residency engine's in-flight slot and letting later spill-area or table-entry reads of that context issue. -/
  | spillWriteAccept (c : CtxNo)
  /-- COLD_RESET (R392). COLD_RST_N is asserted or AON_PGOOD falls: PD0 and PD1 move to VBKP if it is present, and every other domain is held in reset. -/
  | coldReset (vbkp : Bool)
  /-- REGISTER_READ (R326). A register-port read passes the checks of Table 12-3; a denied part is logged and counted, and a read of RE_EVSTAT or ERW_VIF_SHARE under an invalid selection sets EVSEL_BAD or SEL_BAD. -/
  | registerRead (a : Access)  deriving DecidableEq, Repr

end Sys2Proof
end

