-- ==== Sys2Proof/Decode.lean ====
section
/-! DEFINITION. The decoder of command words. Every row of the table has width 0 and gives no bits: no word spells a
command. -/

namespace Sys2Proof

/-- The command that a word spells by the table's bits: none, for the table gives no row any. -/
def decodeTableWord (_nbits _w : Nat) : Option Instr := none

end Sys2Proof
end

