-- ==== Sys2Proof/Config.lean ====
section
/-! DEFINITION. What the spec leaves to the delivered parts: free values with no body, so that nothing rests on a
number the spec does not give. -/

namespace Sys2Proof.Config

/-- Whether an Ed25519 signature verifies against ROM key `key` over a message (R381, R384). The keys are fixed per
licence (chapter 14) and the spec does not give them: a free function of its arguments (log 5). -/
opaque sigValid (key : Nat) (msg sig : List Byte) : Bool

/-- The held high half of a timer deadline after a context was written back and loaded: the write-back image does not carry
it (Table 7-7) and the spec states no value (log 22). A free value of the context and of GT. -/
opaque lostTdlHi (ctx : CtxNo) (gt : Gt) : Word

/-- LAST_ERR_OFF for a reason whose failing item has no line the spec names: a missing directory ID, two
sections that overlap, CRC, CHANGED, ABORTED (R132; log 42). A free value of the reason and the image version. -/
opaque errOffOpen (reason : BitVec 5) (version : Word) : Word

/-- Which power domains the k-th of the 8 steps of a start or a wake switches on (Tables 15-1, 13-8): the spec gives the steps and the
domains, not which step takes which (log 88). A free value of the step. -/
opaque powerStep (k : Nat) : Word

/-- The words of the Ringmaster's SRAM after its n-th load (R33): software cannot see them (chapter 14) and the spec gives none (log 91).
A free value. -/
opaque sramWord (load : Nat) (word : BitVec 16) : BitVec 64

/-- The result of a mailbox command of which the Turnstile refuses a register access under identity 3 (R335, R384, R385): Table 14-6
names none (log 90). A free value of the command. -/
opaque deniedResult (op : BitVec 8) : BitVec 8

/-- Whether the source has stopped when its monitor trips (R348, R352; 2 for M2, 3 for M3): a trip tells that the source is off its nominal
value, not whether it still toggles (log 30). A free value of the monitor and of the time. -/
opaque tripStopped (monitor ns : Nat) : Bool

end Sys2Proof.Config
end

