-- ==== Sys2Proof/Machine/Bits.lean ====
section
/-! DEFINITION. Bit fields, byte order and the CRC: in-memory structures are little-endian (R8), a bit range is written
[msb:lsb]. -/

namespace Sys2Proof.Machine

/-- Field [hi:lo] of a word, as a number of `hi - lo + 1` bits. -/
def fld {w : Nat} (x : BitVec w) (hi lo : Nat) : BitVec (hi - lo + 1) := x.extractLsb' lo (hi - lo + 1)

/-- Bit [i] of a word. -/
def bit {w : Nat} (x : BitVec w) (i : Nat) : Bool := x.getLsbD i

/-- A flag as one bit. -/
def b1 (x : Bool) : BitVec 1 := if x then 1 else 0

/-- A word whose field at `lo` holds `v` and whose other bits are 0. -/
def at' {w n : Nat} (v : BitVec n) (lo : Nat) : BitVec w := (v.setWidth w) <<< lo

/-- A flag at bit `i` of a word. -/
def flagAt {w : Nat} (x : Bool) (i : Nat) : BitVec w := if x then (1 : BitVec w) <<< i else 0

/-- A word with bit `i` written. -/
def setBit {w : Nat} (x : BitVec w) (i : Nat) (v : Bool) : BitVec w :=
  (x &&& ~~~((1 : BitVec w) <<< i)) ||| flagAt v i

/-- A word with the bits of a mask taken from another. -/
def blend {w : Nat} (mask old new : BitVec w) : BitVec w := (old &&& ~~~mask) ||| (new &&& mask)

/-- The bits lo to hi set. -/
def mask {w : Nat} (hi lo : Nat) : BitVec w := ((1 : BitVec w) <<< (hi + 1)) - ((1 : BitVec w) <<< lo)

/-- The first set bit at or after `start` of the bits below `n`, going up. -/
def firstFrom {w : Nat} (x : BitVec w) : Nat → Nat → Option Nat
  | _, 0 => none
  | start, n + 1 => if x.getLsbD start then some start else firstFrom x (start + 1) n

/-- The lowest set bit. -/
def lowest {w : Nat} (x : BitVec w) : Option Nat := firstFrom x 0 w

/-- The number of set bits. -/
def popCount {w : Nat} (x : BitVec w) : Nat := (List.range w).countP (x.getLsbD ·)

/-- The little-endian number of a byte list (R8). -/
def leNat : List Byte → Nat
  | [] => 0
  | b :: r => b.toNat + 256 * leNat r

/-- `n` bytes of a number, lowest first (R8). -/
def leBytes : Nat → Nat → List Byte
  | 0, _ => []
  | n + 1, x => BitVec.ofNat 8 x :: leBytes n (x / 256)

/-- A byte list as a word of `w` bits. -/
def leBits (w : Nat) (bs : List Byte) : BitVec w := BitVec.ofNat w (leNat bs)

/-- One bit of CRC-32C in reflected form 0x82F6_3B78 (R115). -/
def crcBit (c : BitVec 32) : BitVec 32 :=
  if c.getLsbD 0 then (c >>> 1) ^^^ 0x82F63B78#32 else c >>> 1

/-- One byte of CRC-32C. -/
def crcByte (c : BitVec 32) (b : Byte) : BitVec 32 :=
  Nat.rec (c ^^^ b.setWidth 32) (fun _ x => crcBit x) 8

/-- CRC-32C over bytes from a running value. -/
def crcRun (c : BitVec 32) (bs : List Byte) : BitVec 32 := bs.foldl crcByte c

/-- CRC-32C (R115): initial value 0xFFFF_FFFF, final XOR 0xFFFF_FFFF. -/
def crc32c (bs : List Byte) : BitVec 32 := crcRun 0xFFFFFFFF#32 bs ^^^ 0xFFFFFFFF#32

/-- The smallest index of a list that passes. -/
def firstIdx {α : Type} (p : α → Bool) : List α → Nat → Option Nat
  | [], _ => none
  | x :: r, i => if p x then some i else firstIdx p r (i + 1)

/-- A list with the items that pass replaced by what `f` makes of the first of them. -/
def modifyFirst {α : Type} (p : α → Bool) (f : α → α) : List α → List α
  | [] => []
  | x :: r => if p x then f x :: r else x :: modifyFirst p f r

/-- A list without its first item that passes. -/
def eraseFirst {α : Type} (p : α → Bool) : List α → List α
  | [] => []
  | x :: r => if p x then r else x :: eraseFirst p r

end Sys2Proof.Machine
end

