-- ==== Sys2Proof/Machine/Map.lean ====
section
/-! DEFINITION. Numbered collections as plain data: the arrays of the block (Table 1-3), its register files and its
tables, with only the places listed that differ from what an unlisted place holds. -/

namespace Sys2Proof.Machine

/-- A collection numbered by Nat: pairs of a number and what it holds. -/
structure Map (α : Type) where
  cells : List (Nat × α)
  deriving DecidableEq, Repr

namespace Map

variable {α : Type}

/-- Nothing listed. -/
def empty : Map α := ⟨[]⟩

/-- The first pair of a number. -/
def look : List (Nat × α) → Nat → Option α
  | [], _ => none
  | (j, v) :: r, i => if j = i then some v else look r i

/-- The list without a number. -/
def drop : List (Nat × α) → Nat → List (Nat × α)
  | [], _ => []
  | (j, v) :: r, i => if j = i then drop r i else (j, v) :: drop r i

/-- The list with a pair put before the first larger number. -/
def put : List (Nat × α) → Nat → α → List (Nat × α)
  | [], i, v => [(i, v)]
  | (j, w) :: r, i, v => if i < j then (i, v) :: (j, w) :: r else (j, w) :: put r i v

/-- What a number holds, if it is listed. -/
def find? (m : Map α) (i : Nat) : Option α := look m.cells i

/-- List a number. -/
def insert (m : Map α) (i : Nat) (v : α) : Map α := ⟨put (drop m.cells i) i v⟩

/-- Unlist a number. -/
def erase (m : Map α) (i : Nat) : Map α := ⟨drop m.cells i⟩

/-- What a number holds; an unlisted number holds `d`. -/
def get (m : Map α) (d : α) (i : Nat) : α := (m.find? i).getD d

/-- Write a number. Writing what an unlisted number holds unlists it. -/
def set [DecidableEq α] (m : Map α) (d : α) (i : Nat) (v : α) : Map α :=
  if v = d then m.erase i else m.insert i v

/-- Change what a number holds. -/
def upd [DecidableEq α] (m : Map α) (d : α) (i : Nat) (f : α → α) : Map α := m.set d i (f (m.get d i))

/-- The listed pairs, numbers rising. -/
def toList (m : Map α) : List (Nat × α) := m.cells

/-- Change every listed value. -/
def mapVals {β : Type} (m : Map α) (f : Nat → α → β) : Map β := ⟨m.cells.map fun p => (p.1, f p.1 p.2)⟩

/-- Change every listed value; one that becomes what an unlisted number holds is unlisted. -/
def remap [DecidableEq α] (m : Map α) (d : α) (f : Nat → α → α) : Map α :=
  ⟨(m.cells.map fun p => (p.1, f p.1 p.2)).filter fun p => decide (p.2 ≠ d)⟩

/-- Keep the listed pairs that pass. -/
def filter (m : Map α) (p : Nat → α → Bool) : Map α := ⟨m.cells.filter fun q => p q.1 q.2⟩

/-- The number of listed pairs that pass. -/
def countP (m : Map α) (p : Nat → α → Bool) : Nat := m.cells.countP fun q => p q.1 q.2

/-- Numbers strictly rising from above `n`. -/
def rising : Option Nat → List (Nat × α) → Bool
  | _, [] => true
  | none, (j, _) :: r => rising (some j) r
  | some i, (j, _) :: r => decide (i < j) && rising (some j) r

/-- The canonical form: numbers strictly rising, none holding what an unlisted number holds. -/
def wf [DecidableEq α] (m : Map α) (d : α) : Bool :=
  rising none m.cells && m.cells.all fun p => decide (p.2 ≠ d)

end Map

end Sys2Proof.Machine
end

