-- ==== Sys2Proof/Machine/State.lean ====
section
/-! DEFINITION. Everything the spec gives the block to hold, as plain data: one structure per unit, then the block, then
the block with the queue of commands that wait. Every field has its reset value beside it; a value the spec does not
state is named in the log entry the docstring cites. -/

namespace Sys2Proof.Machine

/-! ### Register fabric and Turnstile (chapter 12) -/

/-- The header of a register page (R325). ENABLE resets to 1, everything else to 0. -/
structure PageHdr where
  enable : Bool := true
  apply : Bool := false
  level : Bool := false
  flags : BitVec 8 := 0
  clrStale : Bool := false
  err : Bool := false
  unlocked : Bool := false
  seq : BitVec 8 := 0
  errBits : BitVec 7 := 0
  errId : BitVec 5 := 0
  errOff : BitVec 14 := 0
  errWr : Bool := false
  crc : Word := 0
  even : BitVec 24 := 0
  deriving DecidableEq, Repr

/-- A held deferred write (R333): page, offset, the selection it was made under (ERW_VIF_SHARE: the owner), value. -/
structure Held where
  pg : Nat
  off : Nat
  sub : Nat := 0
  val : Word
  deriving DecidableEq, Repr

/-- A posted write on its way to a slow domain (R334), with the identity that made it; `defer` holds it there until the boundary, `old` counts it in
TRN_DRAIN.OLD (R339). -/
structure Posted where
  id : BitVec 5
  off : Nat
  al : Alias := .base
  val : Word
  defer : Bool
  old : Bool
  deriving DecidableEq, Repr

/-- One Turnstile region (R335, R344). -/
structure Rgn where
  first : BitVec 14 := 0
  count : BitVec 15 := 0
  wlo : BitVec 10 := 0
  whi : BitVec 10 := 0
  rmask : Word := 0
  wmask : Word := 0
  deriving DecidableEq, Repr

/-- One Turnstile log entry (TRN_LOG_INFO, TRN_LOG_GT). -/
structure TrnLog where
  gt : Gt := 0
  id : BitVec 5 := 0
  wr : Bool := false
  cause : BitVec 2 := 0
  tpn : BitVec 14 := 0
  word : BitVec 10 := 0
  deriving DecidableEq, Repr

/-- What a port answers: the error code and the data (Table 17-2). -/
structure PortRsp where
  err : Bool := false
  data : BitVec 64 := 0
  deriving DecidableEq, Repr

/-- What the access at the head of the register port waits for in the data plane (Table 1-5, R444): a grant at the bank of the event
whose mask it writes, at the ring descriptor table, at a context bank; or nothing. -/
inductive PortAsk where
  | none
  | mask (e : Event)
  | ring (r : RingNo)
  | bank (q : Nat)
  deriving DecidableEq, Repr

/-- The register fabric, the Turnstile and the GLB page (chapter 12). -/
structure Fabric where
  /-- Stored registers by 4,096 × page + offset; an unlisted one holds its reset value. -/
  regs : Map Word := .empty
  hdr : Map PageHdr := .empty
  held : List Held := []
  /-- SHARE and CREDIT by owner, as ERW_VIF_SHARE lays them out (R250, R251). -/
  share : Map Word := .empty
  posted : Map Posted := .empty
  rgn : Map Rgn := ⟨[(0, { count := 16384, whi := 1023, rmask := 0xB, wmask := 0xB })]⟩
  rgnHeld : List (Nat × Rgn) := []
  epoch : BitVec 16 := 0
  /-- An epoch's drain has not ended (R339). -/
  draining : Bool := false
  log : Map TrnLog := .empty
  logNext : BitVec 4 := 0
  instSet : Bool := false
  stopped : Bool := false
  /-- The last response on the register port. -/
  rsp : Option PortRsp := none
  /-- Accesses that have arrived and are not performed, each with whether it writes, first in, first out (R324); what the head waits
  for; mask writes that a boundary released and that wait at their banks (R333, R443). -/
  q : List (Access × Bool) := []
  ask : PortAsk := .none
  /-- The answer of the parts of the head that are performed; the part that waits was checked before the last epoch (R339). -/
  done : Option PortRsp := none
  askOld : Bool := false
  masks : List (Event × Bool) := []
  deriving DecidableEq, Repr

/-! ### Events on their way (chapters 2, 3, 5) -/

/-- The source by which order is kept (R28, R101): the source tag of a message, the line of a wired event, or the
event itself for a message-range re-entry, which has no tag (log 20). -/
inductive Source where
  | tag (t : BitVec 24)
  | line (n : BitVec 11)
  | self (e : Event)
  deriving DecidableEq, Repr

/-- What an EVA entry gives an event (Table 4-4). -/
structure EvaAttr where
  vevent : Event
  prio : Prio
  type : BitVec 3
  cls : BitVec 12
  owner : BitVec 13
  deriving DecidableEq, Repr

/-- A payload entry in use: a reassembly entry of a station (R103) or a payload entry of a Juwa port (R303), and how
many readers still need it (R106). `bad`: it met an uncorrectable error (Table 15-3). -/
structure Pay where
  bytes : List Byte
  readers : Nat
  bad : Bool := false
  deriving DecidableEq, Repr

/-- How an item came to a station's lookup. -/
inductive ItemKind where
  | message
  | wired
  | reentry
  deriving DecidableEq, Repr

/-- An event at a station before its admission (R101). `tok` names its write's response; `beats` is what it takes of
the intake FIFO; `pay` names its payload entry. -/
structure Item where
  kind : ItemKind
  src : Source
  tag : BitVec 24 := 0
  devevt : Event := 0
  page : BitVec 13 := 0
  off : BitVec 12 := 0
  pevent : Event := 0
  pay : Option Nat := none
  /-- Payload bytes written and not yet in a reassembly entry. -/
  bytes : List Byte := []
  plen : BitVec 6 := 0
  trunc : Bool := false
  beats : Nat := 0
  tok : Nat := 0
  deriving DecidableEq, Repr

/-- A resumed item (R104): with the attributes its fill gave it, or none when it is looked up again; `holds` says that
it has a miss entry. -/
structure Resumed where
  item : Item
  attr : Option EvaAttr
  holds : Bool
  deriving DecidableEq, Repr

/-- What a parked item waits for: a fill, or the earlier parked item of its source. -/
inductive ParkOn where
  | fill (a : SegAddr)
  | behind
  deriving DecidableEq, Repr

/-- A parked item (R101, R103). -/
structure Parked where
  item : Item
  on : ParkOn
  deriving DecidableEq, Repr

/-- Where a read of the block stands: waiting for a walk; with its first lines issued and `left` lines that each wait for a
cache-fill tracker (R35, R39); or issued whole. `dev`: the segment's CLASS when it was translated, the mark its requests carry
(R279). -/
inductive Phase where
  | walk
  | noTracker (pa : BitVec 64) (dev : Bool) (left : Nat)
  | issued (pa : BitVec 64) (dev : Bool) (shared : Bool)
  deriving DecidableEq, Repr

/-- A fill read (R104). `stale`: it is not installed (R109, R129); `dead`: nothing may attach to it any more. -/
structure Fill where
  addr : SegAddr
  phase : Phase
  stale : Bool := false
  dead : Bool := false
  deriving DecidableEq, Repr

/-- What a cached entry holds (R98, R99). -/
inductive CKey where
  | src (tag : BitVec 24) (devevt : Event)
  | eva (e : Event)
  deriving DecidableEq, Repr

/-- The value of a cached entry. -/
inductive CVal where
  | src (pevent : Event)
  | eva (a : EvaAttr)
  deriving DecidableEq, Repr

/-- One set of a source-route cache: 8 ways and the 7-bit pseudo-LRU tree (R99). -/
structure CSet where
  ways : Map (CKey × CVal) := .empty
  plru : BitVec 7 := 0
  deriving DecidableEq, Repr

/-- A response a station owes (R93): in the order of first beats; `code` is none until it is decided (0 OK, 1 ERR,
2 RETRY). -/
structure StnRsp where
  tok : Nat
  id : BitVec 12
  beats : Nat
  code : Option (BitVec 2)
  deriving DecidableEq, Repr

/-- A cache invalidation in progress (R109): the scope and argument as they were written. -/
structure InvOp where
  scope : BitVec 2
  arg : BitVec 64
  deriving DecidableEq, Repr

/-- A station (chapter 3). -/
structure Station where
  sets : Map CSet := .empty
  intake : List Item := []
  wired : Option Item := none
  reentry : List Item := []
  resumedMsg : List Resumed := []
  resumedWired : List Resumed := []
  parked : List Parked := []
  fills : List Fill := []
  refreshes : List Fill := []
  /-- Output queue to each bank, in the order in which the lookups completed (R83). -/
  outq : Map (List (Item × EvaAttr)) := .empty
  rsps : List StnRsp := []
  /-- The response last sent: identifier, code, beats. -/
  rspOut : Option (BitVec 12 × BitVec 2 × Nat) := none
  inv : Option InvOp := none
  invCount : BitVec 16 := 0
  lastTag : BitVec 24 := 0
  lastCause : BitVec 4 := 0
  lastPage : BitVec 13 := 0
  lastOff : BitVec 12 := 0
  /-- The set the refresh sweep visits next, and the GT of the last visit (log 21). -/
  sweepSet : BitVec 9 := 0
  sweepGt : Gt := 0
  deriving DecidableEq, Repr

/-- A line collector (R79 to R86). `sync` is the synchronised level before polarity. -/
structure Collector where
  sync : BitVec 128 := 0
  raise : BitVec 128 := 0
  scan : BitVec 7 := 0
  /-- Lines to be sampled after a deactivation (R54), oldest first. -/
  sample : List (BitVec 7) := []
  latch : BitVec 128 := 0
  /-- The part of the edge latch in PD0 and the copies of LC_EN and LC_POL there (R85). -/
  pd0 : BitVec 128 := 0
  pd0En : BitVec 128 := 0
  pd0Pol : BitVec 128 := 0
  /-- The latch captures: from the entry to Intermission until the collector has taken it over (R85, R86). -/
  latchOn : Bool := false
  /-- One of its latch bits was the first of all, and so a wake cause (R85, R112). -/
  woke : Bool := false
  /-- Intermission: the level PD0 last saw. -/
  pd0Level : BitVec 128 := 0
  deriving DecidableEq, Repr

/-- An admitted arrival (chapter 5). `tag24` is the SRC field of its records (R234); `recOnly` marks an arrival that
merged at the pending array and still writes its own record (R21). -/
structure Arrival where
  ev : Event
  attr : EvaAttr
  src : Source
  tag24 : BitVec 24 := 0
  pay : Option Nat := none
  plen : BitVec 6 := 0
  trunc : Bool := false
  gt : Gt
  recOnly : Bool := false
  deriving DecidableEq, Repr

/-- An arrival in flight in the pending array: merges it has taken (R24), whether one carried payload, the inserts of
it that have not left their queues, whether it still waits for a re-entry lookup, and payload arrivals that merged
meanwhile (R21); the GT of its grant (R238). -/
structure Flight where
  merge : BitVec 8 := 0
  gt : Gt := 0
  /-- The attributes its lookup gave it. -/
  attr : Option EvaAttr := none
  /-- Payload entries that no reader but its placement frees (R106). -/
  frees : List Nat := []
  payl : Bool := false
  left : Nat := 0
  looking : Bool := false
  /-- It waits for the restart scan to present it (R399). -/
  scan : Bool := false
  pays : List Arrival := []
  deriving DecidableEq, Repr

/-- The pending-array bits of an event (Table 2-2); the spare bit always reads 0. -/
structure Pend where
  p : Bool := false
  a : Bool := false
  m : Bool := false
  fl : Option Flight := none
  deriving DecidableEq, Repr

/-! ### Contexts (chapters 2, 5, 7) -/

/-- A waiting entry (Table 2-7). CLASS: 0 H, 1 G, 2 U. -/
structure Entry where
  pevent : Event
  prio : Prio
  payload : Bool := false
  banked : Bool := false
  cls : BitVec 2
  vevent : Event
  merge : BitVec 8 := 0
  ring : RingNo := 0
  ringValid : Bool := false
  deriving DecidableEq, Repr

/-- An activation (R72). -/
structure Act where
  pevent : Event
  vevent : Event
  prio : Prio
  banked : Bool
  dropped : Bool := false
  deriving DecidableEq, Repr

/-- A rank insert request. `flight` names the pending event it belongs to; `recTok` the record that waits for its
grant (R239); `userTag` and `urgent` serve class U (R158); `guard` is the owner a guest send requires of its target
(R273); `wakes` is false for 0x0_0905 itself (R161); `old`: VIF owners reset since the insert was made, while the owner of its
target was not known to the block (R260); `drain`: owners whose drain waits for it, if its target is theirs (R265). -/
structure Ins where
  ctx : CtxNo
  entry : Entry
  userTag : BitVec 16 := 0
  urgent : Bool := false
  flight : Option Event := none
  recTok : Option Nat := none
  guard : Option OwnerNo := none
  wakes : Bool := true
  old : List OwnerNo := []
  drain : List OwnerNo := []
  /-- Its grant makes the fault report at the head of the queue (R293). -/
  report : Bool := false
  deriving DecidableEq, Repr

/-- The owner and generation an operation of a VIF carries (R260), and the marks of a drain (R265) and a harvest (R270). -/
structure Tag where
  owner : OwnerNo := 0
  gen : BitVec 12 := 0
  drain : Bool := false
  harv : Bool := false
  deriving DecidableEq, Repr

/-- A refill in flight (R66): the bucket whose read waits for a walk or is issued. -/
structure Refill where
  prio : Prio
  phase : Phase
  tag : Tag
  /-- Descriptors of the buckets it has taken entries from, written at its end (log 13). -/
  descs : List (Prio × List Byte) := []
  deriving DecidableEq, Repr

/-- Where an armed timer is held (R191, R196). -/
inductive TimerLoc where
  | none
  | bucket (key : Nat)
  | far (key : Nat)
  | fine
  deriving DecidableEq, Repr

/-- The on-die record of a resident context (R61, R66, R72, R77, R195, Table 5-1). -/
structure Ctx where
  slot : BitVec 12 := 0
  owner : OwnerNo := 0
  wakeCtx : CtxNo := 0
  wakeRing : RingNo := 0
  wakeRingV : Bool := false
  /-- Made by a BUILD (R141): no wake target, no spill area. -/
  basic : Bool := false
  spillSeg : BitVec 6 := 0
  spillPage : BitVec 36 := 0
  shortlist : List Entry := []
  spillMap : BitVec 64 := 0
  refill : Option Refill := none
  /-- A refill's loop stands still while a push of the context is carried out; it goes on afterwards (R65, R66). -/
  refillOn : Bool := false
  stack : List Act := []
  runp : BitVec 7 := 64
  gate : BitVec 7 := 64
  pgran : BitVec 3 := 0
  joined : Bool := true
  ackTimeout : BitVec 16 := 100
  /-- STATUS: 0 NEST_OVF, 1 EOI_EMPTY, 2 EOI_MISMATCH, 3 DEACT_NONE, 4 SPILL_OVF, 5 SPILL_BAD. -/
  flags : BitVec 6 := 0
  utag : BitVec 16 := 0
  tdl : Gt := 0
  tdlHi : Word := 0
  tprio : Prio := 0
  tclass : Bool := false
  tarm : Bool := false
  loc : TimerLoc := .none
  /-- The seat it occupies: 2 × thread + (0 HS, 1 GS). -/
  seat : Option Nat := none
  pinned : Bool := false
  /-- In a trapeze handoff (R226). -/
  moving : Bool := false
  /-- GT of its last notification (R166), a re-notification not counted, and of what its thread was last sent (R77). -/
  lastNote : Option Gt := none
  lastSent : Option Gt := none
  /-- A change is to be re-evaluated (R63). -/
  dirty : Bool := false
  deriving DecidableEq, Repr

/-- A push of the residency and spill engine (R163): the entry read of a context that is not resident, then the
descriptor read, then the two writes. -/
inductive SpillPh where
  | queued
  | entryRead (ph : Phase)
  | descRead (ph : Phase)
  | written (left : Nat)
  deriving DecidableEq, Repr

/-- A queued push. `known`: segment, page, owner of the spill area; none until the table entry is read. `ins` is the
insert it stems from. -/
structure Spill where
  ctx : CtxNo
  entry : Entry
  front : Bool := false
  ins : Option Ins := none
  known : Option (BitVec 6 × BitVec 36 × OwnerNo) := none
  ph : SpillPh := .queued
  tag : Tag := {}
  deriving DecidableEq, Repr

/-- An operation in the intake of requester 16 or 17 of a context bank (R444): an insert, the thread operation at the head of a
thread's upstream queue, the access at the head of the register port, or a re-notification check. -/
inductive BankOp where
  | ins (i : Ins)
  | thread (t : ThreadNo)
  | port
  | check (c : CtxNo)
  deriving DecidableEq, Repr

/-- A context bank (R16, R444): the intake of requester 16, of requester 17, the residency queue, the spill engine, the
wake filter; seats whose delivery request waits, in the order in which they were asked for (R207). -/
structure CBank where
  in16 : List BankOp := []
  car17 : List BankOp := []
  notes : List Nat := []
  resq : List Ins := []
  spills : List Spill := []
  filter : Map (BitVec 4) := .empty
  deriving DecidableEq, Repr

/-- Inserts held during a trapeze handoff (R226): the source (route engine 0 to 15, 16 thread interface, 17 Carousel). -/
structure HeldIns where
  src : Nat
  ins : Ins
  deriving DecidableEq, Repr

/-! ### Route engines, Juwa frames -/

/-- A record of a ring (Tables 8-1 to 8-3). -/
structure Rec where
  vevent : Event
  prio : Prio
  pf : Bool := false
  merged : Bool := false
  type : BitVec 4
  w1 : Word := 0
  gt : Gt := 0
  pay : Option Nat := none
  deriving DecidableEq, Repr

/-- A record request on its way to a writer's staging: `tok` while it waits for an insert's grant (R239); `tag`: the mark of a drain
of its ring's owner (R265). -/
structure RecReq where
  ring : RingNo
  rcd : Rec
  tok : Option Nat := none
  /-- RING_ONLY and empty any-of: the event is placed when the record is handed over (Table 5-2). -/
  places : Option Event := none
  tag : Tag := {}
  deriving DecidableEq, Repr

/-- An EVENT frame (Table 11-2). -/
structure Frame where
  vc : Bool := false
  pin : Bool := false
  dest : BitVec 16
  origin : BitVec 16
  oeng : BitVec 4
  hops : BitVec 4
  revent : Event
  merge : BitVec 8 := 0
  plen : BitVec 6 := 0
  trunc : Bool := false
  bytes : List Byte := []
  deriving DecidableEq, Repr

/-- A frame in a lane (R305): its origin event and payload entry when it was routed here, the DCLK cycle in which it
became the head, the DCLK cycles it has lacked VC0 credit as the head since, and whether it has escaped (R308). -/
structure LaneFrame where
  fr : Frame
  local? : Option Event := none
  pay : Option Nat := none
  since : Nat := 0
  dry : Nat := 0
  escaped : Bool := false
  tag : Tag := {}
  deriving DecidableEq, Repr

/-- The three lanes of an engine towards one port (R305): VC0 of 4, pinned of 4, VC1 of 1. -/
structure Lanes where
  vc0 : List LaneFrame := []
  pin : List LaneFrame := []
  vc1 : List LaneFrame := []
  deriving DecidableEq, Repr

/-- A decoded route class (Table 4-5); all zeros is the discard class. -/
structure Rte where
  kind : BitVec 3 := 0
  dclass : BitVec 2 := 0
  urgent : Bool := false
  pin : Bool := false
  target : CtxNo := 0
  userTag : BitVec 16 := 0
  set : BitVec 10 := 0
  group : BitVec 8 := 0
  inst : BitVec 16 := 0
  revent : Event := 0
  ring : RingNo := 0
  ringValid : Bool := false
  coalWindow : BitVec 16 := 0
  coalCount : BitVec 8 := 0
  bypPrio : Prio := 0
  bypEn : Bool := false
  deriving DecidableEq, Repr

/-- An arrival of the multicast queue (R151): one whose set is read, or one that joined behind its source. -/
structure McItem where
  arr : Arrival
  rte : Rte
  /-- The multicast section of the bank under which its class was read (R26, R129). -/
  mcs : SegAddr := ⟨0, 0⟩
  /-- Where its set read stands; none: nothing to read (not MULTICAST), or not started. -/
  phase : Option Phase := none
  /-- Lines of the set asked for at once, lines that have answered, and how many it takes in all once its first line has shown
  COUNT (R154). -/
  lines : Nat := 1
  got : Nat := 0
  need : Nat := 1
  /-- Its record's token (R239). -/
  recTok : Option Nat := none
  /-- Members of its set whose inserts have not been issued, once the set is read (R154). -/
  members : Option (List CtxNo) := none
  deriving DecidableEq, Repr

/-- A route engine (R150 to R157). -/
structure Engine where
  inq : List Arrival := []
  insq : Map (List Ins) := .empty
  mcq : List McItem := []
  recq : Map (List RecReq) := .empty
  lanes : Map Lanes := .empty
  /-- The slot ledger's debt: slots of work not yet charged (R414), and the shadow counts (R415). -/
  replay : BitVec 8 := 0
  prefetch : BitVec 8 := 0
  deriving DecidableEq, Repr

/-- A Juwa port (chapter 11). -/
structure JPort where
  up : Bool := false
  peerAsleep : Bool := false
  cred0 : BitVec 8 := 0
  cred1 : BitVec 7 := 0
  peer : BitVec 16 := 0
  peerValid : Bool := false
  /-- Forward trackers, oldest first: the VC each is tagged with, and what its frame carries. -/
  trk : List (Bool × Tag) := []
  rx0 : List Frame := []
  rx1 : List Frame := []
  ret0 : Nat := 0
  ret1 : Nat := 0
  /-- The DCLK cycle in which the oldest unreturned credit was freed. -/
  retSince : Nat := 0
  theta : Word := 0
  delay : Word := 0
  /-- The licensee's link reports ready; a HELLO has been sent, and received, since then (R310). -/
  ready : Bool := false
  helloSent : Bool := false
  helloGot : Bool := false
  /-- Control frames and a TIME frame that wait for the transmit port (Table 1-5). -/
  ctl : List (BitVec 4) := []
  time : Bool := false
  /-- The last TIME frame received: its TX and the GT at its arrival. -/
  echo : Option (Gt × Gt) := none
  sleepSent : Bool := false
  ackGot : Bool := false
  lastHello : Nat := 0
  lastWake : Gt := 0
  /-- The last frame sent: its beats. -/
  txOut : List (BitVec 128) := []
  deriving DecidableEq, Repr

/-! ### Delivery (chapter 7) -/

/-- A line of a thread. -/
inductive Line where
  | H
  | G
  | U
  deriving DecidableEq, Repr

/-- A request of a context bank at a delivery port, for a seat. -/
inductive SeatReq where
  | notify (line : Line) (prio : Prio) (again : Bool)
  | withdraw
  deriving DecidableEq, Repr

/-- A seat (R204, R209): block side, then slice side. -/
structure Seat where
  ctx : Option CtxNo := none
  nnum : BitVec 4 := 0
  /-- A notification is outstanding (R209). -/
  out : Bool := false
  req : Option (SeatReq × BitVec 4) := none
  covered : BitVec 4 := 0
  /-- The line the slice asserts for the seat and the NNUM of the NOTIFY that asserted it; the ns until which a re-notification
  holds it de-asserted (R210). -/
  line : Option (Line × BitVec 4) := none
  low : Nat := 0
  /-- Block side: the line that the slice last confirmed for the seat, with its NNUM (LINES.HGU). -/
  conf : Option (Line × BitVec 4) := none
  deriving DecidableEq, Repr

/-- A message of the notification channel (Table 7-2). -/
inductive SliceMsg where
  | notify (gs : Bool) (line : Line) (nnum : BitVec 4) (prio : Prio)
  | withdraw (gs : Bool) (nnum : BitVec 4)
  deriving DecidableEq, Repr

/-- A thread operation (R217): what it does, with its write data. -/
inductive TifAct where
  | ack
  | eoi (d : Word)
  | deact (d : Word)
  | gate (d : Word)
  | ctl (d : Word)
  | statusClr (d : Word)
  | utag (d : Word)
  | ipi (d : Word)
  | tdlLo (d : Word)
  | tdlHi (d : Word)
  | timer (d : Word)
  | read (off : Nat)
  deriving DecidableEq, Repr

/-- An operation of a thread on its way up the slice link (OP of Table 7-2), with its transaction tag. -/
structure UpOp where
  op : TifOp
  act : TifAct
  tag : BitVec 3 := 0
  deriving DecidableEq, Repr

/-- A message of the upstream channel (Table 7-2): CONFIRM with seat, NNUM and DROPPED, or OP. -/
inductive UpMsg where
  | confirm (gs : Bool) (nnum : BitVec 4) (dropped : Bool)
  | op (o : UpOp)
  deriving DecidableEq, Repr

/-- A message of the response channel (RESP of Table 7-2): tag, ERR, data; for an ACK its seat and COVERED. `hi`: it answers the
upper half of a 64-bit access. -/
structure Resp where
  tag : BitVec 3
  err : Bool := false
  data : Word
  hi : Bool := false
  ack : Option (Bool × Option (BitVec 4)) := none
  deriving DecidableEq, Repr

/-- A thread (R207 to R212): tracker and the message that holds it; the three channels of the slice link; the lane's upstream queue
of 8 operations, operations of the core that wait for room in it, operations that have reached the block, the first of which waits
at a context bank; seats with an ACK under way; the next transaction tag; the last response to the core. -/
structure Thread where
  trk : Bool := false
  /-- What the operation that holds the tracker carries. -/
  tag : Tag := {}
  sent : Option SliceMsg := none
  notifCh : List SliceMsg := []
  respCh : List Resp := []
  up : List UpMsg := []
  upq : List UpOp := []
  held : List UpOp := []
  ops : List UpOp := []
  asked : Option Nat := none
  acks : List Bool := []
  nextTag : BitVec 3 := 0
  coreRsp : Option PortRsp := none
  /-- A 64-bit access (R216): the answer so far and the parts not answered yet. -/
  wide : Option (PortRsp × Nat) := none
  deriving DecidableEq, Repr

/-- A residency command in progress or ended (R222): BUSY, RESULT, CTX; a MOVE's target seat, and its old seat while the
WITHDRAW of that seat is not confirmed (R226). -/
structure CsgCmd where
  busy : Bool := false
  target : Option Nat := none
  old : Option Nat := none
  result : BitVec 4 := 0
  ctx : CtxNo := 0
  deriving DecidableEq, Repr

/-- Where a LOAD stands (R223): before its entry read, which waits for an earlier write-back of the context (R66), at that
read, while its slot is being freed, at the 64 descriptor reads, or at the inserts that the residency queue held for it. -/
inductive LoadPh where
  | start
  | entry (ph : Phase)
  /-- The slot it will have is being freed by an eviction (R223 step 2). -/
  | slot
  | descs
  | inserts
  deriving DecidableEq, Repr

/-- A LOAD in progress: its page, seat argument (2 × thread + seat), the table entry once read, the next descriptor to be read,
those in flight (at most 16), and those whose read could not be made. `reload`: a reload after Intermission, with the explicit pin (R362). -/
structure LoadOp where
  page : Nat
  seat : Option Nat
  ph : LoadPh
  entry : List Byte := []
  slot : BitVec 12 := 0
  next : Nat := 0
  descs : List (Nat × Phase) := []
  bad : List Nat := []
  /-- Descriptors read so far. -/
  got : List (Nat × MemResp) := []
  tag : Tag := {}
  reload : Option Bool := none
  deriving DecidableEq, Repr

/-- Why a record leaves its bank: an UNLOAD of a CSG page, an eviction for a LOAD, the entry to Intermission. -/
inductive LeaveFor where
  | unload (g : Nat)
  | evict (by_ : CtxNo)
  | sleep
  deriving DecidableEq, Repr

/-- A record that leaves (R167, R224): its shortlist is being pushed; then WB is written and the slot is free. -/
structure Leave where
  x : Ctx
  why : LeaveFor
  deriving DecidableEq, Repr

/-! ### Rings (chapter 8) -/

/-- The live descriptor of a ring (Table 8-6), and its index write in flight. -/
structure Ring where
  pi : Word := 0
  pub : Word := 0
  ci : Word := 0
  ovf : Word := 0
  epDrops : Word := 0
  epGt : Gt := 0
  faulted : Bool := false
  ovfEp : Bool := false
  tgtPend : Bool := false
  tgtDelta : BitVec 21 := 0
  /-- The GT of the flush that set the target (R243). -/
  tgtGt : Gt := 0
  deriving DecidableEq, Repr

/-- Where a staged record stands: not admitted, allocated at an index, its write waiting for a walk, translated (with the mark
of its segment's CLASS), issued. -/
inductive RecPh where
  | queued
  | staged
  | walk
  | ready (pa : BitVec 64) (dev : Bool)
  | issued
  deriving DecidableEq, Repr

/-- A record in a writer's staging (R240, R242). `trk`: it holds a tracker (PAD and RESUME hold none of their own);
`own`: one of the block's own records, whose loss the raising rule counts. -/
structure Staged where
  ring : RingNo
  owner : OwnerNo
  rcd : Rec
  tok : Option Nat := none
  idx : Word := 0
  ph : RecPh := .queued
  /-- Its place in its owner's queue, once admitted (R250). -/
  seq : Nat := 0
  trk : Bool := true
  flt : Bool := false
  ras : Bool := false
  tag : Tag := {}
  deriving DecidableEq, Repr

/-- A write on a ring-writer memory port that memory has not accepted (R429). -/
inductive WKind where
  | records (r : RingNo) (n : Nat)
  | index (r : RingNo) (pub : Word)
  | spill (c : CtxNo)
  | wb (c : CtxNo)
  | log (ch : BitVec 6)
  /-- The save area: a ring's descriptor, or the j-th line of context entries (R357). -/
  | saveRing (r : RingNo)
  | saveCtx (j : Nat)
  deriving DecidableEq, Repr

/-- One write: address, bytes from its first byte on, device mark (R279), tag. -/
structure MemWrite where
  kind : WKind
  pa : BitVec 64
  bytes : List Byte
  dev : Bool
  tag : Tag
  deriving DecidableEq, Repr

/-- Writes to one page of memory for a context that wait for their translation (R167, R224, R163): a write-back, or an
entry and its descriptor; each with its offset in the page of `off`, the offset of the first. `full`: the bucket's back entry
gives way to them (R71). -/
structure WbReq where
  kind : WKind
  ctx : CtxNo
  seg : BitVec 6
  off : BitVec 64
  writes : List (Nat × List Byte)
  full : Bool := false
  tag : Tag
  deriving DecidableEq, Repr

/-- A write of requester 1 or 2 that waits for the grant of a writer's memory port, with the segment it was translated in. -/
structure PortWrite where
  req : Nat
  m : MemWrite
  seg : BitVec 6
  deriving DecidableEq, Repr

/-- An index write on its way (R243): its ring's owner, its place in the owner's queue, its address and device mark once known. -/
structure IdxWait where
  ring : RingNo
  owner : OwnerNo
  seq : Nat
  pa : Option (BitVec 64 × Bool) := none
  deriving DecidableEq, Repr

/-- A ring writer (R240 to R251): staging in order of intake, writes granted and not accepted, writes that wait for the port's
grant, write-backs being translated, index writes not granted, port tokens and owner tokens in 1/8 byte (R249, R250). -/
structure Writer where
  recs : List Staged := []
  out : List MemWrite := []
  ready : List PortWrite := []
  wbq : List WbReq := []
  idxWait : List IdxWait := []
  tokens : Nat := 1024
  ownTok : Map Nat := .empty
  deriving DecidableEq, Repr

/-- A coalescing window (R192): latched parameters, deadline, key, count, best. -/
structure Window where
  window : BitVec 16
  count : BitVec 8
  bypPrio : Prio
  bypEn : Bool
  deadline : Gt
  key : Nat
  far : Bool
  n : Nat
  best : Prio
  deriving DecidableEq, Repr

/-! ### The Last (chapter 4) -/

/-- A copied INR entry (Table 4-6). -/
structure InrEnt where
  port : BitVec 2 := 0
  below : Bool := false
  valid : Bool := false
  deriving DecidableEq, Repr

/-- The compiled fields of a ring (Table 4-7). -/
structure RingCfg where
  base : BitVec 36 := 0
  order : BitVec 5 := 0
  user : Bool := false
  seg : BitVec 6 := 0
  owner : OwnerNo := 0
  link : BitVec 12 := 0
  deriving DecidableEq, Repr

/-- The BASIC registers as a BUILD took them (R140). -/
structure BasicImg where
  ctl : Word := 0
  msg : Word := 0x003F0000
  coal : Word := 0
  ring0 : Word := 0
  ring0Lo : Word := 0
  ring0Hi : Word := 0
  lc : List Word := List.replicate 16 0x03F00000
  deriving DecidableEq, Repr

/-- One bank of the route-class store and the ring compiled store (R34, R117). SLOT entries not listed hold 0xFF. -/
structure Bank where
  basic : Option BasicImg := none
  version : Word := 0
  inst : BitVec 16 := 0
  pinCount : BitVec 16 := 0
  srcOrder : BitVec 5 := 0
  srcBase : SegAddr := ⟨0, 0⟩
  evaBase : SegAddr := ⟨0, 0⟩
  mcsBase : SegAddr := ⟨0, 0⟩
  rte : Map Rte := .empty
  slot : Map Byte := .empty
  inrGroup : Map InrEnt := .empty
  inrMember : Map InrEnt := .empty
  portEn : BitVec 4 := 0
  portDown : BitVec 4 := 0
  ring : Map RingCfg := .empty
  deriving DecidableEq, Repr

/-- The activity of the image state machine (LAST_STAT.ACTIVITY). -/
inductive Activity where
  | idle
  | pass1
  | pass2
  | commitPend
  | rollbackPend
  deriving DecidableEq, Repr

/-- The state of the inactive bank (LAST_STAT.INACTIVE). -/
inductive Inactive where
  | empty
  | staged
  | previous
  deriving DecidableEq, Repr

/-- A load in progress: the image's place, sampled at LOAD, and the partial CRC of pass 1 with the image's TOTAL_LEN
(R127); `build` marks the pass of a BUILD, `rm` a load of the Ringmaster (R384). -/
structure Load where
  addr : SegAddr := ⟨0, 0⟩
  /-- Lines of the pass that have been read, where the reads of the next ones stand, and how many of them are asked for at once
  (R127). -/
  pos : Nat := 0
  phase : Option Phase := none
  window : Nat := 1
  /-- What memory answers to the pass's reads, once it has answered (LOAD_PASS1_DONE, LOAD_PASS2_DONE). -/
  data : Option ImgRead := none
  partCrc : Word := 0
  pass1 : List (Nat × Byte) := []
  build : Bool := false
  rm : Bool := false
  deriving DecidableEq, Repr

/-- The Last (R128 to R145). -/
structure Last where
  /-- Bank A holds the basic image of the reset values (R143). -/
  a : Bank := { basic := some {} }
  b : Bank := {}
  /-- true: bank B is active. -/
  active : Bool := false
  inactive : Inactive := .empty
  activity : Activity := .idle
  settled : Bool := true
  reason : BitVec 5 := 0
  cmdErr : BitVec 3 := 0
  verA : Word := 0
  verB : Word := 0
  prog : Word := 0
  errOff : Word := 0
  errArg : BitVec 16 := 0
  swGt : Gt := 0
  refValid : Bool := false
  crcCur : Word := 0
  sweepSeq : BitVec 16 := 0
  load : Load := {}
  /-- Between cycle B and cycle S of a switch (R129). -/
  paused : Bool := false
  /-- Changed rings that have not settled, with their old compiled fields (R131). -/
  changed : Map RingCfg := .empty
  deriving DecidableEq, Repr

/-! ### Time and the Carousel (chapter 6) -/

/-- The time unit (R173 to R183). The fraction is in units of 2^-48 ns. -/
structure TimeUnit where
  ns : Gt := 0
  frac : BitVec 48 := 0
  /-- FREQ_ADJ as applied. -/
  adj : BitVec 40 := 0
  valid : Bool := false
  holdover : Bool := false
  noref : Bool := false
  onBkp : Bool := false
  gtStopped : Bool := false
  /-- GT has started: the TPLL has driven it, or XA on backup (Table 15-1, R180). -/
  runs : Bool := false
  ppsCap : Gt := 0
  ppsCnt : Word := 0
  /-- MON_OUT carries a tick pulse until this nanosecond of the model's count (R183). -/
  tickEnd : Option Nat := none
  /-- FOLLOW: revolutions in a row with valid frames, without frames, whether one came in this revolution; HOLDOVER stems from missing
  frames alone; the integral in 2^-16 ns; what each TPLL cycle removes in 2^-48 ns and for how many cycles more (R181, R314). -/
  goodRevs : Nat := 0
  badRevs : Nat := 0
  gotFrame : Bool := false
  silent : Bool := false
  integ : Int := 0
  remove : Int := 0
  removeLeft : Nat := 0
  deriving DecidableEq, Repr

/-- The Carousel (R184 to R198). -/
structure Carousel where
  cur : BitVec 13 := 250
  pend : Bool := false
  /-- The GT at which a scheduled period is taken (R186). -/
  takeAt : Gt := 0
  /-- Slot number of the last processed boundary. -/
  n : Nat := 0
  stepped : Bool := false
  incomplete : Bool := false
  slots : Map Word := .empty
  shadow : Map Word := .empty
  windows : Map Window := .empty
  /-- An overrun bucket (R191): the DCLK cycle of the boundary that found it unfinished, and the GT at which its slot began. -/
  lagAt : Option (Nat × Nat) := none
  deriving DecidableEq, Repr

/-! ### VIFs (chapter 9) -/

/-- The state of a VIF (Table 9-2). -/
inductive VifState where
  | free
  | active
  | resetting
  | releasing
  deriving DecidableEq, Repr

/-- A VIF table entry (Table 9-2), VIF_CIERR, VIF_QUIESCE.DONE, the purge and the drain in progress. -/
structure Vif where
  state : VifState := .free
  gen : BitVec 12 := 0
  ctxBase : BitVec 16 := 0
  ctxCount : BitVec 13 := 0
  ringBase : BitVec 14 := 0
  ringCount : BitVec 5 := 0
  noteCtx : CtxNo := 0
  notePrio : Prio := 0
  noteEn : Bool := false
  cause : BitVec 8 := 0
  msg : BitVec 16 := 0
  dlEn : Bool := false
  dlCh : BitVec 6 := 0
  ciErr : BitVec 16 := 0
  done : Bool := true
  /-- The purge has not ended (R260). -/
  purging : Bool := false
  /-- Contexts to be purged when their commands end. -/
  due : List CtxNo := []
  marked : List RingNo := []
  draining : Bool := false
  /-- Rings a drain flushed, with the publication target each flush set. -/
  drainRings : List (RingNo × Word) := []
  deriving DecidableEq, Repr

/-- A dirty-log channel (R268 to R271): its configuration registers, and what DIRTY_START bound. -/
structure DlCh where
  cfg : Word := 0x900
  baseLo : Word := 0
  baseHi : Word := 0
  threshReg : Word := 0
  inUse : Bool := false
  vif : BitVec 12 := 0
  seg : BitVec 6 := 0
  order : BitVec 5 := 9
  base : BitVec 48 := 0
  thresh : BitVec 21 := 0
  pi : Word := 0
  ci : Word := 0
  snap : Word := 0
  ovf : Bool := false
  harvest : Bool := false
  stopping : Bool := false
  deriving DecidableEq, Repr

/-- The VMGR page's engine (R259) and the dirty filter: per set, the latest installed first (R270). -/
structure Vmgr where
  busy : Bool := false
  op : BitVec 4 := 0
  vif : BitVec 12 := 0
  result : BitVec 4 := 0
  ch : Map DlCh := .empty
  filter : Map (List (BitVec 12 × BitVec 6 × BitVec 52)) := .empty
  deriving DecidableEq, Repr

/-! ### Translation (chapter 10) -/

/-- A segment descriptor (Table 10-1). -/
structure Segm where
  valid : Bool := false
  dev : Bool := false
  base : BitVec 36 := 0
  limit : BitVec 36 := 0
  root : BitVec 52 := 0
  deriving DecidableEq, Repr

/-- What a translation continues as. -/
inductive Cont where
  | fill (k : Nat) (a : SegAddr)
  | refresh (k : Nat) (a : SegAddr)
  | mcs (n : Nat)
  | loader
  /-- A read of FW_STAGE's candidate (R382). -/
  | fw
  | ring (w : Nat) (r : RingNo)
  | index (w : Nat) (r : RingNo)
  | spillDesc (c : CtxNo)
  | refill (c : CtxNo)
  | spillEntry (c : CtxNo)
  | loadEntry (c : CtxNo)
  | loadDesc (c : CtxNo) (j : Nat)
  | wb (w : Nat)
  /-- Writes of the save area by writer w, and its reads at a wake: the l-th line of ring descriptors, the j-th line of context
  entries (R357, R362). -/
  | save (w : Nat)
  | ringBack (l : Nat)
  | ctxBack (j : Nat)
  | log (w : Nat) (ch : BitVec 6) (entry : BitVec 64)
  | prefetch
  /-- An operation of an old generation that a purge removed (Table 9-5). -/
  | stale
  deriving DecidableEq, Repr

/-- A read has been issued whole. -/
def Phase.isIssued : Phase → Bool
  | .issued _ _ _ => true
  | _ => false

/-- A translation asked for (R278, R292). -/
structure XReq where
  seg : BitVec 6
  off : BitVec 64
  op : BitVec 4
  user : Bool := false
  owner : OwnerNo := 0
  obj : BitVec 16 := 0
  cont : Cont
  tag : Tag := {}
  deriving DecidableEq, Repr

/-- A TLB entry (R283). -/
structure TlbEnt where
  seg : BitVec 6
  vpn : BitVec 36
  ppn : BitVec 52
  r : Bool
  w : Bool
  u : Bool
  s : Bool
  dev : Bool
  /-- Installed by a prefetch walk and not used since (R415). -/
  unused : Bool := false
  deriving DecidableEq, Repr

/-- A walker in use (R284, R286). -/
structure Walker where
  seg : BitVec 6
  va : BitVec 48
  level : BitVec 3
  table : BitVec 52
  dev : Bool
  noInstall : Bool := false
  waiting : List XReq
  deriving DecidableEq, Repr

/-- Accesses that hold a translation and are not issued (R289): reads that wait for a tracker, ring records and index writes that wait
for tokens or the port, writes of requesters 1 and 2 that wait for the port. -/
structure XuHeld where
  reads : List Cont := []
  recs : List (RingNo × Word) := []
  idx : List (RingNo × Nat) := []
  writes : List MemWrite := []
  deriving DecidableEq, Repr

/-- A TLB invalidation in progress (R289): the walkers in flight at its grant, and the accesses that took a removed translation and
have not been issued. -/
structure XuInv where
  walks : List Nat
  held : XuHeld
  deriving DecidableEq, Repr

/-- A fault report (R292). -/
structure Report where
  gt : Gt
  seg : BitVec 6
  off : BitVec 48
  cause : BitVec 4
  op : BitVec 4
  owner : OwnerNo
  level : BitVec 3
  obj : BitVec 16
  deriving DecidableEq, Repr

/-- An empty fault log slot. -/
def Report.empty : Report := ⟨0, 0, 0, 0, 0, 0, 0, 0⟩

/-- The translation unit (chapter 10). A TLB set lists its entries most recently used first. -/
structure Xlate where
  segs : Map Segm := .empty
  tlb : Map (List TlbEnt) := .empty
  walkers : Map Walker := .empty
  waitq : List XReq := []
  inv : Option XuInv := none
  /-- Reads that wait for a cache-fill tracker, oldest first (R35), and the set reads granted to requester 9 of the cache-fill
  port since its last loader read (R127). -/
  trkWait : List Cont := []
  setGrants : Nat := 0
  /-- Reads that were issued and whose operation is gone, with their lines: their data is discarded (Table 9-5, R400). -/
  orphans : List (Cont × Tag × Nat) := []
  invCount : BitVec 16 := 0
  flog : Map Report := .empty
  flogNext : BitVec 6 := 0
  reports : List Report := []
  deriving DecidableEq, Repr

/-! ### Clocks, power, Ringmaster, RAS, PMU (chapters 13 to 16) -/

/-- Where the block stands between reset, running and Intermission (Tables 13-8, 15-1). -/
inductive Stage where
  /-- Held in reset (R392). -/
  | held
  /-- SIO runs and is not judged yet. -/
  | sio
  /-- FIO is enabled and not usable yet. -/
  | fio
  /-- The crystals are checked; the register port serves the pages of PD1 to PD4. -/
  | check
  /-- A crystal has passed, or none can: the PLLs lock. -/
  | lock
  /-- PD5 to PD31 are switched on and their arrays initialised. -/
  | arrays
  | run
  /-- Steps 1 to 6 of the entry to Intermission (R357). -/
  | entry
  | asleep
  /-- A wake before its 5.0 µs step. -/
  | waking
  /-- A wake from its 5.0 µs step to the opening of the stations. -/
  | opening
  /-- A warm reset waits for its drain (R398). -/
  | drain
  /-- The 4,096 cycles of a data-plane restart (R399). -/
  | restart
  /-- PD0 and PD1 run from VBKP (R364). -/
  | backup
  /-- PD5 to PD31 are held in reset until DP_PGOOD returns (R396). -/
  | dpOff
  /-- SCAN_MODE is asserted (R441). -/
  | scan
  deriving DecidableEq, Repr

/-- The check of one crystal (R347): consecutive passes, the count of the previous window if it passed, C_ref. -/
structure XCheck where
  checked : Bool := false
  passes : Nat := 0
  prev : Option Nat := none
  cref : Nat := 0
  meas : BitVec 20 := 0
  deriving DecidableEq, Repr

/-- A lock delay (R346): the ns at which it ends, and its length, for a start anew. -/
structure Delay where
  due : Nat := 0
  len : Nat := 0
  deriving DecidableEq, Repr

/-- Clocks (R345 to R354): what CPC_SRCSTAT and CPC_STAT show, the checks, the DPLL's frequency and slew. -/
structure Clk where
  /-- The ns at which SIO's or FIO's judgement by delay ends, and at which the crystal checks started (R345, R394). -/
  judged : Nat := 0
  checkAt : Nat := 0
  /-- The lock delays of DPLL, MPLL and TPLL. -/
  delayD : Delay := {}
  delayM : Delay := {}
  delayT : Delay := {}
  /-- SIO, FIO, XA, XB, DPLL, MPLL, TPLL toggle (R352). Log 30. -/
  present : BitVec 7 := 0
  xa : XCheck := {}
  xb : XCheck := {}
  lockD : Bool := false
  lockM : Bool := false
  lockT : Bool := false
  refUsed : Bool := false
  tRefUsed : Bool := false
  dclkUsed : Bool := false
  mclkUsed : Bool := true
  chkStopped : Bool := false
  coast : Bool := false
  noref : Bool := false
  slewing : Bool := false
  /-- The crystal that the PLLs used has tripped, and they have not relocked since (R349). -/
  tripped : Bool := false
  dpllBad : Bool := false
  fioBad : Bool := false
  /-- The DPLL's frequency in MHz; 0 before it starts. -/
  mhz : BitVec 11 := 0
  /-- A PLL's lock delay runs. -/
  locking : Bool := false
  tLocking : Bool := false
  /-- The multiplexer that hangs, and since which ns. -/
  hung : Option Mux := none
  hungAt : Nat := 0
  hungMux : BitVec 2 := 0
  /-- Units whose clock has been stopped, by kind and index; and the last DCLK cycle in which a unit had work (R354). -/
  gated : List (GateUnit × Fin 16) := []
  busyAt : Map Nat := .empty
  /-- Clock observation: SEL and DIV_M1 in force, and the end of the current output period in ps (R353). -/
  mon : BitVec 3 × BitVec 16 := (0, 0)
  monEnd : Nat := 0
  /-- GT as the data plane sampled it at the last DCLK edge (R32). -/
  gt : Gt := 0
  /-- DCLK cycles and nanoseconds since reset: the model's own counts (log 4). -/
  dclk : Nat := 0
  dclkPart : Nat := 0
  ns : Nat := 0
  deriving DecidableEq, Repr

/-- The configuration snapshot (R357 step 6). -/
structure Snap where
  regs : Map Word
  hdr : Map PageHdr
  held : List Held
  rgn : Map Rgn
  segs : Map Segm
  deriving DecidableEq, Repr

/-- A context entry of the save area (R357 step 3). -/
structure SaveCtx where
  ctx : CtxNo
  pin : Bool
  deriving DecidableEq, Repr

/-- A write of the save area that waits for its address (R357): what it is, its offset there, its bytes. -/
structure SaveWrite where
  kind : WKind
  off : Nat
  bytes : List Byte
  deriving DecidableEq, Repr

/-- Power (R355 to R369). -/
structure Pwr where
  stage : Stage := .held
  busy : Bool := false
  result : BitVec 4 := 0
  cause : BitVec 5 := 0
  ringsRestored : Bool := false
  reloaded : Bool := false
  wakeNs : Word := 0
  entryNs : Word := 0
  dom : Word := 3
  ret : Bool := false
  onBkp : Bool := false
  aonGood : Bool := true
  snap : Option Snap := none
  /-- The wake deadline (R198) and the GTs of SLEEP's acceptance and of the wake cause. -/
  wakeAt : Option Gt := none
  sleepGt : Gt := 0
  causeGt : Gt := 0
  /-- The ns of the wake cause (Table 13-8). -/
  causeNs : Nat := 0
  /-- Causes latched during the entry (R358). -/
  latched : BitVec 5 := 0
  /-- Writes of the save area that wait for their addresses, and the descriptors each has written, by writer (R357 steps 3, 4). -/
  saveq : Map (List SaveWrite) := .empty
  saveRing : Map Nat := .empty
  /-- The ring restore has not ended (R362): the next line of descriptors in ring order, lines moved to the front and not asked for
  yet, lines asked for out of order, and where the reads of the lines that are asked for stand. -/
  ringsLeft : Bool := false
  ringNext : Nat := 0
  ringFront : List Nat := []
  ringEarly : List Nat := []
  back : Map Phase := .empty
  /-- The reload (R362): lines of context entries read by the banks that have not read all of theirs, where those reads stand, and
  the entries read whose contexts are not loaded yet, in entry order. -/
  lines : Map Nat := .empty
  ctxBack : Map Phase := .empty
  saved : List SaveCtx := []
  asleepAcc : Bool := false
  snSeen : Bool := false
  sealSeen : Bool := false
  /-- DP_PGOOD. -/
  dpGood : Bool := true
  /-- The WAKE_REQ pin and the wake inputs of the Juwa ports as the last WAKE_CAUSE outside Intermission gave them (R361; log 59). -/
  wakeReq : Bool := false
  wakeJuwa : Bool := false
  /-- The INTERMISSION pin. -/
  intermission : Bool := true
  /-- DCLK or SIO stamps for waits: the cycle a restart began, the ns a warm drain began. -/
  at_ : Nat := 0
  /-- The contexts have been written back (R357 step 3). -/
  wrote : Bool := false
  deriving DecidableEq, Repr

/-- A log record (Table 14-3). -/
structure LogRec where
  gt : Gt := 0
  seq : Word := 0
  cls : BitVec 8 := 0
  code : BitVec 8 := 0
  src : BitVec 16 := 0
  data : BitVec 128 := 0
  deriving DecidableEq, Repr

/-- A mailbox command that waits on memory, the store or a load (R379). -/
structure MbxOp where
  op : BitVec 8
  id : BitVec 5
  args : List Word
  deriving DecidableEq, Repr

/-- The Awl port (R388). -/
structure Awl where
  word : BitVec 19 := 0
  armed : Bool := false
  /-- An access in progress: its write data, none for a read. -/
  op : Option (Option Word) := none
  data : Word := 0
  done : Bool := false
  err : Bool := false
  denied : Bool := false
  deriving DecidableEq, Repr

/-- The candidate of FW_STAGE as it is read (R382): where it lies, how many lines of it are to be read, those that have been read,
where the reads of the next ones stand and how many they are, and what MBX_COMMAND_END gave. -/
structure FwRead where
  addr : SegAddr
  need : Nat := 2
  pos : Nat := 0
  window : Nat := 2
  phase : Option Phase := none
  data : Option MbxEnd := none
  deriving DecidableEq, Repr

/-- The Ringmaster (chapter 14) and what PD0 holds for it: the log, the seal, the grant. -/
structure Rm where
  ready : Bool := false
  /-- Which contents the Ringmaster's SRAM holds: how often they have been loaded (log 91). -/
  sram : Nat := 0
  /-- A processed revolution's samples have not been taken yet (R372). -/
  due : Bool := false
  /-- FW_STAGE reads its candidate. -/
  fw : Option FwRead := none
  /-- The two copies of the store header as they were last read or written (R380). -/
  hdr0 : List Byte := []
  hdr1 : List Byte := []
  recovery : Bool := false
  slotB : Bool := false
  fwA : Word := 0
  fwB : Word := 0
  fwMin : Word := 0
  wcount : Word := 0
  /-- ns at which the open grant runs out. -/
  grant : Option Nat := none
  sealBroken : Bool := false
  present : Bool := false
  /-- PRESENT_N has been low in each sample of the last second. -/
  presentSec : Bool := false
  awlEn : Bool := false
  /-- CODE of the BOOT record that the next READY writes (Table 14-4). -/
  boot : BitVec 8 := 1
  verA : Bool := false
  verB : Bool := false
  throttled : Bool := false
  kept : Word := 0
  cool : Nat := 0
  temp : Map Word := .empty
  volt : Map Word := .empty
  owner : BitVec 5 := 0
  heldBy : Bool := false
  busy : Option MbxOp := none
  done : Bool := false
  result : BitVec 8 := 0
  rlen : BitVec 8 := 0
  data : Map Word := .empty
  /-- ns of the owner's last access (R378). -/
  idleAt : Nat := 0
  logq : List LogRec := []
  /-- Pages with a management event that waits for the Ringmaster's restart to end (Table 14-1). -/
  evHeld : List Nat := []
  log : Map LogRec := .empty
  logNext : BitVec 11 := 0
  logCount : BitVec 12 := 0
  logSeq : Word := 0
  awl : Awl := {}
  deriving DecidableEq, Repr

/-- A RAS report (R405). -/
structure RasRep where
  gt : Gt := 0
  sev : BitVec 2 := 0
  source : BitVec 5 := 0
  owner : OwnerNo := 0
  index : BitVec 24 := 0
  synd : BitVec 8 := 0
  deriving DecidableEq, Repr

/-- RAS (chapter 15). -/
structure Ras where
  reports : List RasRep := []
  log : Map RasRep := .empty
  next : BitVec 5 := 0
  passes : BitVec 16 := 0
  /-- Revolutions processed since the last pass started (R404). -/
  revs : Nat := 0
  dpReady : Bool := false
  cause : BitVec 3 := 1
  abandoned : BitVec 16 := 0
  /-- An armed injection: source and DOUBLE (R409). -/
  inject : Option (BitVec 5 × Bool) := none
  /-- The restart epoch (R399), and the events a restart scan still presents, by bank. -/
  epoch : BitVec 2 := 0
  scan : Map (List Event) := .empty
  /-- The scrub pass in progress: words not yet read at an arbitrated port, by the port's number (R404). -/
  scrub : Map Nat := .empty
  /-- Compiled entries that met a UE: rings, classes with the bank in bit 23 (Table 15-3). -/
  badRings : List (BitVec 24) := []
  badClasses : List (BitVec 24) := []
  badSlots : List Nat := []
  deriving DecidableEq, Repr

/-- The performance monitor's own state (chapter 16): slots of work whose cycle has not passed yet, by 16 × engine +
ledger account. Log 6. -/
structure Pmu where
  debt : Map Nat := .empty
  deriving DecidableEq, Repr

/-- What a build fixes (Table 17-9, R341, R3). Values of one build: log 3. -/
structure Params where
  slices : Nat := 512
  design : BitVec 16 := 0
  regBase : BitVec 64 := 0
  vifBase : BitVec 64 := 0
  dbBase : BitVec 64 := 0
  tifBase : BitVec 64 := 0
  vddDpMv : Nat := 750
  mon15Low : Nat := 0
  mon15High : Nat := 65535
  vddAonMv : Nat := 800
  deriving DecidableEq, Repr

/-- The block: everything but the queue. -/
structure Block where
  prm : Params := {}
  fab : Fabric := {}
  stn : Map Station := .empty
  col : Map Collector := .empty
  pend : Map Pend := .empty
  pays : Map Pay := .empty
  eng : Map Engine := .empty
  cb : Map CBank := .empty
  ctx : Map Ctx := .empty
  hold : List HeldIns := []
  loads : Map LoadOp := .empty
  leave : Map Leave := .empty
  csg : Map CsgCmd := .empty
  seat : Map Seat := .empty
  thr : Map Thread := .empty
  /-- Slices whose link is up. -/
  up : List Nat := []
  ring : Map Ring := .empty
  wr : Map Writer := .empty
  idxFly : Map MemWrite := .empty
  last : Last := {}
  tu : TimeUnit := {}
  car : Carousel := {}
  vif : Map Vif := .empty
  vm : Vmgr := {}
  xl : Xlate := {}
  jp : Map JPort := .empty
  /-- Cache-fill trackers of the shared 512 in use by the context readers, the set readers and the loader (R35). -/
  otherFills : Nat := 0
  /-- Ages of the requests that wait at arbitrated resources (R37), by 64 × resource + requester. -/
  ages : Map (BitVec 10) := .empty
  /-- The last record and response tokens given out: the model's own (log 2). -/
  tok : Nat := 0
  clk : Clk := {}
  pwr : Pwr := {}
  rm : Rm := {}
  ras : Ras := {}
  pmu : Pmu := {}
  deriving DecidableEq, Repr

/-- The block with the commands that wait, first in, first out. -/
structure State where
  blk : Block := {}
  pending : List Instr := []
  deriving DecidableEq, Repr

/-- Why a step stops with a fault. No command of this block does: errors set flags, counters and log entries, and the
block goes on (R402). The one constructor is raised by nothing; its presence is safe. -/
inductive Fault where
  /-- Raised by no command. Safe. -/
  | none
  deriving DecidableEq, Repr

/-- Why a step is refused. -/
inductive Refusal where
  /-- The command has no meaning in this model yet. Raised by arms of `exec` only; safe. -/
  | notModelled (mnemonic : String)
  deriving DecidableEq, Repr

/-- The block right after cold reset (R392, chapters' reset values), with nothing waiting. -/
def State.reset : State := {}

end Sys2Proof.Machine
end

