-- ==== Sys2Proof/Machine/RegTable.lean ====
section
/-! DEFINITION. The register pages (Table 12-1) and the fields of every register that software writes, from the register
tables of the chapters: which bits are RW, WO or WONCE, the reset value, the marks KEY and PST, what acts at once in
deferred mode, and the expert-only fields (Table 14-10). A register that is not listed has only RO fields. -/

namespace Sys2Proof.Machine

/-- The kinds of register page. -/
inductive PgClass where
  | glb | trn | cpc | pwr | tu | car | last | xu | erw | vmgr | jl | pmu | rm | ras | stn | lc | re | csg
  deriving DecidableEq, Repr

/-- The class of a page (Table 12-1); none for a reserved page. -/
def pgClass (pg : Nat) : Option PgClass :=
  if pg = 0 then some .glb else if pg = 1 then some .trn else if pg = 2 then some .cpc
  else if pg = 3 then some .pwr else if pg = 4 then some .tu else if pg = 5 then some .car
  else if pg = 6 then some .last else if pg = 7 then some .xu else if pg = 8 then some .erw
  else if pg = 9 then some .vmgr else if pg = 10 then some .jl else if pg = 11 then some .pmu
  else if pg = 12 then some .rm else if pg = 13 then some .ras
  else if 0x10 ≤ pg ∧ pg ≤ 0x17 then some .stn else if 0x18 ≤ pg ∧ pg ≤ 0x27 then some .lc
  else if 0x28 ≤ pg ∧ pg ≤ 0x37 then some .re else if 0x40 ≤ pg ∧ pg ≤ 0x5F then some .csg
  else none

abbrev pgGLB : Nat := 0x00
abbrev pgTRN : Nat := 0x01
abbrev pgCPC : Nat := 0x02
abbrev pgPWR : Nat := 0x03
abbrev pgTU : Nat := 0x04
abbrev pgCAR : Nat := 0x05
abbrev pgLAST : Nat := 0x06
abbrev pgXU : Nat := 0x07
abbrev pgERW : Nat := 0x08
abbrev pgVMGR : Nat := 0x09
abbrev pgJL : Nat := 0x0A
abbrev pgPMU : Nat := 0x0B
abbrev pgRM : Nat := 0x0C
abbrev pgRAS : Nat := 0x0D
/-- The page of station k. -/
def pgSTN (k : Nat) : Nat := 0x10 + k
/-- The page of line collector c. -/
def pgLC (c : Nat) : Nat := 0x18 + c
/-- The page of route engine and context bank n. -/
def pgRE (n : Nat) : Nat := 0x28 + n
/-- The page of core-slice group g. -/
def pgCSG (g : Nat) : Nat := 0x40 + g

/-- The class number of PG_ID (Table 12-1): the first page of the class. -/
def PgClass.base : PgClass → Nat
  | .glb => 0 | .trn => 1 | .cpc => 2 | .pwr => 3 | .tu => 4 | .car => 5 | .last => 6 | .xu => 7 | .erw => 8
  | .vmgr => 9 | .jl => 10 | .pmu => 11 | .rm => 12 | .ras => 13 | .stn => 0x10 | .lc => 0x18 | .re => 0x28
  | .csg => 0x40

/-- PG_CAP.BOUNDARY: 0 NONE, 1 SLOT, 2 REVOLUTION, 3 OWN (Table 12-1 and the page preambles). -/
def PgClass.boundary : PgClass → BitVec 2
  | .cpc | .pwr | .rm | .ras => 0
  | .trn | .tu | .last => 2
  | .pmu => 3
  | .glb | .car | .xu | .erw | .vmgr | .jl | .stn | .lc | .re | .csg => 1

/-- PG_CAP.POSTED (Table 12-1). -/
def PgClass.posted : PgClass → Bool
  | .cpc | .pwr | .tu | .rm => true
  | _ => false

/-- PG_CAP.LEVELS (R389, Table 14-10). -/
def PgClass.levels : PgClass → Bool
  | .last | .car | .cpc | .pwr | .pmu => true
  | _ => false

/-- PG_CAP.KEYED: the page has KEY fields; PG_CTL has one on every page (R325). -/
def PgClass.keyed (_ : PgClass) : Bool := true

/-- What software writes of one register. -/
structure RegDef where
  rw : Word := 0
  wo : Word := 0
  reset : Word := 0
  key : Bool := false
  wonce : Bool := false
  pst : Bool := false
  atOnce : Bool := false
  expert : Word := 0
  /-- A counter or another register that the configuration sweep leaves out (R133). -/
  ctr : Bool := false
  deriving DecidableEq, Repr

/-- A row: the registers at first, first + step … last. -/
structure RegRow where
  first : Nat
  last : Nat
  step : Nat := 4
  d : RegDef
  deriving DecidableEq, Repr

/-- A row of one register. -/
def one (off : Nat) (d : RegDef) : RegRow := { first := off, last := off, d }

/-- A row of several registers 4 bytes apart. -/
def many (off last : Nat) (d : RegDef) : RegRow := { first := off, last, d }

/-- A counter register that software can write, acting at once. -/
def ctr (m : Word) : RegDef := { rw := m, atOnce := true, ctr := true }

/-- A counter register whose write is deferred like any other. -/
def ctrD (m : Word) : RegDef := { rw := m, ctr := true }

/-- The header registers that software writes (R325): PG_CTL, PG_STATCLR, PG_KEY, PG_EVEN. -/
def hdrRows : List RegRow :=
  [ one 0x008 { rw := 0x7, reset := 1, key := true, atOnce := true },
    one 0x010 { wo := 0xFFFFFFFF, atOnce := true },
    one 0x014 { wo := 0xFFFFFFFF, atOnce := true },
    one 0x024 { rw := 0x00FFFFFF, atOnce := true } ]

/-- The registers of a class that software writes (register tables of the chapters). -/
def regRows : PgClass → List RegRow
  | .glb =>  -- R341
    [ one 0x048 { reset := 0, wonce := true, atOnce := true, wo := 0xFFFF },
      one 0x054 { rw := 1, reset := 1, key := true } ]
  | .trn =>  -- R344
    [ one 0x040 { rw := 0xFF },
      one 0x044 { wo := 0x3, key := true },
      one 0x048 { rw := 0x7FFF3FFF },
      one 0x04C { rw := 0x03FF03FF },
      many 0x050 0x054 { rw := 0xFFFFFFFF },
      one 0x058 { wo := 1, atOnce := true },
      one 0x060 (ctrD 0xFFFFFFFF),
      one 0x068 { rw := 0xF } ]
  | .cpc =>  -- R367
    [ one 0x040 { rw := 0x7, key := true, pst := true, expert := 0x7 },
      one 0x04C { rw := 0x7FF, reset := 1600, key := true, pst := true },
      one 0x050 { rw := 0xFFFF, reset := 4, key := true, pst := true, expert := 0xFFFF },
      many 0x054 0x05C { rw := 0xFFFF, reset := 2, key := true, pst := true, expert := 0xFFFF },
      one 0x060 { rw := 0xFFF, reset := 100, key := true, pst := true, expert := 0xFFF },
      one 0x064 { rw := 0xFFFF, reset := 25000, key := true, pst := true, expert := 0xFFFF },
      one 0x068 { rw := 0xFFFFFFFF, reset := 0x0A9001F4, key := true, pst := true, expert := 0xFFFFFFFF },
      one 0x074 { wo := 0x3, key := true, pst := true },
      one 0x078 { rw := 0xFFFF000F, pst := true },
      one 0x07C { rw := 1, key := true, pst := true, expert := 1 },
      one 0x080 { rw := 0xFFFF, pst := true, ctr := true } ]
  | .pwr =>  -- R369
    [ one 0x040 { wo := 0x3, key := true, pst := true },
      one 0x048 { rw := 0x13F, key := true, pst := true },
      one 0x04C { rw := 0xFFFFF000, key := true, pst := true },
      one 0x050 { rw := 0xFFFF, key := true, pst := true },
      one 0x054 { rw := 0xF, reset := 0xF, pst := true, expert := 0xF },
      one 0x06C { rw := 0xFFFF0000, pst := true, ctr := true },
      one 0x070 { rw := 0x3, key := true, pst := true },
      one 0x074 { rw := 0xFFFF, pst := true, ctr := true } ]
  | .tu =>  -- R201
    [ one 0x040 { rw := 0x1F, key := true, pst := true },
      one 0x054 { rw := 0xFFFFFFFF, pst := true },
      one 0x058 { rw := 0xFF, pst := true },
      one 0x05C { rw := 0xFFFFFFFF, key := true, pst := true },
      one 0x060 { rw := 0xFFFF, pst := true },
      one 0x064 { rw := 0xFFFFFFFF, key := true, pst := true },
      one 0x068 { rw := 0xFFFFFFFF, pst := true },
      one 0x07C { rw := 0xFFFFFFFF, reset := 0x00280000, key := true, pst := true },
      one 0x080 { rw := 0xFF07, reset := 0x7C00, pst := true } ]
  | .car =>  -- R203
    [ one 0x040 { rw := 0x1FFF, reset := 250, key := true, atOnce := true, expert := 0x1FFF },
      one 0x048 { rw := 0x10FFF, atOnce := true, expert := 0x10FFF },
      one 0x04C { rw := 0xFFFFFFFF, key := true, atOnce := true, expert := 0xFFFFFFFF },
      one 0x050 { rw := 0x7, reset := 0x6, expert := 0x1 },
      many 0x054 0x068 (ctrD 0xFFFFFFFF),
      one 0x06C (ctrD 0xFFFFFF) ]
  | .last =>  -- R145
    [ one 0x040 { wo := 0x7, key := true, atOnce := true },
      one 0x044 { rw := 0x3F },
      one 0x048 { rw := 0xFFFFFFC0 },
      one 0x04C { rw := 0xFFFFFFFF },
      one 0x070 { rw := 1, key := true, ctr := true },
      one 0x074 { rw := 0xFFFFFFFF, key := true, ctr := true },
      one 0x07C { wo := 1, key := true, atOnce := true },
      one 0x080 (ctrD 0xFFFF0000),
      one 0x100 { rw := 0x1F },
      one 0x104 { rw := 0x003F07FF, reset := 0x003F0000 },
      one 0x108 { rw := 0x00FFFFFF },
      one 0x10C { rw := 0x1F3F },
      one 0x110 { rw := 0xFFFFF000 },
      one 0x114 { rw := 0xFFFF },
      many 0x140 0x17C { rw := 0x03F7F7FF, reset := 0x03F00000 } ]
  | .xu =>  -- R294
    [ one 0x040 { rw := 1, reset := 1 },
      one 0x044 { rw := 0x3F03, wo := 0x4, atOnce := true },
      one 0x048 { rw := 0xFFFFF000 },
      one 0x04C { rw := 0xFFFF },
      one 0x054 { rw := 0x3F },
      one 0x058 { wo := 0x3, key := true, atOnce := true },
      one 0x05C { rw := 0x3 },
      one 0x060 { rw := 0xFFFFFFFF },
      one 0x064 { rw := 0xF },
      one 0x068 { rw := 0xFFFFFFFF },
      one 0x06C { rw := 0xF },
      one 0x070 { rw := 0xFFFFFFFF },
      one 0x074 { rw := 0xFFFFF },
      one 0x078 { rw := 0xBFFF, key := true },
      one 0x07C { rw := 0x7FFFFF, key := true },
      one 0x084 { rw := 0x3F },
      { first := 0x0A0, last := 0x0B8, step := 8, d := { rw := 0xFFFFF07F, key := true } },
      { first := 0x0A4, last := 0x0BC, step := 8, d := { rw := 0xFFFFFFFF, key := true } },
      many 0x0C0 0x0CC (ctr 0xFFFFFFFF) ]
  | .erw =>  -- R254
    [ one 0x040 { rw := 0x7F, reset := 0x40 },
      one 0x044 { rw := 0x1FF, reset := 256, key := true },
      one 0x048 { rw := 0x3FFF, atOnce := true },
      one 0x058 { rw := 0xFFFFFFFF, atOnce := true },
      one 0x05C { rw := 0xFFFFFFFF, atOnce := true, ctr := true },
      one 0x060 { wo := 0x3, key := true, atOnce := true },
      one 0x068 { rw := 0x1FFF, atOnce := true },
      one 0x06C { rw := 0x07FF01FF, reset := 0x04000100, key := true },
      one 0x080 (ctr 0xFFFFFFFF),
      one 0x084 (ctr 0xFFFF),
      many 0x088 0x08C (ctr 0xFFFFFFFF) ]
  | .vmgr =>  -- R275
    [ one 0x040 { rw := 0x1FFF, key := true },
      many 0x044 0x04C { rw := 0xFFFFFFFF, key := true },
      one 0x050 { wo := 0xF, key := true, atOnce := true },
      one 0x060 { rw := 0xFFF },
      one 0x074 { rw := 0xFF },
      one 0x080 { rw := 0x3F },
      one 0x084 { rw := 0x1F3F, reset := 0x900, key := true },
      one 0x088 { rw := 0xFFFFF000, key := true },
      one 0x08C { rw := 0xFFFF, key := true },
      one 0x090 { rw := 0x1FFFFF, key := true },
      one 0x098 { rw := 0xFFFFFFFF },
      many 0x0B0 0x0BC (ctrD 0xFFFFFFFF),
      many 0x200 0x3FC { rw := 0xFFFFFFFF } ]
  | .jl =>  -- R319
    [ one 0x040 { rw := 0x00FFFFFF, reset := 0x00080800, key := true },
      many 0x044 0x050 (ctr 0xFFFFFFFF),
      { first := 0x080, last := 0x0E0, step := 0x20, d := { rw := 1, key := true, atOnce := true } },
      { first := 0x090, last := 0x0F0, step := 0x20, d := ctr 0xFFFFFFFF },
      { first := 0x094, last := 0x0F4, step := 0x20, d := ctr 0xFFFF },
      { first := 0x098, last := 0x0F8, step := 0x20, d := ctr 0xFFFFFFFF },
      { first := 0x09C, last := 0x0FC, step := 0x20, d := ctr 0xFFFF } ]
  | .pmu =>  -- R422
    [ one 0x040 { rw := 0xFF07, key := true },
      many 0x044 0x048 { rw := 0xFFFFFFFF },
      many 0x04C 0x050 (ctr 0xFFFFFFFF),
      one 0x054 (ctr 0xFFFF),
      one 0x058 (ctr 0xFFFFFFFF),
      many 0x100 0x1FC { rw := 0x1FFF, reset := 0x1F00, expert := 0x1FFF },
      { first := 0x200, last := 0x3F8, step := 8, d := ctr 0xFFFFFFFF },
      { first := 0x204, last := 0x3FC, step := 8, d := ctr 0xFFFF },
      { first := 0x400, last := 0x478, step := 8, d := ctr 0xFFFFFFFF },
      { first := 0x404, last := 0x47C, step := 8, d := ctr 0xFFFF } ]
  | .rm =>  -- R391
    [ one 0x050 { rw := 0xFFF, reset := 300, key := true, pst := true },
      one 0x054 { wo := 0x3, pst := true },
      one 0x058 { wo := 0xFF, pst := true },
      one 0x064 { rw := 0x7FF, pst := true },
      one 0x068 { rw := 0xFFFFFFFF, pst := true, ctr := true },
      one 0x06C { rw := 0x1FFFF, reset := 0x16E5F, key := true, pst := true },
      many 0x100 0x1FC { rw := 0xFFFFFFFF, pst := true } ]
  | .ras =>  -- R409
    [ one 0x040 { rw := 0xFFFF0007, reset := 0x00640002, key := true },
      one 0x044 { wo := 0x3, key := true },
      one 0x048 { rw := 0xBFFF, key := true },
      one 0x04C { rw := 0x7FFFFF, key := true },
      one 0x054 { rw := 0x1F },
      many 0x068 0x070 (ctrD 0xFFFFFFFF),
      one 0x078 { rw := 0x3F, wo := 0x40, key := true } ]
  | .stn =>  -- R111
    [ one 0x040 { rw := 1, reset := 1 },
      one 0x044 { rw := 0x3, wo := 0x4 },
      one 0x048 { rw := 0xFFFFFF },
      one 0x058 (ctr 0xFFFFFFFF), one 0x05C (ctr 0xFFFF),
      one 0x060 (ctr 0xFFFFFFFF), one 0x064 (ctr 0xFFFF),
      many 0x068 0x078 (ctr 0xFFFFFFFF) ]
  | .lc =>  -- R112
    [ many 0x040 0x06C { rw := 0xFFFFFFFF },
      one 0x090 { wo := 0x17F, key := true },
      one 0x094 (ctrD 0xFFFFFFFF) ]
  | .re =>  -- R172
    [ one 0x040 { rw := 0x13F, key := true },
      one 0x044 { rw := 0xFFFFF000, key := true },
      one 0x048 { rw := 0xFFFF, key := true },
      one 0x04C { rw := 0x3F, wo := 0x100 },
      one 0x050 { rw := 0xFFFFF },
      one 0x054 { rw := 0x4 },
      one 0x058 { wo := 0x3FFFF, key := true, atOnce := true },
      one 0x068 (ctr 0xFFFFFFFF), one 0x06C (ctr 0xFFFF),
      many 0x070 0x094 (ctr 0xFFFFFFFF) ]
  | .csg =>  -- R229
    [ one 0x040 { rw := 0xFFFF, key := true },
      one 0x044 { wo := 0x0007FF3F, key := true, atOnce := true },
      one 0x050 { rw := 0x3F },
      many 0x060 0x084 (ctr 0xFFFFFFFF) ]

/-- A row holds an offset. -/
def RegRow.has (r : RegRow) (off : Nat) : Bool :=
  decide (r.first ≤ off) && decide (off ≤ r.last) && decide ((off - r.first) % r.step = 0)

/-- What software writes of the register at an offset; none: only RO fields, or no register (R322). -/
def regDef (cl : PgClass) (off : Nat) : Option RegDef :=
  (((if off < 0x40 then hdrRows else regRows cl).find? (·.has off)).map RegRow.d)

/-- The reset value of a register's stored fields. -/
def resetOf (pg off : Nat) : Word :=
  match pgClass pg with
  | none => 0
  | some cl => match regDef cl off with
    | some d => d.reset
    | none => 0

/-- The swept offsets of a class, rising (R133): every register with RW or WONCE fields, counters left out. -/
def RegRow.offs (r : RegRow) : List Nat := (List.range ((r.last - r.first) / r.step + 1)).map (r.first + r.step * ·)

end Sys2Proof.Machine
end

