-- ==== Sys2Proof/Machine/Ops.lean ====
section
/-! DEFINITION. The named operations every unit uses: stored registers, counters, status flags with their sequence
number (R329), records of the retention log (R374), RAS reports (R405), events of the performance monitor (R417). -/

namespace Sys2Proof.Machine

/-- Where a register stands in the register file. -/
def regKey (pg off : Nat) : Nat := 4096 * pg + off

/-- The stored fields of a register. -/
def Block.reg (b : Block) (pg off : Nat) : Word := b.fab.regs.get (resetOf pg off) (regKey pg off)

/-- Store the fields of a register. -/
def Block.setReg (b : Block) (pg off : Nat) (v : Word) : Block :=
  { b with fab := { b.fab with regs := b.fab.regs.set (resetOf pg off) (regKey pg off) v } }

/-- Bit i of a register. -/
def Block.regBit (b : Block) (pg off i : Nat) : Bool := bit (b.reg pg off) i

/-- Field [hi:lo] of a register. -/
def Block.regFld (b : Block) (pg off hi lo : Nat) : BitVec (hi - lo + 1) := fld (b.reg pg off) hi lo

/-- GT as the data plane sampled it at the last DCLK edge (R32): what stamps, deadlines, timers and slots use. -/
def Block.gt (b : Block) : Gt := b.clk.gt

/-- A DCLK edge samples GT (R32). -/
def Block.sampleGt (b : Block) : Block := { b with clk := { b.clk with gt := b.tu.ns } }

/-- A page's header. -/
def Block.hdr (b : Block) (pg : Nat) : PageHdr := b.fab.hdr.get {} pg

/-- Write a page's header. -/
def Block.setHdr (b : Block) (pg : Nat) (h : PageHdr) : Block :=
  { b with fab := { b.fab with hdr := b.fab.hdr.set {} pg h } }

/-! ### Counters -/

/-- A 32-bit counter that stops at its largest value. -/
def Block.cnt (b : Block) (pg off : Nat) (n : Nat := 1) : Block := b.setReg pg off (satAdd (b.reg pg off) n)

/-- The low or high 16-bit half of a register counts and stops at its largest value. -/
def Block.cntHalf (b : Block) (pg off : Nat) (high : Bool) (n : Nat := 1) : Block :=
  let v := b.reg pg off
  let h : BitVec 16 := if high then fld v 31 16 else fld v 15 0
  let h' := satAdd h n
  b.setReg pg off (if high then (fld v 15 0).setWidth 32 ||| at' h' 16 else blend 0xFFFF v (h'.setWidth 32))

/-- A 48-bit counter in a LO/HI pair wraps at its width (R111, R172, R254, R319). -/
def Block.cnt48 (b : Block) (pg lo hi : Nat) (n : Nat := 1) : Block :=
  let v : Nat := (b.reg pg lo).toNat + 2 ^ 32 * (b.reg pg hi).toNat + n
  (b.setReg pg lo (BitVec.ofNat 32 v)).setReg pg hi (BitVec.ofNat 32 (v / 2 ^ 32 % 2 ^ 16))

/-! ### The retention log and RAS reports: taking a record -/

/-- A record offered to the retention log: the PD0 writer queues 16; one more is lost (R374). -/
def Block.rmLog (b : Block) (cls code : BitVec 8) (src : BitVec 16) (data : BitVec 128) : Block :=
  if b.rm.logq.length < 16 then
    { b with rm := { b.rm with logq := b.rm.logq ++ [{ gt := b.tu.ns, cls, code, src, data }] } }
  else b.cnt pgRM 0x068

/-! ### Status flags -/

/-- Held writes of a page (PG_STAT.HELD): of registers, of slot words (R190), of regions (R339), posted and deferred. -/
def Block.isHeld (b : Block) (pg : Nat) : Bool :=
  b.fab.held.any (·.pg == pg) || (pg == pgCAR && !b.car.shadow.cells.isEmpty) ||
    (pg == pgTRN && !b.fab.rgnHeld.isEmpty)

/-- PG_STAT (R325). -/
def Block.pgStat (b : Block) (pg : Nat) : Word :=
  let h := b.hdr pg
  h.flags.setWidth 32 ||| flagAt (b.isHeld pg) 8 ||| flagAt h.clrStale 9 ||| flagAt h.err 10 |||
    flagAt h.unlocked 11 ||| at' h.seq 24

/-- PG_ERR (R325). -/
def PageHdr.pgErr (h : PageHdr) : Word :=
  h.errBits.setWidth 32 ||| at' h.errId 8 ||| at' h.errOff 16 ||| flagAt h.errWr 30

/-- The Ringmaster's firmware performs its duties (R370, R383). -/
def Rm.onDuty (r : Rm) : Bool := r.ready && !r.recovery

/-- The Ringmaster does not run: its clock stands while the MCLK multiplexer hangs (R351, R352). -/
def Block.rmFrozen (b : Block) : Bool := b.clk.hung == some .mclk

/-- The Ringmaster writes the log record of a page's management event (Table 14-4). -/
def Block.evenLog (b : Block) (pg : Nat) : Block := b.rmLog 7 0 (BitVec.ofNat 16 pg) ((b.pgStat pg).setWidth 128)

/-- A management event (R31): a flag was set whose PG_EVEN bit is 1. The Ringmaster receives it, or it is held until it can
(Table 14-1). -/
def Block.even (b : Block) (pg : Nat) (m : BitVec 24) : Block :=
  if (b.hdr pg).even &&& m = 0 then b
  else if b.rm.onDuty && !b.rmFrozen then b.evenLog pg
  else if b.rm.evHeld.contains pg then b
  else { b with rm := { b.rm with evHeld := b.rm.evHeld ++ [pg] } }

/-- Status events of one cycle (R329): the flags are set, SEQ increases by 1, PG_EVEN is looked at. A mask of 0 is no
event. Log 7: the events one step raises one after the other count as events of different cycles. -/
def Block.raise (b : Block) (pg : Nat) (m : BitVec 8) : Block :=
  if m = 0 then b else
    let h := b.hdr pg
    (b.setHdr pg { h with flags := h.flags ||| m, seq := h.seq + 1 }).even pg (m.setWidth 24)

/-- One flag of a page. -/
def Block.flag (b : Block) (pg i : Nat) : Block := b.raise pg ((1 : BitVec 8) <<< i)

/-- Bits of PG_ERR. -/
inductive PgErr where
  | size | align | lockviol | keybad | deny | aliased | overrun
  deriving DecidableEq, Repr

/-- The bit of PG_ERR. -/
def PgErr.bits : PgErr → BitVec 7
  | .size => 1 | .align => 2 | .lockviol => 4 | .keybad => 8 | .deny => 16 | .aliased => 32 | .overrun => 64

/-- An access error (R325 PG_ERR): its flag, its place, ERR with a new SEQ; LOCKVIOL is logged (R332). -/
def Block.pgErr (b : Block) (pg : Nat) (e : PgErr) (id : BitVec 5) (off : BitVec 14) (wr : Bool) : Block :=
  let h := b.hdr pg
  let h' := { h with errBits := h.errBits ||| e.bits, errId := id, errOff := off, errWr := wr, err := true,
                     seq := h.seq + 1 }
  let b := (b.setHdr pg h').even pg 0x400
  if e = .lockviol then b.rmLog 5 0 (BitVec.ofNat 16 pg) (h'.pgErr.setWidth 128) else b

/-- A RAS report offered to the queue of 16; one more is lost (R405). -/
def Block.rasPost (b : Block) (r : RasRep) : Block :=
  if b.ras.reports.length < 16 then { b with ras := { b.ras with reports := b.ras.reports ++ [r] } }
  else (b.cnt pgRAS 0x070).flag pgRAS 3

/-- A condition that is not an array error (R406: SEV 3). -/
def Block.rasEvent (b : Block) (source : BitVec 5) (index : BitVec 24 := 0) (owner : OwnerNo := 0) : Block :=
  b.rasPost { gt := b.tu.ns, sev := 3, source, owner, index }

/-! ### The performance monitor -/

/-- Add to a 48-bit counter of the PMU whose LO register is at `lo` (R419); answers whether it wrapped. -/
def Block.pmuBump (b : Block) (lo n : Nat) : Block × Bool :=
  let v : Nat := (b.reg pgPMU lo).toNat + 2 ^ 32 * (b.reg pgPMU (lo + 4)).toNat + n
  ((b.setReg pgPMU lo (BitVec.ofNat 32 v)).setReg pgPMU (lo + 4) (BitVec.ofNat 32 (v / 2 ^ 32 % 2 ^ 16)),
    decide (2 ^ 48 ≤ v))

/-- The wrap of a counter (R419): its overflow bit, OVF, and with FREEZE_OVF the end of counting. -/
def Block.pmuWrap (b : Block) (fixed : Bool) (i : Nat) : Block :=
  let b := if fixed then b.setReg pgPMU 0x054 (setBit (b.reg pgPMU 0x054) i true)
    else if i < 32 then b.setReg pgPMU 0x04C (setBit (b.reg pgPMU 0x04C) i true)
    else b.setReg pgPMU 0x050 (setBit (b.reg pgPMU 0x050) (i - 32) true)
  let c := b.reg pgPMU 0x040
  if bit c 2 then ((b.setReg pgPMU 0x040 (c &&& ~~~3)).raise pgPMU 3) else b.flag pgPMU 0

/-- Programmable counter i counts (R417). -/
def Block.pmuOn (b : Block) (i : Nat) : Bool :=
  b.regBit pgPMU 0x040 0 && (if i < 32 then b.regBit pgPMU 0x044 i else b.regBit pgPMU 0x048 (i - 32))

/-- Counter i takes an event (R418). -/
def Block.pmuOne (ev : BitVec 8) (unit n : Nat) (b : Block) (i : Nat) : Block :=
  let s := b.reg pgPMU (0x100 + 4 * i)
  if b.pmuOn i && fld s 7 0 == ev && (fld s 12 8 == 0x1F#5 || (fld s 12 8).toNat == unit) then
    let (b', w) := b.pmuBump (0x200 + 8 * i) n
    if w then b'.pmuWrap false i else b'
  else b

/-- An event of Table 16-7 in a unit, `n` of them, in every programmable counter that selects it. -/
def Block.pmuEv (b : Block) (ev : BitVec 8) (unit : Nat) (n : Nat := 1) : Block :=
  if b.regBit pgPMU 0x040 0 then (List.range 64).foldl (Block.pmuOne ev unit n) b else b

/-- A slot of a route engine owed to a ledger account (R414); it is charged when DCLK cycles pass. Log 6. -/
def Block.owe (b : Block) (n acct : Nat) (k : Nat := 1) : Block :=
  { b with pmu := { b.pmu with debt := b.pmu.debt.upd 0 (16 * n + acct) (· + k) } }

/-! ### The Turnstile (R335 to R338) -/

/-- A region admits an access part (R335). -/
def Rgn.admits (r : Rgn) (id : BitVec 5) (tpn w : Nat) (wr : Bool) : Bool :=
  decide (r.first.toNat ≤ tpn ∧ tpn < r.first.toNat + r.count.toNat) && decide (r.wlo.toNat ≤ w ∧ w ≤ r.whi.toNat) &&
    bit (if wr then r.wmask else r.rmask) id.toNat

/-- An access part passes the Turnstile (R335). `port`: it arrives on the register port. -/
def Block.admits (b : Block) (port : Bool) (id : BitVec 5) (tpn w : Nat) (wr : Bool) : Bool :=
  !(port && (id == 3 || id == 4)) &&
    ((id == 0 && tpn == 1) || b.fab.rgn.cells.any fun p => p.2.admits id tpn w wr)

/-- A Turnstile log entry (R322, R338): cause 1 DENY, 2 NOPAGE. -/
def Block.tsLog (b : Block) (cause : BitVec 2) (id : BitVec 5) (wr : Bool) (tpn w : Nat) : Block :=
  let e : TrnLog := { gt := b.tu.ns, id, wr, cause, tpn := BitVec.ofNat 14 tpn, word := BitVec.ofNat 10 w }
  let b := { b with fab := { b.fab with log := b.fab.log.set {} b.fab.logNext.toNat e, logNext := b.fab.logNext + 1 } }
  (b.cnt pgTRN 0x060).flag pgTRN (if cause = 1 then 0 else 1)

/-- The number of an alias part (R320). -/
def aliasNum : Alias → Nat
  | .base => 0 | .set => 1 | .clear => 2 | .toggle => 3

/-- The alias part of a number. -/
def aliasOf (n : Nat) : Alias :=
  match n with
  | 0 => .base | 1 => .set | 2 => .clear | _ => .toggle

/-- The offset of the latest error, alias part included (PG_ERR). -/
def errOff (al : Alias) (off : Nat) : BitVec 14 := BitVec.ofNat 14 (0x1000 * aliasNum al + off)

/-- A refused part: DENY on a page that is assigned and built, the log (R338). -/
def Block.deny (b : Block) (id : BitVec 5) (pg : Nat) (al : Alias) (off : Nat) (wr : Bool) : Block :=
  let b := if (pgClass pg).isSome then b.pgErr pg .deny id (errOff al off) wr else b
  b.tsLog 1 id wr pg (off / 4)

/-! ### Arbitration (R36 to R42, Table 1-5) -/

/-- The arbitrated resources of the data path (Table 1-5), each with the number of its copy. -/
inductive Res where
  | pendBank (q : Nat)
  | classBank (q : Nat)
  | ctxBank (q : Nat)
  | ringTable (w : Nat)
  | intake (w : Nat)
  | dport (d : Nat)
  | wmem (w : Nat)
  | fillPort
  | walkPort
  | juwaTx (p : Nat)
  deriving DecidableEq, Repr

/-- The number of requesters of a resource (Table 1-5, N). -/
def Res.requesters : Res → Nat
  | .pendBank _ => 15
  | .classBank _ => 17
  | .ctxBank _ => 20
  | .ringTable _ => 4
  | .intake _ => 16
  | .dport _ => 16
  | .wmem _ => 3
  | .fillPort => 10
  | .walkPort => 64
  | .juwaTx _ => 19

/-- The longest transfer of a resource in beats (Table 1-5, T). -/
def Res.beats : Res → Nat
  | .wmem _ => 2
  | .juwaTx _ => 4
  | _ => 1

/-- The cycles within which a request that stays eligible is granted (R41). -/
def Res.bound (r : Res) : Nat := r.requesters * r.beats - 1

/-- The resource's number among all copies of all resources. -/
def Res.key : Res → Nat
  | .pendBank q => q
  | .classBank q => 16 + q
  | .ctxBank q => 32 + q
  | .ringTable w => 48 + w
  | .intake w => 52 + w
  | .dport d => 56 + d
  | .wmem w => 60 + w
  | .fillPort => 64
  | .walkPort => 65
  | .juwaTx p => 66 + p

/-- The age of a requester's request (R37). -/
def Block.age (b : Block) (r : Res) (i : Nat) : BitVec 10 := b.ages.get 0 (64 * r.key + i)

/-- Of the requesters below `n` whose request is eligible, the one of the greatest age; of equals the lowest index (R38). -/
def pickOldest (age : Nat → BitVec 10) (elig : Nat → Bool) : Nat → Option Nat
  | 0 => none
  | n + 1 =>
    match pickOldest age elig n with
    | none => if elig n then some n else none
    | some j => if elig n && decide ((age j).toNat < (age n).toNat) then some n else some j

/-- The request that the arbiter grants (R38). -/
def Block.pick (b : Block) (r : Res) (elig : Nat → Bool) : Option Nat := pickOldest (b.age r) elig r.requesters

/-- A requester's request has been granted: its next one starts at age 0 (R37). -/
def Block.granted (b : Block) (r : Res) (i : Nat) : Block := { b with ages := b.ages.erase (64 * r.key + i) }

/-- A DCLK cycle at a resource: every eligible request that was not granted grows older, up to 1,023 (R37). -/
def Block.ageAll (b : Block) (r : Res) (elig : Nat → Bool) : Block :=
  (List.range r.requesters).foldl (fun b i =>
    if elig i then { b with ages := b.ages.set 0 (64 * r.key + i) (satAdd (b.age r i) 1) } else b) b

/-! ### The parts of the block by number -/

def Block.station (b : Block) (k : Nat) : Station := b.stn.get {} k
def Block.setStation (b : Block) (k : Nat) (v : Station) : Block := { b with stn := b.stn.set {} k v }
def Block.coll (b : Block) (c : Nat) : Collector := b.col.get {} c
def Block.setColl (b : Block) (c : Nat) (v : Collector) : Block := { b with col := b.col.set {} c v }
def Block.pendOf (b : Block) (e : Event) : Pend := b.pend.get {} e.toNat
def Block.setPend (b : Block) (e : Event) (v : Pend) : Block := { b with pend := b.pend.set {} e.toNat v }
def Block.engine (b : Block) (n : Nat) : Engine := b.eng.get {} n
def Block.setEngine (b : Block) (n : Nat) (v : Engine) : Block := { b with eng := b.eng.set {} n v }
def Block.bank (b : Block) (q : Nat) : CBank := b.cb.get {} q
def Block.setBank (b : Block) (q : Nat) (v : CBank) : Block := { b with cb := b.cb.set {} q v }
/-- The on-die record of a context, if it is resident. -/
def Block.rec? (b : Block) (c : CtxNo) : Option Ctx := b.ctx.find? c.toNat
def Block.setRec (b : Block) (c : CtxNo) (v : Ctx) : Block := { b with ctx := b.ctx.insert c.toNat v }
/-- Change the record of a resident context. -/
def Block.modRec (b : Block) (c : CtxNo) (f : Ctx → Ctx) : Block :=
  match b.rec? c with
  | some x => b.setRec c (f x)
  | none => b
def Block.seatOf (b : Block) (i : Nat) : Seat := b.seat.get {} i
def Block.setSeat (b : Block) (i : Nat) (v : Seat) : Block := { b with seat := b.seat.set {} i v }
def Block.thread (b : Block) (t : Nat) : Thread := b.thr.get {} t
def Block.setThread (b : Block) (t : Nat) (v : Thread) : Block := { b with thr := b.thr.set {} t v }
def Block.cmd (b : Block) (g : Nat) : CsgCmd := b.csg.get {} g
def Block.setCmd (b : Block) (g : Nat) (v : CsgCmd) : Block := { b with csg := b.csg.set {} g v }
def Block.ringOf (b : Block) (r : RingNo) : Ring := b.ring.get {} r.toNat
def Block.setRing (b : Block) (r : RingNo) (v : Ring) : Block := { b with ring := b.ring.set {} r.toNat v }
def Block.writer (b : Block) (w : Nat) : Writer := b.wr.get {} w
def Block.setWriter (b : Block) (w : Nat) (v : Writer) : Block := { b with wr := b.wr.set {} w v }
def Block.vifOf (b : Block) (v : Nat) : Vif := b.vif.get {} v
def Block.setVif (b : Block) (v : Nat) (x : Vif) : Block := { b with vif := b.vif.set {} v x }
def Block.dlCh (b : Block) (c : Nat) : DlCh := b.vm.ch.get {} c
def Block.setDlCh (b : Block) (c : Nat) (x : DlCh) : Block := { b with vm := { b.vm with ch := b.vm.ch.set {} c x } }
def Block.port (b : Block) (p : Nat) : JPort := b.jp.get {} p
def Block.setPort (b : Block) (p : Nat) (x : JPort) : Block := { b with jp := b.jp.set {} p x }
def Block.segm (b : Block) (s : BitVec 6) : Segm := b.xl.segs.get {} s.toNat
/-- The active bank of the image store. -/
def Block.act (b : Block) : Bank := if b.last.active then b.last.b else b.last.a
/-- The built thread count T (R3). -/
def Block.threads (b : Block) : Nat := 4 * b.prm.slices
/-- A new token of the model's own (log 2). -/
def Block.newTok (b : Block) : Block × Nat := ({ b with tok := b.tok + 1 }, b.tok + 1)

/-- The partition of a context (R16). -/
def ctxBank (c : CtxNo) : Nat := c.toNat % 16
/-- The engine and pending-array bank of an event (R13). -/
def evBank (e : Event) : Nat := e.toNat % 16
/-- The writer of a ring (R18). -/
def ringWriter (r : RingNo) : Nat := r.toNat % 4
/-- The CSG page of a thread (R229). -/
def csgOf (t : Nat) : Nat := t / 64

/-- The frequency of DCLK in MHz: the DPLL's, or the MPLL's 400 (Tables 13-1, 13-4). -/
def Block.dclkMhz (b : Block) : Nat := if b.clk.mhz = 0 then 0 else if b.clk.dclkUsed then 400 else b.clk.mhz.toNat

/-- Where the data plane runs: admission and its engines work (Table 15-1, R357). -/
def Block.running (b : Block) : Bool := b.pwr.stage == .run

end Sys2Proof.Machine
end

