-- ==== Sys2Proof/Machine/Image.lean ====
section
/-! DEFINITION. What the active bank of the Last says (chapter 4): route classes, slots, instance routes, compiled ring
fields, SRC and EVA entries, and the basic image (R140, R142). -/

namespace Sys2Proof.Machine

/-- The discard class (R121): all zeros. -/
def Rte.discard : Rte := {}

/-- A route class as its 32 bytes spell it (Table 4-5). -/
def rteOf (x : BitVec 256) : Rte :=
  { kind := fld x 2 0, dclass := fld x 5 4, urgent := bit x 6, pin := bit x 7, target := fld x 31 16,
    userTag := fld x 47 32, set := fld x 57 48, group := fld x 71 64, inst := fld x 95 80, revent := fld x 115 96,
    ring := fld x 141 128, ringValid := bit x 142, coalWindow := fld x 159 144, coalCount := fld x 167 160,
    bypPrio := fld x 173 168, bypEn := bit x 174 }

/-- The fields of a route class laid out again, reserved bits 0. -/
def rteBits (r : Rte) : BitVec 256 :=
  at' r.kind 0 ||| at' r.dclass 4 ||| flagAt r.urgent 6 ||| flagAt r.pin 7 ||| at' r.target 16 ||| at' r.userTag 32 |||
    at' r.set 48 ||| at' r.group 64 ||| at' r.inst 80 ||| at' r.revent 96 ||| at' r.ring 128 ||| flagAt r.ringValid 142 |||
    at' r.coalWindow 144 ||| at' r.coalCount 160 ||| at' r.bypPrio 168 ||| flagAt r.bypEn 174

/-- Compiled ring fields (Table 4-7). -/
def ringCfgOf (x : BitVec 128) : RingCfg :=
  { base := fld x 35 0, order := fld x 40 36, user := bit x 41, seg := fld x 47 42, owner := fld x 60 48,
    link := fld x 75 64 }

/-- Compiled ring fields laid out again. -/
def ringCfgBits (r : RingCfg) : BitVec 128 :=
  at' r.base 0 ||| at' r.order 36 ||| flagAt r.user 41 ||| at' r.seg 42 ||| at' r.owner 48 ||| at' r.link 64

/-- An INR entry (Table 4-6). -/
def inrOf (x : Byte) : InrEnt := { port := fld x 1 0, below := bit x 2, valid := bit x 7 }

/-- An INR entry laid out again. -/
def inrBits (e : InrEnt) : Byte := e.port.setWidth 8 ||| flagAt e.below 2 ||| flagAt e.valid 7

/-- An EVA entry's first 8 bytes (Table 4-4); TYPE bit 3 is taken as 0. -/
def evaOf (x : BitVec 64) : EvaAttr :=
  { vevent := fld x 19 0, prio := fld x 25 20, type := fld x 30 28, cls := fld x 43 32, owner := fld x 56 44 }

/-- The owner of an event that no doorbell page checks: an OWNER above 4,096 is the PMF (Table 4-4). -/
def EvaAttr.settle (a : EvaAttr) : EvaAttr := if a.owner.toNat ≤ 4096 then a else { a with owner := 0 }

/-- The slot of a bucket that holds a key (R118): the lowest that matches and is not empty. -/
def srcFind (bytes : List Byte) (tag : BitVec 24) (devevt : Event) : Option Event :=
  ((List.range 8).map fun i => leBits 64 ((bytes.drop (8 * i)).take 8)).findSome? fun x =>
    if fld x 23 0 = tag ∧ fld x 43 24 = devevt ∧ fld x 63 44 ≠ 0xFFFFF#20 then some (fld x 63 44) else none

/-! ### The basic image -/

/-- A message-range event (R44). -/
def msgRange (e : Event) : Bool := decide (0x2000 ≤ e.toNat) && decide (e.toNat ≤ 0xFFFFE)
/-- A wired event. -/
def wiredRange (e : Event) : Bool := decide (e.toNat < 0x800)
/-- The events R44 gives state to. -/
def hasState (e : Event) : Bool := wiredRange e || msgRange e

/-- The thread for line i of collector c (R140). -/
def basicThread (m : BasicImg) (threads c i : Nat) : Nat :=
  let v := m.lc.getD c 0x03F00000
  ((fld v 10 0).toNat + i % ((fld v 18 12).toNat + 1)) % threads

/-- ORDER of ring 0 of the basic image; 0: not in use. -/
def basicOrder (m : BasicImg) : BitVec 5 := fld m.ring0 12 8

/-- Class k of the basic image (R140). The spec names no URGENT, PIN, USER_TAG and BYPASS of these classes: they are 0 (DESIGN CHOICE,
log 82). -/
def basicRte (m : BasicImg) (threads k : Nat) : Rte :=
  let coal (r : Rte) (on : Bool) : Rte :=
    if on then { r with ring := 0, ringValid := true, coalWindow := fld m.coal 15 0, coalCount := fld m.coal 23 16 } else r
  let used := basicOrder m != 0
  if k = 0 then {}
  else if k = 1 then
    coal { kind := 1, dclass := fld m.ctl 3 2, target := BitVec.ofNat 16 ((fld m.msg 10 0).toNat % threads) } used
  else if k < 2 + 2048 then
    coal { kind := 1, dclass := fld m.ctl 3 2,
           target := BitVec.ofNat 16 (basicThread m threads ((k - 2) / 128) ((k - 2) % 128)) } (used && bit m.ctl 4)
  else {}

/-- Ring r of the basic image (R140). The spec names no USER of ring 0: it is 0 (DESIGN CHOICE, log 82). -/
def basicRing (m : BasicImg) (r : RingNo) : RingCfg :=
  if r = 0 then
    { base := fld m.ring0Hi 15 0 ++ fld m.ring0Lo 31 12, order := basicOrder m, seg := fld m.ring0 5 0, link := 1 }
  else {}

/-! ### A bank -/

/-- Class k of a bank; one that met an uncorrectable error is handled by its reader (Table 15-3). -/
def Bank.rteAt (k : Bank) (threads : Nat) (c : BitVec 12) : Rte :=
  match k.basic with
  | some m => basicRte m threads c.toNat
  | none => k.rte.get {} c.toNat

/-- Compiled fields of ring r. -/
def Bank.ringAt (k : Bank) (r : RingNo) : RingCfg :=
  match k.basic with
  | some m => basicRing m r
  | none => k.ring.get {} r.toNat

/-- Entry j of SLOT group g (R123). -/
def Bank.slotAt (k : Bank) (g : BitVec 8) (j : Nat) : Byte := k.slot.get 0xFF (64 * g.toNat + j)

/-- The INR entry that resolves destination `d` at local instance `inst` (R124). -/
def Bank.inrAt (k : Bank) (inst d : BitVec 16) : InrEnt :=
  if fld d 15 8 = fld inst 15 8 then k.inrMember.get {} (fld d 7 0).toNat else k.inrGroup.get {} (fld d 15 8).toNat

/-- Class c of the active bank. -/
def Block.rte (b : Block) (c : BitVec 12) : Rte := b.act.rteAt b.threads c
/-- Compiled fields of ring r in the active bank. -/
def Block.ringCfg (b : Block) (r : RingNo) : RingCfg := b.act.ringAt r
/-- The coalescing class of a ring (R125). -/
def Block.link (b : Block) (r : RingNo) : Rte := b.rte (b.ringCfg r).link

/-- The local instance number. -/
def Block.inst (b : Block) : BitVec 16 := fld (b.reg pgGLB 0x048) 15 0

/-- What a basic image gives a wired event (R142). -/
def basicWired (m : BasicImg) (e : Event) : EvaAttr :=
  let v := m.lc.getD (e.toNat / 128) 0x03F00000
  { vevent := e, prio := fld v 25 20, type := 0, owner := 0,
    cls := if bit m.ctl 0 then BitVec.ofNat 12 (2 + e.toNat) else 0 }

/-- What a basic image gives a message-range event taken from page 0 or from no page (R142). -/
def basicMsg (m : BasicImg) (e : Event) : EvaAttr :=
  { vevent := e, prio := fld m.msg 21 16, type := 0, owner := 0, cls := if bit m.ctl 1 then 1 else 0 }

/-- The address of the bucket of a key (R98). -/
def srcHash (tag : BitVec 24) (devevt : Event) : BitVec 24 :=
  let d := devevt.setWidth 24
  d ^^^ tag ^^^ (tag >>> 11) ^^^ (d <<< 4)

def srcBucket (k : Bank) (tag : BitVec 24) (devevt : Event) : SegAddr :=
  { k.srcBase with off := k.srcBase.off + 64 * BitVec.ofNat 64 ((srcHash tag devevt).toNat % 2 ^ k.srcOrder.toNat) }

/-- The address of the EVA entry of an event. -/
def evaAddr (k : Bank) (e : Event) : SegAddr := { k.evaBase with off := k.evaBase.off + 16 * e.setWidth 64 }

/-- The cache set of a key (R98). -/
def cacheSet : CKey → Nat
  | .src tag devevt => ((srcHash tag devevt >>> 15) &&& 0x1FF).toNat
  | .eva e => ((e ^^^ (e >>> 9)) &&& 0x1FF).toNat

end Sys2Proof.Machine
end

