-- ==== Sys2Proof/Machine/Xlate.lean ====
section
/-! DEFINITION. The translation unit (chapter 10): checks, TLB, walks, fault reports, and the cache-fill trackers that a
read takes once it has its physical address (R35). -/

namespace Sys2Proof.Machine

/-- The operations of Table 10-3. -/
def opFill : BitVec 4 := 0
def opRefresh : BitVec 4 := 1
def opMcs : BitVec 4 := 2
def opLoad : BitVec 4 := 3
def opRing : BitVec 4 := 4
def opIndex : BitVec 4 := 5
def opSpillW : BitVec 4 := 6
def opSpillR : BitVec 4 := 7
def opCtxR : BitVec 4 := 8
def opCtxW : BitVec 4 := 9
def opLog : BitVec 4 := 10

/-- The operation writes (Table 10-3). -/
def opWrites (op : BitVec 4) : Bool := op == 4 || op == 5 || op == 6 || op == 9 || op == 10

/-- What a translation answers: a physical address with the device mark, a fault with its walk level, or a walk. -/
inductive XRes where
  | ok (pa : BitVec 64) (dev : Bool)
  | fault (cause : BitVec 4) (level : BitVec 3)
  | wait
  deriving DecidableEq, Repr

/-- The rights of Table 10-3. -/
def rightsOk (q : XReq) (e : TlbEnt) : Bool :=
  (if opWrites q.op then e.w else e.r) && (if q.user then e.u else e.s)

/-- The virtual address of an access (R278), unbounded. -/
def xVa (d : Segm) (off : BitVec 64) : Nat := d.base.toNat * 4096 + off.toNat

/-- The checks of R278; none where they pass. -/
def segCheck (d : Segm) (off : BitVec 64) : Option (BitVec 4) :=
  if !d.valid then some 1
  else if d.limit.toNat ≤ off.toNat / 4096 ∨ 2 ^ 48 ≤ xVa d off then some 2 else none

/-- The TLB set (R283). -/
def tlbSet (s : BitVec 6) (vpn : BitVec 36) : Nat :=
  ((vpn ^^^ (vpn >>> 8) ^^^ s.setWidth 36) &&& 0xFF).toNat

/-- The physical address of an access. -/
def xPa (ppn : BitVec 52) (va : BitVec 48) : BitVec 64 := ppn ++ va.setWidth 12

/-- A report joins the queue of 16, or is lost (R293). -/
def Block.xReport (b : Block) (q : XReq) (cause : BitVec 4) (level : BitVec 3) : Block :=
  let r : Report :=
    { gt := b.gt, seg := q.seg, off := q.off.setWidth 48, cause, op := q.op, owner := q.owner, level, obj := q.obj }
  if b.xl.reports.length < 16 then { b with xl := { b.xl with reports := b.xl.reports ++ [r] } }
  else (b.cnt pgXU 0x0C8).flag pgXU 1

/-- A TLB entry an access uses becomes the most recently used of its set. -/
def tlbTouch (l : List TlbEnt) (e : TlbEnt) : List TlbEnt := { e with unused := false } :: l.erase e

/-- A translation with its page in a TLB entry: its rights decide. -/
def xHit (b : Block) (q : XReq) (e : TlbEnt) (va : BitVec 48) : Block × XRes :=
  if rightsOk q e then (b, .ok (xPa e.ppn va) e.dev) else (b.xReport q 4 1, .fault 4 1)

/-- A walk in flight for a page. -/
def walkOf (b : Block) (s : BitVec 6) (vpn : BitVec 36) : Option Nat :=
  (b.xl.walkers.cells.find? fun p => p.2.seg == s && p.2.va.extractLsb' 12 36 == vpn).map Prod.fst

/-- A translation (R278, R283, R286): a fault found at once is reported; a miss attaches to the walk of its page or waits
for a walker, and answers `wait`. -/
def xlate (b : Block) (q : XReq) : Block × XRes :=
  let d := b.segm q.seg
  match segCheck d q.off with
  | some c => (b.xReport q c 0, .fault c 0)
  | none =>
    let va : BitVec 48 := BitVec.ofNat 48 (xVa d q.off)
    let vpn : BitVec 36 := va.extractLsb' 12 36
    let i := tlbSet q.seg vpn
    let set := b.xl.tlb.get [] i
    match set.find? fun e => e.seg == q.seg && e.vpn == vpn with
    | some e => xHit { b with xl := { b.xl with tlb := b.xl.tlb.set [] i (tlbTouch set e) } } q e va
    | none =>
      let b := b.pmuEv 0x15 0
      match walkOf b q.seg vpn with
      | some w => ({ b with xl := { b.xl with walkers := b.xl.walkers.mapVals fun j x =>
          if j = w then { x with waiting := x.waiting ++ [q] } else x } }, .wait)
      | none => ({ b with xl := { b.xl with waitq := b.xl.waitq ++ [q] } }, .wait)

/-- A prefetched entry leaves the TLB unused (R415): its engine's prefetch shadow count rises. -/
def Block.unusedPrefetch (b : Block) (e : TlbEnt) : Block :=
  if e.unused then
    let n := e.seg.toNat % 16
    let g := b.engine n
    if g.prefetch = 255 then (b.cnt pgPMU 0x058).flag pgPMU 2
    else b.setEngine n { g with prefetch := g.prefetch + 1 }
  else b

/-- Install an entry (R283): an invalid way first, otherwise in place of the least recently used. -/
def tlbInstall (b : Block) (e : TlbEnt) : Block :=
  let i := tlbSet e.seg e.vpn
  let set := (b.xl.tlb.get [] i).filter fun x => !(x.seg == e.seg && x.vpn == e.vpn)
  let (keep, out) := if set.length < 4 then (set, none) else (set.dropLast, set.getLast?)
  let b := match out with
    | some x => b.unusedPrefetch x
    | none => b
  { b with xl := { b.xl with tlb := b.xl.tlb.set [] i (e :: keep) } }

/-- Remove the entries that pass from the TLB. -/
def tlbRemove (b : Block) (p : TlbEnt → Bool) : Block :=
  let out := b.xl.tlb.cells.flatMap fun c => c.2.filter p
  let b := out.foldl Block.unusedPrefetch b
  { b with xl := { b.xl with tlb :=
      ⟨(b.xl.tlb.cells.map fun c => (c.1, c.2.filter fun e => !p e)).filter fun c => !c.2.isEmpty⟩ } }

/-- An address lies in an enabled device window (R285). -/
def inDevWindow (b : Block) (pa : BitVec 64) : Bool :=
  (List.range 4).any fun n =>
    let lo := b.reg pgXU (0x0A0 + 8 * n)
    let hi := b.reg pgXU (0x0A4 + 8 * n)
    let order := 12 + (fld lo 5 0).toNat
    let base : Nat := (lo.toNat / 4096 * 4096) + 2 ^ 32 * hi.toNat
    bit lo 6 && pa.toNat / 2 ^ order == base / 2 ^ order

/-- The address of the table entry a walk reads next (R284). -/
def walkAddr (x : Walker) : BitVec 64 :=
  xPa x.table (((x.va >>> (12 + 9 * (x.level.toNat - 1))) &&& 0x1FF).setWidth 48 <<< 3)

/-- The lowest-numbered free walker. -/
def freeWalker (b : Block) : Option Nat := (List.range 64).find? fun w => (b.xl.walkers.find? w).isNone

/-- Start a walk in walker `w` for a first translation and those that attach to it (R286). -/
def beginWalk (b : Block) (w : Nat) (q : XReq) (more : List XReq) : Block :=
  let d := b.segm q.seg
  let x : Walker := { seg := q.seg, va := BitVec.ofNat 48 (xVa d q.off), level := 4, table := d.root, dev := d.dev,
                      waiting := q :: more }
  ({ b with xl := { b.xl with walkers := b.xl.walkers.insert w x } }.cnt pgXU 0x0C0).pmuEv 0x16 0

/-- The virtual page of a request. -/
def reqVpn (b : Block) (q : XReq) : BitVec 36 := (BitVec.ofNat 48 (xVa (b.segm q.seg) q.off)).extractLsb' 12 36

/-- A prefetch walk of the page at an offset (R287): none where a condition fails, the page is in the TLB or a walk of it
is in flight (DEDUCED, log 8). It serves no operation; one whose first table lies in a device window ends at once and installs
nothing. -/
def prefetch (b : Block) (seg : BitVec 6) (off : BitVec 64) : Block :=
  let d := b.segm seg
  let vpn : BitVec 36 := (BitVec.ofNat 48 (xVa d off)).extractLsb' 12 36
  if !b.regBit pgXU 0x040 0 || d.dev || (segCheck d off).isSome || b.xl.walkers.cells.length > 48 then b
  else if (b.xl.tlb.get [] (tlbSet seg vpn)).any fun e => e.seg == seg && e.vpn == vpn then b
  else if (walkOf b seg vpn).isSome then b
  else match freeWalker b with
    | none => b
    | some w =>
      let b := (beginWalk b w { seg, off, op := 3, cont := .prefetch } []).cnt pgXU 0x0CC
      match b.xl.walkers.find? w with
      | some x => if inDevWindow b (walkAddr x) then { b with xl := { b.xl with walkers := b.xl.walkers.erase w } } else b
      | none => b

/-! ### Cache-fill trackers -/

/-- Fills and refresh reads of a station that hold one of its own 64 trackers. -/
def ownTrk (s : Station) : Nat :=
  (s.fills ++ s.refreshes).countP fun f => match f.phase with
    | .issued _ _ false => true
    | _ => false

/-- Shared trackers in use (R35). -/
def sharedTrk (b : Block) : Nat :=
  b.otherFills + (b.stn.cells.map fun p => p.2.fills.countP fun f => match f.phase with
    | .issued _ _ true => true
    | _ => false).sum

/-- What a station read takes: one of its own trackers, a shared one, or none (R35). A refresh takes only its own. -/
def stnTracker (b : Block) (k : Nat) (refresh : Bool) : Option Bool :=
  if ownTrk (b.station k) < 64 then some false
  else if !refresh && sharedTrk b < 512 then some true else none

/-- Lines of another requester than a station take shared trackers (R35). -/
def takeShared (b : Block) (n : Nat) : Block := { b with otherFills := b.otherFills + n }

/-- Their trackers come back with the responses. -/
def giveShared (b : Block) (n : Nat) : Block := { b with otherFills := b.otherFills - n }

/-- A read waits for a tracker. -/
def waitTracker (b : Block) (c : Cont) : Block := { b with xl := { b.xl with trkWait := b.xl.trkWait ++ [c] } }

/-- Issue up to `n` lines of a read, each with a shared tracker of its own (R35, R39); the lines that find none wait. -/
def gotAddr (b : Block) (n : Nat) (c : Cont) (pa : BitVec 64) (dev : Bool) : Block × Phase :=
  let k := min n (512 - sharedTrk b)
  let b := takeShared b k
  if k = n then (b, .issued pa dev true) else (waitTracker b c, .noTracker pa dev (n - k))

/-- Start a read of `n` lines for `c` by a requester other than a station: what its phase becomes, or the fault. -/
def startRead (b : Block) (n : Nat) (q : XReq) : Block × Sum Phase (BitVec 4 × BitVec 3) :=
  match xlate b q with
  | (b, .ok pa dev) =>
    let r := gotAddr b n q.cont pa dev
    (r.1, .inl r.2)
  | (b, .wait) => (b, .inl .walk)
  | (b, .fault c l) => (b, .inr (c, l))

end Sys2Proof.Machine
end

