-- ==== Sys2Proof/Machine/Context.lean ====
section
/-! DEFINITION. A context's ranking (chapter 2): qualification, the shortlist, the active stack; and what a context bank
does with them at its port: inserts, spills, wakes, refills, thread operations (chapters 2, 5). -/

namespace Sys2Proof.Machine

/-! ### The record of one context -/

/-- The qualification test (R62). -/
def qualifies (x : Ctx) (p : Prio) : Bool :=
  if x.gate.toNat ≤ p.toNat then false
  else if x.runp = 64 then true
  else decide (p.toNat / 2 ^ min x.pgran.toNat 6 < x.runp.toNat / 2 ^ min x.pgran.toNat 6)

/-- RUNP (R61, R73): the priority of the topmost activation that is not dropped, or 64. The stack's head is its top. -/
def runpOf (st : List Act) : BitVec 7 :=
  match st.find? (!·.dropped) with
  | some a => a.prio.setWidth 7
  | none => 64

/-- The context with another stack; RUNP follows it. -/
def Ctx.withStack (x : Ctx) (st : List Act) : Ctx := { x with stack := st, runp := runpOf st }

/-- SPILL_BEST (R66). -/
def spillBest (x : Ctx) : Option Nat := lowest x.spillMap

/-- Two entries with one key (R57). -/
def sameKey (e f : Entry) : Bool := e.pevent == f.pevent && e.banked == f.banked

/-- A merge (R57): counts add, a payload stays known, the place does not change. -/
def Entry.mergedWith (e f : Entry) : Entry :=
  { e with merge := satAdd e.merge (1 + f.merge.toNat), payload := e.payload || f.payload }

/-- Put an entry behind every entry that is at least as urgent (R64). -/
def rankIn (e : Entry) : List Entry → List Entry
  | [] => [e]
  | f :: r => if e.prio.toNat < f.prio.toNat then e :: f :: r else f :: rankIn e r

/-- What an insert does (R66). -/
inductive InsOut where
  | merged
  | placed
  | displaced (v : Entry)
  | toBack
  deriving DecidableEq, Repr

/-- The insert of R66 on a record. -/
def insertEntry (x : Ctx) (e : Entry) : Ctx × InsOut :=
  if x.shortlist.any (sameKey · e) then
    ({ x with shortlist := modifyFirst (sameKey · e) (·.mergedWith e) x.shortlist }, .merged)
  else if (match spillBest x with
      | some p => decide (p ≤ e.prio.toNat)
      | none => false) then (x, .toBack)
  else
    let l := rankIn e x.shortlist
    if l.length ≤ 16 then ({ x with shortlist := l }, .placed)
    else match l.getLast? with
      | some v => ({ x with shortlist := l.dropLast }, .displaced v)
      | none => ({ x with shortlist := l }, .placed)

/-- Whether an insert would spill (R158). -/
def wouldSpill (x : Ctx) (e : Entry) : Bool :=
  if x.shortlist.any (sameKey · e) then false
  else if (match spillBest x with
      | some p => decide (p ≤ e.prio.toNat)
      | none => false) then true
  else x.shortlist.length == 16 &&
    (match x.shortlist.getLast? with
      | some v => decide (v.prio.toNat ≤ e.prio.toNat)
      | none => false)

/-- A refilled entry (R66): merged with its key, else at the end. -/
def refillEntry (l : List Entry) (f : Entry) : List Entry :=
  if l.any (sameKey · f) then modifyFirst (sameKey · f) (·.mergedWith f) l else l ++ [f]

/-- The value a successful ACK returns (Table 2-9). -/
def ackValue (e : Entry) : Word :=
  e.vevent.setWidth 32 ||| at' e.prio 20 ||| flagAt e.payload 26 ||| flagAt (e.merge != 0) 27

/-- What a failed ACK returns (R73). -/
def noEvent : Word := 0x000FFFFF

/-- A spill entry (Table 2-7). -/
def entryBits (e : Entry) : BitVec 128 :=
  at' e.pevent 0 ||| at' e.prio 20 ||| flagAt e.payload 26 ||| flagAt e.banked 27 ||| at' e.cls 28 ||| at' e.vevent 32 |||
    at' e.merge 52 ||| at' e.ring 64 ||| flagAt e.ringValid 78

/-- A spill entry as it is read. -/
def entryOf (x : BitVec 128) : Entry :=
  { pevent := fld x 19 0, prio := fld x 25 20, payload := bit x 26, banked := bit x 27, cls := fld x 29 28,
    vevent := fld x 51 32, merge := fld x 59 52, ring := fld x 77 64, ringValid := bit x 78 }

/-- A spill bucket descriptor (Table 2-6): HEAD and COUNT; none when it is corrupt (R70). -/
def descOf (x : BitVec 128) : Option (Nat × Nat) :=
  let h := (fld x 3 0).toNat
  let n := (fld x 11 8).toNat
  if 14 < h ∨ 15 < n then none else some (h, n)

/-- A spill bucket descriptor laid out. -/
def descBytes (h n : Nat) : List Byte := leBytes 16 (h + 256 * n)

/-- A banked event as an entry (R46). -/
def bankedEntry (ev : Event) (prio : Prio) (cls : BitVec 2) : Entry :=
  { pevent := ev, prio, banked := true, cls, vevent := ev }

/-! ### The block's view of contexts -/

/-- The owner is the PMF or an ACTIVE VIF (R260). -/
def Block.ownerActive (b : Block) (o : OwnerNo) : Bool :=
  o == 0 || (b.vifOf (o.toNat - 1)).state == .active

/-- The tag of an operation of an owner (R260): its generation now; DRAIN marks only what exists at its grant (R265). -/
def Block.tagOf (b : Block) (o : OwnerNo) : Tag :=
  if o = 0 then {} else { owner := o, gen := (b.vifOf (o.toNat - 1)).gen }

/-- The thread's slice link is up (R206). -/
def Block.linkUp (b : Block) (t : Nat) : Bool := b.up.contains (t / 4)

/-- A resident context is current and its thread reachable (R204, R206). -/
def Block.current (b : Block) (x : Ctx) : Bool :=
  match x.seat with
  | some i => b.linkUp (i / 2)
  | none => false

/-- A context in a LOAD, UNLOAD, MOVE, eviction or refill (R225). -/
def Block.ctxBusy (b : Block) (c : CtxNo) : Bool :=
  (b.loads.find? c.toNat).isSome || (b.leave.find? c.toNat).isSome ||
    (match b.rec? c with
      | some x => x.moving || x.refill.isSome || x.refillOn
      | none => false)

/-- A context whose inserts are held until it is loaded (Table 5-3, R362): in a LOAD; after Intermission one that is still to be
loaded again, or any that is not resident while its bank has not read all of its entries in the save area. -/
def Block.awaited (b : Block) (c : CtxNo) : Bool :=
  (b.loads.find? c.toNat).isSome || (b.pwr.saved.any (·.ctx == c)) ||
    ((b.pwr.lines.find? (ctxBank c)).isSome && (b.rec? c).isNone)

/-- Pinned, explicitly or because it is current or in a handoff (R164, R226). -/
def Ctx.isPinned (x : Ctx) : Bool := x.pinned || x.seat.isSome || x.moving

/-- Resident contexts of a partition that pass. -/
def Block.partCount (b : Block) (n : Nat) (p : Ctx → Bool) : Nat := b.ctx.countP fun c x => c % 16 == n && p x

/-- Pinned contexts of a partition (RE_PART.PINNED). -/
def Block.pinnedIn (b : Block) (n : Nat) : Nat := b.partCount n Ctx.isPinned

/-- Resident contexts of a partition (RE_PART.RESIDENT). -/
def Block.residentIn (b : Block) (n : Nat) : Nat := b.partCount n fun _ => true

/-- An operation joins the intake of requester 16 of a context bank (R444). -/
def Block.ask16 (b : Block) (i : Ins) : Block :=
  let q := ctxBank i.ctx
  b.setBank q { b.bank q with in16 := (b.bank q).in16 ++ [.ins i] }

/-- An operation joins the intake of requester 17, the Carousel (R444). -/
def Block.ask17 (b : Block) (i : Ins) : Block :=
  let q := ctxBank i.ctx
  b.setBank q { b.bank q with car17 := (b.bank q).car17 ++ [.ins i] }

/-- A record request joins engine n's queue for the ring's writer (R152). -/
def Block.reqRecord (b : Block) (n : Nat) (r : RecReq) : Block :=
  let e := b.engine n
  b.setEngine n { e with recq := e.recq.upd [] (ringWriter r.ring) (· ++ [r]) }

/-- A cause of a VIF (R266): its change from 0 to 1 makes the VIF notification. -/
def Block.vifCause (b : Block) (v : Nat) (i : Nat) : Block :=
  let x := b.vifOf v
  if bit x.cause i then b
  else
    let b := b.setVif v { x with cause := setBit x.cause i true }
    if x.noteEn then
      let off := 0x200 + 4 * (v / 32)
      let b := b.setReg pgVMGR off (setBit (b.reg pgVMGR off) (v % 32) true)
      (b.ask16 { ctx := x.noteCtx, entry := bankedEntry 0x00909 x.notePrio 0 }).flag pgVMGR 4
    else b

/-- The same for an owner code; nothing for the PMF. -/
def Block.ownerCause (b : Block) (o : OwnerNo) (i : Nat) : Block := if o = 0 then b else b.vifCause (o.toNat - 1) i

/-- RE_LASTERR of a partition (R172). -/
def Block.reErr (b : Block) (c : CtxNo) (cause : BitVec 4) : Block :=
  b.setReg (pgRE (ctxBank c)) 0x098 (c.setWidth 32 ||| at' cause 16)

/-- A dropped insert (R149). -/
def Block.ctxInvalid (b : Block) (c : CtxNo) : Block :=
  (((b.cnt (pgRE (ctxBank c)) 0x094).reErr c 1).flag (pgRE (ctxBank c)) 2)

/-- The same where the table entry's read faulted (R149, RE_LASTERR cause 5). -/
def Block.entryFault (b : Block) (c : CtxNo) : Block := (b.ctxInvalid c).reErr c 5

/-- A status bit in the record of a context that is resident, or on its way out (R224); none where it has no record. -/
def Block.ctxFlag (b : Block) (c : CtxNo) (i : Nat) : Option Block :=
  match b.rec? c with
  | some x => some (b.setRec c { x with flags := setBit x.flags i true })
  | none => (b.leave.find? c.toNat).map fun l =>
      { b with leave := b.leave.insert c.toNat { l with x := { l.x with flags := setBit l.x.flags i true } } }

/-- A push that dropped an entry (R71): the flag in the record of a resident context, else cause 2 in RE_LASTERR. R71 names
RE_LASTERR for a context that is not resident only, and R172 lists cause 2 without that limit: that a resident context's drop
leaves RE_LASTERR as it is, is the model's choice (DESIGN CHOICE, log 69). -/
def Block.spillDrop (b : Block) (c : CtxNo) : Block :=
  let b := (b.cnt (pgRE (ctxBank c)) 0x074).flag (pgRE (ctxBank c)) 1
  (b.ctxFlag c 4).getD (b.reErr c 2)

/-- A corrupt or unreadable bucket (R70, Table 10-5). -/
def Block.spillBad (b : Block) (c : CtxNo) : Block := (b.ctxFlag c 5).getD (b.reErr c 6)

/-! ### Wakes (R161, R162) -/

/-- A wake of reason NONRESIDENT (1) or NOT_CURRENT (2), filtered; the target fields come from the record or the table
entry. -/
def Block.wake (b : Block) (c : CtxNo) (reason : BitVec 4) (wctx : CtxNo) (wring : RingNo) (wringV : Bool) : Block :=
  let n := ctxBank c
  let k := b.bank n
  let i := (fld c 11 4).toNat
  if k.filter.find? i = some (fld c 15 12) then b.cnt (pgRE n) 0x08C
  else
    let b := (b.setBank n { k with filter := k.filter.insert i (fld c 15 12) }).cnt (pgRE n) 0x088
    let prio : Prio := fld (b.reg (pgRE n) 0x04C) 5 0
    let b := if wringV then
        b.reqRecord n { ring := wring, rcd := { vevent := 0x00905, prio, type := 0xA, gt := b.gt,
                                                w1 := c.setWidth 32 ||| at' reason 16 } }
      else b
    b.ask16 { ctx := wctx, entry := bankedEntry 0x00905 prio 0, wakes := false }

/-- A context's wake filter entry is cleared (R162). -/
def Block.unfilter (b : Block) (c : CtxNo) : Block :=
  let n := ctxBank c
  let k := b.bank n
  let i := (fld c 11 4).toNat
  if k.filter.find? i = some (fld c 15 12) then b.setBank n { k with filter := k.filter.erase i } else b

/-! ### The residency and spill engine (R163) -/

/-- A write of a context's spill area, or of its table entry, that memory has not accepted. -/
def Block.ctxWrites (b : Block) (c : CtxNo) (wb : Bool) : Bool :=
  let w := b.writer (c.toNat % 4)
  let k : WKind := if wb then .wb c else .spill c
  w.out.any (·.kind == k) || w.wbq.any (·.kind == k) || w.ready.any (·.m.kind == k)

/-- The table entry of a context (R147). -/
def Block.tableAddr (b : Block) (c : CtxNo) : BitVec 6 × BitVec 64 :=
  let n := ctxBank c
  let lo := b.reg (pgRE n) 0x044
  let hi := b.reg (pgRE n) 0x048
  (fld (b.reg (pgRE n) 0x040) 5 0, (hi ++ lo) + 128 * BitVec.ofNat 64 (c.toNat / 16))

/-- The partition's context table is in use. -/
def Block.tableOn (b : Block) (c : CtxNo) : Bool := b.regBit (pgRE (ctxBank c)) 0x040 8

/-- Push `s` joins the engine's queue. -/
def Block.addSpill (b : Block) (s : Spill) : Block :=
  let q := ctxBank s.ctx
  let k := b.bank q
  b.setBank q { k with spills := k.spills ++ [s] }

/-- Change the first push of a context. -/
def Block.modSpill (b : Block) (c : CtxNo) (f : Spill → Spill) : Block :=
  let q := ctxBank c
  let k := b.bank q
  b.setBank q { k with spills := modifyFirst (·.ctx == c) f k.spills }

/-- The first push of a context leaves the engine. -/
def Block.dropSpill (b : Block) (c : CtxNo) : Block :=
  let q := ctxBank c
  let k := b.bank q
  b.setBank q { k with spills := eraseFirst (·.ctx == c) k.spills }

/-- The first push of a context. -/
def Block.spillOf (b : Block) (c : CtxNo) : Option Spill := (b.bank (ctxBank c)).spills.find? (·.ctx == c)

/-- The offset of bucket p of a spill area (R69). -/
def bucketOff (page : BitVec 36) (p : Prio) : BitVec 64 :=
  (page.setWidth 64 <<< 12) + 256 * BitVec.ofNat 64 p.toNat

/-- Writes of a context to one page: translated, then issued by writer c[1:0] as requester 1; the result of a fault. -/
inductive WbRes where
  | issued
  | wait
  | fault
  deriving DecidableEq, Repr

/-- The bandwidth a granted write takes of its port (R249). -/
def Writer.spend (w : Writer) (n : Nat) : Writer := { w with tokens := w.tokens - 8 * n }

/-- A dirty-log write. -/
def MemWrite.isLog (m : MemWrite) : Bool := match m.kind with
  | .log _ => true
  | _ => false

/-- Memory accepts the first write that passes: it leaves the port, and with it the dirty-log writes issued before it on the
port, whose acceptance has no command of its own (R429; log 47). -/
def acceptFirst (p : MemWrite → Bool) : List MemWrite → List MemWrite
  | [] => []
  | m :: r => if p m then r else if m.isLog then acceptFirst p r else m :: acceptFirst p r

/-- 32-byte beats of a write (R248). -/
def beats32 (n : Nat) : Nat := (n + 31) / 32

/-! #### The writer's memory port (R249, R250, Table 1-5) -/

/-- The bytes of a record in memory. -/
def Rec.bytes (r : Rec) : Nat := if r.pf then 64 else 16

/-- A record of a ring that is admitted and whose write is not granted. -/
def Staged.unissued (r : RingNo) (x : Staged) : Bool := x.ring == r && x.ph != .queued && x.ph != .issued

/-- The records that go out in one write from the first on: those of its 64-byte line that are in staging with it, or the one
alone in a segment of class device (R242, R279). -/
def lineGroup (dev : Bool) : List Staged → List Staged
  | [] => []
  | x :: r => if dev then [x] else x :: (r.takeWhile fun y => y.idx.toNat / 4 == x.idx.toNat / 4)

/-- A write of requester 0: a ring's next records, or its index write. -/
structure HeadWrite where
  owner : OwnerNo
  seq : Nat
  ring : RingNo
  index : Bool
  bytes : Nat
  ready : Bool
  deriving DecidableEq, Repr

/-- What a staged record would be written with. -/
def Writer.recWrite (k : Writer) (x : Staged) : HeadWrite :=
  let (ready, dev) := match x.ph with
    | .ready _ dev => (true, dev)
    | _ => (false, false)
  { owner := x.owner, seq := x.seq, ring := x.ring, index := false, ready
    bytes := ((lineGroup dev ((k.recs.filter (Staged.unissued x.ring)).dropWhile (· != x))).map fun y => y.rcd.bytes).sum }

/-- The writes of requester 0 that are admitted and not granted. -/
def Writer.heads (k : Writer) : List HeadWrite :=
  ((k.recs.filter fun x => x.ph != .queued && x.ph != .issued).map k.recWrite) ++
    k.idxWait.map fun i => { owner := i.owner, seq := i.seq, ring := i.ring, index := true, bytes := 16, ready := i.pa.isSome }

/-- The longest-waiting of some writes. -/
def oldestWrite : List HeadWrite → Option HeadWrite
  | [] => none
  | h :: r => match oldestWrite r with
    | some g => if g.seq < h.seq then some g else some h
    | none => some h

/-- The head of an owner's queue: its first write in admission order (R250). -/
def Writer.ownerHead (k : Writer) (o : OwnerNo) : Option HeadWrite := oldestWrite (k.heads.filter (·.owner == o))

/-- The write that requester 0 presents: the longest-waiting of the owner queues' heads whose owner has tokens for it and whose
address is known (R250). -/
def Writer.headWrite (k : Writer) : Option HeadWrite :=
  oldestWrite ((k.heads.map (·.owner)).eraseDups.filterMap fun o =>
    (k.ownerHead o).filter fun h => h.ready && decide (8 * h.bytes ≤ k.ownTok.get 1024 o.toNat))

/-- The write that requester 1 or 2 presents. -/
def Writer.portHead (k : Writer) (i : Nat) : Option PortWrite := k.ready.find? (·.req == i)

/-- A requester's write is eligible: the port has tokens for it (R249). -/
def Writer.eligible (k : Writer) (i : Nat) : Bool :=
  match (if i = 0 then k.headWrite.map HeadWrite.bytes else (k.portHead i).map fun p => p.m.bytes.length) with
  | some n => decide (8 * n ≤ k.tokens)
  | none => false

/-- The requester that the arbiter of a writer's memory port grants next. -/
def Block.wmemPick (b : Block) (w : Nat) : Option Nat := b.pick (.wmem w) (b.writer w).eligible

/-- A write joins those that wait for a writer's memory port. -/
def Block.present (b : Block) (w : Nat) (p : PortWrite) : Block :=
  b.setWriter w { b.writer w with ready := (b.writer w).ready ++ [p] }

/-! #### Dirty logging (R269, R270) -/

/-- A page of a VIF's logged write: a miss in the filter installs it and appends an entry to the channel's log, which is
translated and written through the same writer; a fault sets OVF. -/
def Block.logPage (b : Block) (w : Nat) (o : OwnerNo) (seg : BitVec 6) (pa : BitVec 64) : Block :=
  let v := o.toNat - 1
  let x := b.vifOf v
  if o = 0 || !x.dlEn then b else
    let ppn : BitVec 52 := pa.extractLsb' 12 52
    let set := ((ppn ^^^ (ppn >>> 10) ^^^ BitVec.ofNat 52 v) &&& 0x3FF).toNat
    let ways := b.vm.filter.get [] set
    let key := (BitVec.ofNat 12 v, seg, ppn)
    if ways.contains key then b else
      let ch := x.dlCh
      let d := b.dlCh ch.toNat
      let b := { b with vm := { b.vm with filter := b.vm.filter.set [] set (key :: ways.take 3) } }
      if 2 ^ d.order.toNat ≤ (d.pi - d.ci).toNat then
        ((b.setDlCh ch.toNat { d with ovf := true }).flag pgVMGR 5).vifCause v 5
      else
        let off := d.base.setWidth 64 + 8 * BitVec.ofNat 64 (d.pi.toNat % 2 ^ d.order.toNat)
        let e : BitVec 64 := ppn.setWidth 64 ||| at' seg 52
        let b := b.setDlCh ch.toNat { d with pi := d.pi + 1 }
        let b := if d.thresh != 0 && (d.pi + 1 - d.ci).toNat == d.thresh.toNat then b.vifCause v 4 else b
        match xlate b { seg := d.seg, off, op := opLog, owner := o, obj := ch.setWidth 16, cont := .log w ch e, tag := b.tagOf o } with
        | (b, .ok pa dev) => b.present w { req := 2, seg := d.seg, m :=
            { kind := .log ch, pa, bytes := leBytes 8 e.toNat, dev, tag := b.tagOf o } }
        | (b, .wait) => b
        | (b, .fault _ _) => ((b.setDlCh ch.toNat { b.dlCh ch.toNat with ovf := true }).flag pgVMGR 5).vifCause v 5

/-- A write leaves a ring writer's port: its beats, its bandwidth, its page in the dirty log. -/
def Block.issueWrite (b : Block) (w : Nat) (m : MemWrite) (seg : BitVec 6) : Block :=
  let k := b.writer w
  let b := (b.setWriter w { k.spend m.bytes.length with out := k.out ++ [m] }).pmuEv 0x13 w (beats32 m.bytes.length)
  b.logPage w m.tag.owner seg m.pa

/-- The place of an offset in its page. -/
def inPage (off : BitVec 64) : Nat := off.toNat % 4096

/-- The memory port of a writer grants what requesters 1 and 2 wait with, as long as the arbiter picks them; the grant of a
ring's write has a command of its own (log 70). -/
def Block.grantPort (b : Block) (w : Nat) : Nat → Block
  | 0 => b
  | fuel + 1 =>
    match b.wmemPick w with
    | none | some 0 => b
    | some i => match (b.writer w).portHead i with
      | some p =>
        let k := b.writer w
        let b := (b.setWriter w { k with ready := k.ready.erase p }).granted (.wmem w) i
        Block.grantPort (b.issueWrite w p.m p.seg) w fuel
      | none => b

/-- Present the writes of one page, in order; `pa` is the physical address of the first. A full bucket's back entry is dropped
with them (R71). -/
def Block.issueWb (b : Block) (q : WbReq) (pa : BitVec 64) (dev : Bool) : Block :=
  let w := q.ctx.toNat % 4
  let b := if q.full then b.spillDrop q.ctx else b
  let b := q.writes.foldl (fun b x => b.present w { req := 1, seg := q.seg, m :=
    { kind := q.kind, pa := (pa &&& ~~~0xFFF#64) + BitVec.ofNat 64 x.1, bytes := x.2, dev, tag := q.tag } }) b
  b.grantPort w 64

/-- Writes for a context (R167, R224, R163): translated once, for one page. -/
def Block.sendWb (b : Block) (q : WbReq) (op : BitVec 4) : Block × WbRes :=
  let w := q.ctx.toNat % 4
  match xlate b { seg := q.seg, off := q.off, op, owner := q.tag.owner, obj := q.ctx, cont := .wb w } with
  | (b, .ok pa dev) => (b.issueWb q pa dev, .issued)
  | (b, .wait) => (b.setWriter w { b.writer w with wbq := (b.writer w).wbq ++ [q] }, .wait)
  | (b, .fault _ _) => (b, .fault)

/-- A spill write that faulted (Table 10-5): the push is lost whole. -/
def Block.spillLost (b : Block) (c : CtxNo) : Block := (b.dropSpill c).spillDrop c

/-- The push of an entry into its bucket with the descriptor as it was read (R69 to R71). -/
def Block.pushEntry (b : Block) (s : Spill) (seg : BitVec 6) (page : BitVec 36) (d : Option (Nat × Nat)) : Block :=
  let (h, n) := d.getD (0, 0)
  if n = 15 ∧ !s.front then
    -- the entry being pushed is dropped; the descriptor stays
    (b.dropSpill s.ctx).spillDrop s.ctx
  else
    let n' := if n = 15 then 14 else n
    let slot := if s.front then (h + 14) % 15 else (h + n') % 15
    let h' := if s.front then slot else h
    let off := bucketOff page s.entry.prio
    let q : WbReq :=
      { kind := .spill s.ctx, ctx := s.ctx, seg, off := off + BitVec.ofNat 64 (16 + 16 * slot), tag := s.tag, full := decide (n = 15),
        writes := [(inPage off + 16 + 16 * slot, leBytes 16 (entryBits s.entry).toNat), (inPage off, descBytes h' (n' + 1))] }
    match b.sendWb q opSpillW with
    | (b, .fault) => b.spillLost s.ctx
    | (b, _) => (b.modSpill s.ctx fun s => { s with ph := .written 2 }).pmuEv 0x0D (ctxBank s.ctx)

/-- The descriptor read of a push answers (R70, R163): a read error or a corrupt descriptor takes the bucket as empty. -/
def Block.pushDesc (b : Block) (s : Spill) (r : MemResp) : Block :=
  match s.known with
  | none => b
  | some (seg, page, _) =>
    match r with
    | .ok bytes => match descOf (leBits 128 (bytes.take 16)) with
      | some d => b.pushEntry s seg page (some d)
      | none => (b.spillBad s.ctx).pushEntry s seg page none
    | _ => (b.spillBad s.ctx).pushEntry s seg page none

/-- Start the descriptor read of a push whose spill area is known. -/
def Block.readDesc (b : Block) (s : Spill) : Block :=
  match s.known with
  | none => b
  | some (seg, page, o) =>
    let q : XReq := { seg, off := bucketOff page s.entry.prio, op := opSpillR, owner := o, obj := s.ctx,
                      cont := .spillDesc s.ctx }
    match startRead b 1 q with
    | (b, .inl ph) => b.modSpill s.ctx fun s => { s with ph := .descRead ph, tag := b.tagOf o }
    | (b, .inr _) => (b.spillBad s.ctx).pushEntry { s with tag := b.tagOf o } seg page none

/-- Start the table-entry read of a push for a context that is not resident (R148); a fault drops the insert (R149). -/
def Block.readEntry (b : Block) (s : Spill) : Block :=
  let (seg, off) := b.tableAddr s.ctx
  match startRead b 1 { seg, off := off + 0x40, op := opCtxR, obj := s.ctx, cont := .spillEntry s.ctx } with
  | (b, .inl ph) => b.modSpill s.ctx fun s => { s with ph := .entryRead ph }
  | (b, .inr _) => (b.dropSpill s.ctx).entryFault s.ctx

/-- Pushes of a partition in flight (R163). -/
def CBank.inFlight (k : CBank) : Nat := k.spills.countP (·.ph != .queued)

/-- Start the next push of a context if the engine may (R163, R66): 16 in flight, one per context, no refill of it, and no
earlier write of its spill area, or of its table entry, outstanding. -/
def Block.startSpill (b : Block) (c : CtxNo) : Block :=
  match b.spillOf c with
  | none => b
  | some s =>
    if s.ph != .queued || 16 ≤ (b.bank (ctxBank c)).inFlight then b
    else if (match b.rec? c with
        | some x => x.refill.isSome
        | none => false) then b
    else match s.known with
      | some _ => if b.ctxWrites c false then b else b.readDesc s
      | none => if b.ctxWrites c true then b else b.readEntry s

/-- Start what the engine of a bank may start, oldest first. -/
def Block.kickSpills (b : Block) (q : Nat) : Block :=
  ((b.bank q).spills.map Spill.ctx).foldl Block.startSpill b

/-- A push of a resident context's entry (R66): the map shows its queue as not empty from now on. A context without a
spill area drops it (R141). -/
def Block.push (b : Block) (c : CtxNo) (e : Entry) (front : Bool) : Block :=
  match b.rec? c with
  | none => b
  | some x =>
    if x.basic then b.spillDrop c
    else
      let b := b.setRec c { x with spillMap := setBit x.spillMap e.prio.toNat true }
      b.addSpill { ctx := c, entry := e, front, known := some (x.spillSeg, x.spillPage, x.owner),
                   tag := b.tagOf x.owner }

/-! ### Refills (R66) -/

/-- Start the read of the next bucket of a refill; a faulted one is taken as empty (Table 10-5) and the next is tried. -/
def Block.readBucket (b : Block) (c : CtxNo) : Nat → Block
  | 0 => b
  | n + 1 =>
    match b.rec? c with
    | none => b
    | some x =>
      match spillBest x with
      | none => b
      | some p =>
        let prio : Prio := BitVec.ofNat 6 p
        let q : XReq := { seg := x.spillSeg, off := bucketOff x.spillPage prio, op := opSpillR, owner := x.owner, obj := c,
                          cont := .refill c }
        let descs := match x.refill with
          | some r => r.descs
          | none => []
        match startRead b 4 q with
        | (b, .inl phase) => b.modRec c fun x => { x with refill := some { prio, phase, tag := b.tagOf x.owner, descs } }
        | (b, .inr _) => Block.readBucket
            (b.modRec c fun x => { x with spillMap := setBit x.spillMap p false, flags := setBit x.flags 5 true }) c n

/-- Start a refill when fewer than 4 entries remain, or go on with one that stands still, where the map is not empty, none is in
flight, and every earlier push of the context has been accepted (R66). -/
def Block.maybeRefill (b : Block) (c : CtxNo) : Block :=
  match b.rec? c with
  | none => b
  | some x =>
    if (x.shortlist.length < 4 || (x.refillOn && decide (x.shortlist.length < 8))) && x.spillMap != 0 && x.refill.isNone && !x.basic &&
        (b.spillOf c).isNone && !b.ctxWrites c false then
      let b := if x.refillOn then b else (b.setRec c { x with refillOn := true }).pmuEv 0x0E (ctxBank c)
      b.readBucket c 64
    else b

/-- The descriptors a refill changed are written back as spill writes. -/
def Block.writeDescs (b : Block) (c : CtxNo) (x : Ctx) (ds : List (Prio × List Byte)) : Block :=
  ds.foldl (fun b d =>
    match b.sendWb { kind := .spill c, ctx := c, seg := x.spillSeg, off := bucketOff x.spillPage d.1,
                     writes := [(inPage (bucketOff x.spillPage d.1), d.2)], tag := b.tagOf x.owner } opSpillW with
    | (b, .fault) => b.spillDrop c
    | (b, _) => b) b

/-! ### Inserts -/

/-- The insert of R66 into a resident context, which is then re-evaluated (R63); answers whether it merged (R239). -/
def Block.insertAt (b : Block) (c : CtxNo) (x : Ctx) (e : Entry) : Block × Bool :=
  match insertEntry x e with
  | (x, .merged) => ((b.setRec c { x with dirty := true }).pmuEv 0x0C (ctxBank c), true)
  | (x, .placed) => (b.setRec c { x with dirty := true }, false)
  | (x, .displaced v) =>
    let b := b.setRec c { x with dirty := true }
    (if v.cls = 2 then b.cnt (pgRE (ctxBank c)) 0x084
      else (b.push c v true).kickSpills (ctxBank c), false)
  | (x, .toBack) =>
    (((b.setRec c { x with dirty := true }).push c e false).kickSpills (ctxBank c), false)

/-- An insert for a context that is not resident joins the engine's queue (R68, R163), or is dropped (R149). -/
def Block.insertAway (b : Block) (i : Ins) : Block :=
  if b.tableOn i.ctx then
    (b.addSpill { ctx := i.ctx, entry := i.entry, ins := some i }).kickSpills (ctxBank i.ctx)
  else b.ctxInvalid i.ctx

/-- The user doorbell (R158). -/
def userDoorbell (i : Ins) : Ins :=
  { ctx := i.ctx, entry := bankedEntry 0x00906 i.entry.prio 1, wakes := i.wakes, guard := i.guard, old := i.old }

/-- A granted insert (R160, R158, R260, R273); answers whether it merged into a shortlist entry. -/
def Block.doInsert (b : Block) (i : Ins) : Block × Bool :=
  match b.rec? i.ctx with
  | some x =>
    if i.old.contains x.owner then (b.cnt pgVMGR 0x0B4, false)
    else if !b.ownerActive x.owner then (b.cnt pgVMGR 0x0B0, false)
    else if (match i.guard with
        | some o => o != x.owner
        | none => false) then (b.cnt pgVMGR 0x0BC, false)
    else if i.entry.cls = 2 then
      if b.current x && i.userTag == x.utag && !wouldSpill x i.entry then b.insertAt i.ctx x i.entry
      else
        let b := b.cnt (pgRE (ctxBank i.ctx)) 0x080
        if i.urgent then ((b.insertAt i.ctx x (userDoorbell i).entry).1, false) else (b, false)
    else b.insertAt i.ctx x i.entry
  | none =>
    -- class U is never placed in a context that is not resident (R158); its table entry is read for its owner (R260, log 71)
    if i.entry.cls = 2 then
      let b := b.cnt (pgRE (ctxBank i.ctx)) 0x080
      (if i.urgent then b.insertAway (userDoorbell i) else if b.tableOn i.ctx then b.insertAway i else b, false)
    else (b.insertAway i, false)

end Sys2Proof.Machine
end

