-- ==== Sys2Proof/Machine/Trackers.lean ====
section
/-! DEFINITION. Shared operations of the data plane: when its units work, payload entries (R103, R106), reads of a
station, and the hand-out of cache-fill trackers to the reads that wait for one (R35). -/

namespace Sys2Proof.Machine

/-- The data plane's units work: they run, or drain on the way to Intermission (R357) or to a warm reset (R398), or have
come up in a wake (R361); while the DCLK multiplexer hangs nothing does (Table 13-4). -/
def Block.dpOn (b : Block) : Bool :=
  b.clk.hung != some .dclk && (match b.pwr.stage with
    | .run | .entry | .drain | .opening => true
    | _ => false)

/-- Admission is on: ADMIT_EN, and no warm reset waits (R342, R398). -/
def Block.admitOn (b : Block) : Bool := b.pwr.stage == .run && b.clk.hung != some .dclk && b.regBit pgGLB 0x054 0

/-- The stations' lanes work: not between cycles B and S of a switch (R129). -/
def Block.lanesOn (b : Block) : Bool := b.dpOn && !b.last.paused

/-! ### Payload entries -/

/-- The first free payload entry of `n` from `base` on takes `bytes` (R103, R303). -/
def Block.claimPay (b : Block) (base n : Nat) (bytes : List Byte) : Option (Block × Nat) :=
  ((List.range n).find? fun i => (b.pays.find? (base + i)).isNone).map fun i =>
    ({ b with pays := b.pays.insert (base + i) { bytes, readers := 1 } }, base + i)

/-- Payload entries in use of `n` from `base` on. -/
def Block.payUsed (b : Block) (base n : Nat) : Nat :=
  b.pays.countP fun i _ => decide (base ≤ i) && decide (i < base + n)

/-- An entry is freed whatever its readers (R106). -/
def Block.freePay (b : Block) (p : Option Nat) : Block :=
  match p with
  | some i => { b with pays := b.pays.erase i }
  | none => b

/-- A reader has taken the payload; the last one frees the entry (R20, R106). -/
def Block.readPay (b : Block) (p : Option Nat) : Block :=
  match p with
  | some i => match b.pays.find? i with
    | some x => if x.readers ≤ 1 then b.freePay p else { b with pays := b.pays.insert i { x with readers := x.readers - 1 } }
    | none => b
  | none => b

/-- The number of readers an entry has from its routing on; none frees it (R106). -/
def Block.setReaders (b : Block) (p : Option Nat) (n : Nat) : Block :=
  match p with
  | some i => match b.pays.find? i with
    | some x => if n = 0 then b.freePay p else { b with pays := b.pays.insert i { x with readers := n } }
    | none => b
  | none => b

/-- A payload met an uncorrectable error (Table 15-3). -/
def Block.payBad (b : Block) (p : Option Nat) : Bool :=
  match p with
  | some i => (b.pays.get ⟨[], 0, false⟩ i).bad
  | none => false

/-- The bytes of a payload. -/
def Block.payBytes (b : Block) (p : Option Nat) : List Byte :=
  match p with
  | some i => (b.pays.get ⟨[], 0, false⟩ i).bytes
  | none => []

/-! ### Station reads -/

/-- Change the first fill of a station at an address that is not dead. -/
def Station.modFill (s : Station) (a : SegAddr) (f : Fill → Fill) : Station :=
  { s with fills := modifyFirst (fun x => x.addr == a && !x.dead) f s.fills }

/-- Change the first refresh at an address that is not issued. -/
def Station.modRefresh (s : Station) (a : SegAddr) (f : Fill → Fill) : Station :=
  { s with refreshes := modifyFirst (fun x => x.addr == a && !x.phase.isIssued) f s.refreshes }

/-- The address of a station's fill is known: it takes a tracker and is issued (STN_FILL counts it), or waits for one
(R35, R104). -/
def Block.fillAt (b : Block) (k : Nat) (a : SegAddr) (pa : BitVec 64) (dev : Bool) : Block :=
  match stnTracker b k false with
  | some sh =>
    ((b.setStation k ((b.station k).modFill a fun f => { f with phase := .issued pa dev sh })).cnt48 (pgSTN k) 0x060 0x064).pmuEv
      0x05 k
  | none => waitTracker (b.setStation k ((b.station k).modFill a fun f => { f with phase := .noTracker pa dev 1 })) (.fill k a)

/-- The same for a refresh read, which takes only the station's own trackers. -/
def Block.refreshAt (b : Block) (k : Nat) (a : SegAddr) (pa : BitVec 64) (dev : Bool) : Block :=
  match stnTracker b k true with
  | some sh => b.setStation k ((b.station k).modRefresh a fun f => { f with phase := .issued pa dev sh })
  | none =>
    waitTracker (b.setStation k ((b.station k).modRefresh a fun f => { f with phase := .noTracker pa dev 1 })) (.refresh k a)

/-! ### Handing out trackers -/

/-- The phase waits for trackers. -/
def Phase.waits : Phase → Bool
  | .noTracker _ _ _ => true
  | _ => false

/-- The phase a read waits in, as its owner keeps it. -/
def Block.phaseOf (b : Block) : Cont → Option Phase
  | .fill k a => ((b.station k).fills.find? fun f => f.addr == a && !f.dead && f.phase.waits).map Fill.phase
  | .refresh k a => ((b.station k).refreshes.find? fun f => f.addr == a && f.phase.waits).map Fill.phase
  | .mcs n => match (b.engine n).mcq with
    | m :: _ => m.phase
    | [] => none
  | .refill c => match b.rec? c with
    | some x => x.refill.map Refill.phase
    | none => none
  | .spillDesc c | .spillEntry c => match b.spillOf c with
    | some s => match s.ph with
      | .descRead p => some p
      | .entryRead p => some p
      | _ => none
    | none => none
  | .loadEntry c => match b.loads.find? c.toNat with
    | some l => match l.ph with
      | .entry p => some p
      | _ => none
    | none => none
  | .loadDesc c j => match b.loads.find? c.toNat with
    | some l => match l.ph with
      | .descs => (l.descs.find? (·.1 == j)).map Prod.snd
      | _ => none
    | none => none
  | .loader => b.last.load.phase
  | .fw => (b.rm.fw).bind FwRead.phase
  | .ringBack l => b.pwr.back.find? l
  | .ctxBack j => b.pwr.ctxBack.find? j
  | _ => none

/-- Write that phase. -/
def Block.setPhase (b : Block) (c : Cont) (p : Phase) : Block :=
  match c with
  | .mcs n => match (b.engine n).mcq with
    | m :: r => b.setEngine n { b.engine n with mcq := { m with phase := some p } :: r }
    | [] => b
  | .refill c => b.modRec c fun x => { x with refill := x.refill.map fun r => { r with phase := p } }
  | .spillDesc c => b.modSpill c fun s => { s with ph := .descRead p }
  | .spillEntry c => b.modSpill c fun s => { s with ph := .entryRead p }
  | .loadEntry c => match b.loads.find? c.toNat with
    | some l => { b with loads := b.loads.insert c.toNat { l with ph := .entry p } }
    | none => b
  | .loadDesc c j => match b.loads.find? c.toNat with
    | some l =>
      let descs := l.descs.map fun d => if d.1 == j then (j, p) else d
      { b with loads := b.loads.insert c.toNat { l with descs } }
    | none => b
  | .loader => { b with last := { b.last with load := { b.last.load with phase := some p } } }
  | .fw => { b with rm := { b.rm with fw := b.rm.fw.map fun f => { f with phase := some p } } }
  | .ringBack l => { b with pwr := { b.pwr with back := b.pwr.back.insert l p } }
  | .ctxBack j => { b with pwr := { b.pwr with ctxBack := b.pwr.ctxBack.insert j p } }
  | _ => b

/-- The lines a read asks for at once, each a request of its own (R39): a set's first line, or the member lines its COUNT
needs (R154); a bucket's four lines; the two lines of a table entry; the window of 32 of the loader and of FW_STAGE (R127, R382). -/
def Block.contLines (b : Block) : Cont → Nat
  | .mcs n => match (b.engine n).mcq with
    | m :: _ => m.lines
    | [] => 1
  | .refill _ => 4
  | .loadEntry _ => 2
  | .loader => b.last.load.window
  | .fw => match b.rm.fw with
    | some f => f.window
    | none => 1
  | _ => 1

/-- The requester of the cache-fill memory port that a read belongs to (Table 1-5): its station, 8 the context reader, 9 the
multicast set reader, which carries the loader's reads, those of FW_STAGE and those of the ring restore too (R127, R382, R362). -/
def Cont.requester : Cont → Nat
  | .fill k _ | .refresh k _ => k
  | .mcs _ | .loader | .fw | .ringBack _ => 9
  | _ => 8

/-- A read of the loader, or as the loader reads (R127, R382). -/
def Cont.loads : Cont → Bool
  | .loader | .fw => true
  | _ => false

/-- The read that requester i of the cache-fill port presents: the oldest that waits. Requester 9 presents a read of the loader
only when no set read waits, or when 16 set reads have been granted to it since the last one (R127). -/
def Block.fillHead (b : Block) (i : Nat) : Option Cont :=
  let mine := b.xl.trkWait.filter (·.requester == i)
  if i = 9 then
    let loads := mine.filter Cont.loads
    let sets := mine.filter fun c => !c.loads
    if 16 ≤ b.xl.setGrants then (loads ++ sets).head? else (sets ++ loads).head?
  else mine.head?

/-- A tracker is free for the read that requester i presents (R35). -/
def Block.fillEligible (b : Block) (i : Nat) : Bool :=
  match b.fillHead i with
  | some (.fill k _) => (stnTracker b k false).isSome
  | some (.refresh k _) => (stnTracker b k true).isSome
  | some _ => decide (sharedTrk b < 512)
  | none => false

/-- One line of a read that waits is granted: it takes its tracker. -/
def Block.grantLine (b : Block) (c : Cont) : Block :=
  let issued (v : XuInv) : XuInv := { v with held := { v.held with reads := v.held.reads.erase c } }
  let gone (b : Block) : Block := { b with xl := { b.xl with trkWait := b.xl.trkWait.erase c, inv := b.xl.inv.map issued } }
  match b.phaseOf c with
  | some (.noTracker pa dev left) => match c with
    | .fill k a => (gone b).fillAt k a pa dev
    | .refresh k a => (gone b).refreshAt k a pa dev
    | _ =>
      let b := takeShared b 1
      let b := { b with xl := { b.xl with setGrants := if c.loads then 0 else if c.requester = 9 then b.xl.setGrants + 1 else
                                          b.xl.setGrants } }
      if left ≤ 1 then (gone b).setPhase c (.issued pa dev true) else b.setPhase c (.noTracker pa dev (left - 1))
  | _ => gone b

/-- Trackers came free: the arbiter of the cache-fill port grants what may go, one line after the other (R38). -/
def Block.grantFills (b : Block) : Nat → Block
  | 0 => b
  | fuel + 1 =>
    match b.pick .fillPort b.fillEligible with
    | some i => match b.fillHead i with
      | some c => Block.grantFills ((b.grantLine c).granted .fillPort i) fuel
      | none => b
    | none => b

/-- Trackers came free. -/
def Block.kickTrackers (b : Block) : Block := b.grantFills 1024

/-- A read of another requester has answered: its trackers come back. -/
def Block.freeLines (b : Block) (n : Nat) : Block := (giveShared b n).kickTrackers

/-- A read whose operation is gone has answered: its trackers come back, its data is discarded; of an old generation it
counts as stale (Table 9-5). -/
def Block.orphanDone (b : Block) (c : Cont) : Option Block :=
  match b.xl.orphans.find? (·.1 == c) with
  | some (_, t, n) =>
    let b := { b with xl := { b.xl with orphans := eraseFirst (·.1 == c) b.xl.orphans } }
    let b := if t.owner = 0 then b else b.cnt pgVMGR 0x0B8
    some (b.freeLines n)
  | none => none

/-- The lines of a read that are issued. -/
def Block.linesOut (b : Block) (c : Cont) (p : Phase) : Nat :=
  match p with
  | .walk => 0
  | .noTracker _ _ left => b.contLines c - left
  | .issued _ _ _ => b.contLines c

/-- A read loses its operation: its issued lines answer and are discarded; the others are not made. -/
def Block.orphan (b : Block) (c : Cont) (p : Phase) (t : Tag) : Block :=
  let n := b.linesOut c p
  let b := { b with xl := { b.xl with trkWait := b.xl.trkWait.filter (· != c) } }
  if n = 0 then b else { b with xl := { b.xl with orphans := b.xl.orphans ++ [(c, t, n)] } }

end Sys2Proof.Machine
end

