-- ==== Sys2Proof/Machine/Ingress.lean ====
section
/-! DEFINITION. Ingress (chapter 3): line collectors, doorbell writes, source translation, the miss buffer, the refresh
sweep (R138). -/

namespace Sys2Proof.Machine

/-! ### Line collectors -/

/-- Four 32-bit registers of a collector side by side: LC_EN (0x040), LC_LEVEL (0x050), LC_POL (0x060). -/
def Block.lcBits (b : Block) (c base : Nat) : BitVec 128 :=
  b.reg (pgLC c) (base + 12) ++ b.reg (pgLC c) (base + 8) ++ b.reg (pgLC c) (base + 4) ++ b.reg (pgLC c) base

/-- Lines at their active level, from a level after synchronisation (R79, LC_STATE). -/
def Block.active (b : Block) (c : Nat) (lv : BitVec 128) : BitVec 128 := lv ^^^ b.lcBits c 0x060

/-- Raise the arrivals of `m`; `edges` of them, the detected transitions, that find their raise bit
set are absorbed and counted (R81, log 15). -/
def Block.raiseLines (b : Block) (c : Nat) (m edges : BitVec 128) : Block :=
  let x := b.coll c
  let n := popCount (x.raise &&& edges)
  let b := b.setColl c { x with raise := x.raise ||| m }
  if n = 0 then b else b.cnt (pgLC c) 0x094 n

/-- A DCLK cycle brings a collector new synchronised levels (R79, R80, R54). Edges that arrive while the data plane does not
work or its multiplexer hangs are lost: the levels are then only the previous values of what comes (R84). -/
def sampleLines (b : Block) (c : Nat) (lv : BitVec 128) : Block :=
  let x := b.coll c
  if !b.dpOn then b.setColl c { x with sync := lv } else
    let rose := b.active c lv &&& ~~~b.active c x.sync &&& b.lcBits c 0x040
    (b.setColl c { x with sync := lv }).raiseLines c rose rose

/-- LINE_EDGE: a sample in which an edge-type line can have become active. -/
def execLineEdge (c : Fin 16) (lv : BitVec 128) (s : State) : Host.Outcome State Fault Refusal :=
  .next { s with blk := sampleLines s.blk c lv }

/-- LINE_ASSERT: a sample in which a level-type line can have become asserted. -/
def execLineAssert (c : Fin 16) (lv : BitVec 128) (s : State) : Host.Outcome State Fault Refusal :=
  .next { s with blk := sampleLines s.blk c lv }

/-- The oldest sample asked for by a deactivation (Table 2-4). -/
def effLevelSample (b : Block) (c : Nat) : Block :=
  if !b.dpOn then b else
    match (b.coll c).sample with
    | [] => b
    | i :: r =>
      let x := b.coll c
      let b := b.setColl c { x with sample := r }
      let m : BitVec 128 := (1 : BitVec 128) <<< i.toNat
      if m &&& b.active c x.sync &&& b.lcBits c 0x040 &&& b.lcBits c 0x050 = 0 then b else b.raiseLines c m 0

/-- LEVEL_SAMPLE. -/
def execLevelSample (c : Fin 16) (s : State) : Host.Outcome State Fault Refusal :=
  .next { s with blk := effLevelSample s.blk c }

/-- Miss entries of a station in use: parked events and resumed ones that have not been looked up (R103, R104). -/
def missUsed (s : Station) : Nat :=
  s.parked.length + s.resumedMsg.countP (·.holds) + s.resumedWired.countP (·.holds)

/-- A collector's turn (R82, R105, R443): the first raise bit at or after the scan pointer goes to the wired lane, if the
lane takes it. -/
def effCollectorOffer (b : Block) (c : Nat) : Block :=
  let k := c / 2
  let s := b.station k
  if !b.admitOn || b.last.paused || s.wired.isSome || !s.reentry.isEmpty || !s.resumedWired.isEmpty || 384 ≤ missUsed s
  then b else
    let x := b.coll c
    match (firstFrom x.raise x.scan.toNat 128).orElse fun _ => lowest x.raise with
    | none => b
    | some i =>
      let b := b.setColl c { x with raise := setBit x.raise i false, scan := BitVec.ofNat 7 (i + 1) }
      let e : Event := BitVec.ofNat 20 (128 * c + i)
      (b.setStation k { s with wired := some { kind := .wired, src := .line (BitVec.ofNat 11 (128 * c + i)), pevent := e } })
        |>.pmuEv 0x02 k

/-- COLLECTOR_OFFER. -/
def execCollectorOffer (c : Fin 16) (s : State) : Host.Outcome State Fault Refusal :=
  .next { s with blk := effCollectorOffer s.blk c }

/-- PD0's edge latch (R85): it captures from the entry to Intermission until the collector has sampled on wake (R86). -/
def effEdgeLatch (b : Block) (c : Nat) (lv : BitVec 128) : Block :=
  let x := b.coll c
  if !x.latchOn then b else
    let rose := (lv ^^^ x.pd0Pol) &&& ~~~(x.pd0Level ^^^ x.pd0Pol) &&& x.pd0En
    let first := rose != 0 && b.col.cells.all fun p => p.2.pd0 == 0
    let b := b.setColl c { x with pd0 := x.pd0 ||| rose, pd0Level := lv, woke := x.woke || first }
    if first then { b with pwr := { b.pwr with latched := b.pwr.latched ||| 1 } } else b

/-- EDGE_LATCH_CAPTURE. -/
def execEdgeLatchCapture (c : Fin 16) (lv : BitVec 128) (s : State) : Host.Outcome State Fault Refusal :=
  .next { s with blk := effEdgeLatch s.blk c lv }

/-- The transfer of the latch on wake (R86), once in a wake: edge-type lines are raised from it, level-type lines are sampled,
all 128 bits stand in LC_LATCH from then on; WAKE is set when one of the bits caused the wake (R112). -/
def effLatchTransfer (b : Block) (c : Nat) (lv : BitVec 128) : Block :=
  let x := b.coll c
  if b.pwr.stage != .opening || !x.latchOn then b else
    let lvl := b.lcBits c 0x050
    let woke := x.woke && bit b.pwr.cause 0
    let m := (x.pd0 &&& ~~~lvl) ||| (b.active c lv &&& lvl &&& b.lcBits c 0x040)
    let b := b.setColl c { x with sync := lv, latch := x.pd0, pd0 := 0, latchOn := false, woke := false, raise := x.raise ||| m }
    if woke then b.flag (pgLC c) 0 else b

/-- LATCH_TRANSFER. -/
def execLatchTransfer (c : Fin 16) (lv : BitVec 128) (s : State) : Host.Outcome State Fault Refusal :=
  .next { s with blk := effLatchTransfer s.blk c lv }

/-! ### Doorbell writes -/

/-- What a write at a station port is (R87 to R91, R426). -/
inductive Write where
  | empty
  | drop (cause : BitVec 4)
  | short (devevt : Event)
  | long (word : Word) (payload : List Byte)
  deriving DecidableEq, Repr

/-- The enabled bytes of a write: aperture offset and value. -/
def enabledBytes (bs : List Beat) : List (Nat × Byte) :=
  bs.flatMap fun x => (List.range 8).filterMap fun i =>
    if bit x.be i then some ((x.addr.toNat / 8) * 8 + i, x.data.extractLsb' (8 * i) 8) else none

/-- Beats in ascending consecutive groups with one source tag (R426). -/
def beatsRun : List Beat → Bool
  | x :: y :: r => decide (y.addr.toNat / 8 = x.addr.toNat / 8 + 1) && y.tag == x.tag && beatsRun (y :: r)
  | _ => true

/-- The bytes run without a gap. -/
def noGap : List (Nat × Byte) → Bool
  | x :: y :: r => decide (y.1 = x.1 + 1) && noGap (y :: r)
  | _ => true

/-- The kind of a write (R91 in its order, R88, R89). A write of 9 or more beats that enables no byte is dropped as R426 drops
every such write, although R91 answers a write with no byte enabled OK: the spec does not say which holds (DESIGN CHOICE, log
33). -/
def writeKind (bs : List Beat) : Write :=
  let en := enabledBytes bs
  if !beatsRun bs then .drop 5
  else if 9 ≤ bs.length then .drop (if 64 < en.length then 3 else 4)
  else match en with
    | [] => .empty
    | (first, _) :: _ =>
      let last := (en.getLast?.map Prod.fst).getD first
      if first / 64 ≠ last / 64 then .drop 4
      else if !noGap en || 4096 < first / 4096 then .drop 5
      else
        let bytes := en.map Prod.snd
        let w : Word := leBits 32 (bytes.take 4)
        if first % 4096 = 0 ∧ bytes.length = 4 then .short (fld w 19 0)
        else if first % 4096 = 0x40 ∧ 4 ≤ bytes.length then .long w (bytes.drop 4)
        else .drop 5

/-- The place of a write's first byte. -/
def writePlace (bs : List Beat) : Nat :=
  match enabledBytes bs with
  | (a, _) :: _ => a
  | [] => match bs with
    | x :: _ => x.addr.toNat / 8 * 8
    | [] => 0

/-- The counter of a cause (Table 3-3). -/
def Block.stnCount (b : Block) (k : Nat) (cause : BitVec 4) : Block :=
  let i := cause.toNat - 1
  let place : Nat × Bool :=
    if i = 0 then (0x068, false) else if i = 1 then (0x068, true) else if i = 2 then (0x06C, false)
    else if i = 3 then (0x06C, true) else if i = 4 then (0x070, false) else if i = 5 then (0x074, true) else (0x078, true)
  b.cntHalf (pgSTN k) place.1 place.2

/-- A dropped write (R91, Table 3-3): counted, named in STN_LASTERR, flagged. -/
def Block.stnDrop (b : Block) (k : Nat) (cause : BitVec 4) (tag : BitVec 24) (page : BitVec 13) (off : BitVec 12) : Block :=
  let b := b.stnCount k cause
  (b.setStation k { b.station k with lastTag := tag, lastCause := cause, lastPage := page, lastOff := off }).flag (pgSTN k) 0

/-- A response joins those a station owes (R93). -/
def Block.oweRsp (b : Block) (k : Nat) (r : StnRsp) : Block :=
  b.setStation k { b.station k with rsps := (b.station k).rsps ++ [r] }

/-- The response of a write is decided (R93). Token 0 names none. -/
def Block.decideRsp (b : Block) (k tok : Nat) (code : BitVec 2) : Block :=
  if tok = 0 then b else
    b.setStation k { b.station k with
      rsps := modifyFirst (fun r => r.tok == tok && r.code.isNone) ({ · with code := some code }) (b.station k).rsps }

/-- The station answers retry: Intermission and its wake (R93). -/
def Block.stnRetry (b : Block) : Bool :=
  match b.pwr.stage with
  | .entry | .asleep | .waking | .opening => true
  | _ => false

/-- The station's domain is held in reset: PD0 answers with an error (R392, R364, R396). -/
def Block.stnDark (b : Block) : Bool :=
  match b.pwr.stage with
  | .held | .sio | .fio | .check | .lock | .arrays | .backup | .dpOff => true
  | _ => false

/-- Beats in a station's intake FIFO (R105). -/
def fifoUsed (s : Station) : Nat := (s.intake.map Item.beats).sum

/-- Reassembly entries of a station in use (R103). -/
def Block.reasmUsed (b : Block) (k : Nat) : Nat := b.payUsed (128 * k) 128

/-- An item with payload bytes claims a reassembly entry; REASM_FULL when it is the last (R90, R110). -/
def Block.claimReasm (b : Block) (k : Nat) (i : Item) : Option (Block × Item) :=
  if i.bytes.isEmpty then some (b, i)
  else match b.claimPay (128 * k) 128 i.bytes with
    | some (b, p) =>
      let b := if b.reasmUsed k = 128 then b.flag (pgSTN k) 2 else b
      some (b, { i with pay := some p, bytes := [] })
    | none => none

/-- An event joins the intake FIFO. A payload takes its reassembly entry with its first beat, unless an earlier one waits
for one (R90, R106). -/
def Block.takeIn (b : Block) (k : Nat) (i : Item) : Block :=
  let (b, i) := if (b.station k).intake.any fun j => !j.bytes.isEmpty then (b, i) else (b.claimReasm k i).getD (b, i)
  b.setStation k { b.station k with intake := (b.station k).intake ++ [i] }

/-- A write at a station port (R87 to R93). `long` names the command: a well-formed doorbell of the other kind is not this
command's trigger. A write the port cannot take waits outside. -/
def doorbell (b : Block) (long : Bool) (k : Nat) (id : BitVec 12) (bs : List Beat) : Block :=
  let s := b.station k
  if bs.isEmpty then b
  else if b.stnDark then b.setStation k { s with rspOut := some (id, 1, 1) }
  else if b.stnRetry then b.setStation k { s with rspOut := some (id, 2, 1) }
  else if !b.admitOn || 64 ≤ s.rsps.countP (·.code.isSome) then b
  else
    let a := writePlace bs
    let tag := (bs.head?.map Beat.tag).getD 0
    let page : BitVec 13 := BitVec.ofNat 13 (a / 4096)
    let off : BitVec 12 := BitVec.ofNat 12 a
    match writeKind bs with
    | .empty =>
      if 64 ≤ fifoUsed s then b else
      let (b, tok) := b.newTok
      (b.oweRsp k { tok, id, beats := 1, code := some 0 }).pmuEv 0x01 k
    | .drop cause =>
      if 64 ≤ fifoUsed s then b else
      ((b.oweRsp k { tok := 0, id, beats := 1, code := some 1 }).pmuEv 0x01 k).stnDrop k cause tag page off
    | .short devevt =>
      if long || 64 < fifoUsed s + bs.length then b else
        let (b, tok) := b.newTok
        ((b.oweRsp k { tok, id, beats := 1, code := none }).pmuEv 0x01 k).takeIn k
          { kind := .message, src := .tag tag, tag, devevt, page, off, beats := bs.length, tok }
    | .long w p =>
      if !long || 64 < fifoUsed s + bs.length then b else
        let (b, tok) := b.newTok
        let len := (fld w 25 20).toNat
        let eff := min (min len 48) p.length
        let b := (b.oweRsp k { tok, id, beats := 1, code := none }).pmuEv 0x01 k
        let b := if 48 < len then (b.cntHalf (pgSTN k) 0x074 false).flag (pgSTN k) 6 else b
        let b := if p.length < len then b.cntHalf (pgSTN k) 0x070 true else b
        b.takeIn k { kind := .message, src := .tag tag, tag, devevt := fld w 19 0, page, off, beats := bs.length, tok,
                     bytes := p.take eff, plen := BitVec.ofNat 6 eff, trunc := decide (48 < len) }

/-- SHORT_DOORBELL. -/
def execShortDoorbell (k : Fin 8) (id : BitVec 12) (beats : List Beat) (s : State) : Host.Outcome State Fault Refusal :=
  .next { s with blk := doorbell s.blk false k id beats }

/-- LONG_DOORBELL. -/
def execLongDoorbell (k : Fin 8) (id : BitVec 12) (beats : List Beat) (s : State) : Host.Outcome State Fault Refusal :=
  .next { s with blk := doorbell s.blk true k id beats }

/-- A read at a station port (R92, R93): a response of zeros, OK, decided at intake. -/
def effDoorbellRead (b : Block) (k : Nat) (id : BitVec 12) (rbeats : BitVec 3) : Block :=
  let s := b.station k
  let n := rbeats.toNat + 1
  if b.stnDark then b.setStation k { s with rspOut := some (id, 1, n) }
  else if b.stnRetry then b.setStation k { s with rspOut := some (id, 2, n) }
  else if b.pwr.stage != .run || 64 ≤ s.rsps.countP (·.code.isSome) then b
  else b.oweRsp k { tok := 0, id, beats := n, code := some 0 }

/-- DOORBELL_READ. -/
def execDoorbellRead (k : Fin 8) (id : BitVec 12) (_addr : BitVec 25) (rbeats : BitVec 3) (s : State) :
    Host.Outcome State Fault Refusal :=
  .next { s with blk := effDoorbellRead s.blk k id rbeats }

/-- The earliest response of an identifier leaves if it is decided (R93). -/
def effStationResponse (b : Block) (k : Nat) (id : BitVec 12) : Block :=
  let s := b.station k
  match s.rsps.find? (·.id == id) with
  | some r => match r.code with
    | some c => b.setStation k { s with rsps := eraseFirst (·.id == id) s.rsps, rspOut := some (id, c, r.beats) }
    | none => b
  | none => b

/-- STATION_RESPONSE. -/
def execStationResponse (k : Fin 8) (id : BitVec 12) (s : State) : Host.Outcome State Fault Refusal :=
  .next { s with blk := effStationResponse s.blk k id }

/-! ### The source-route cache (R99) -/

/-- The tree after way `w` became the most recent: every node on its path points away. -/
def plruTouch (t : BitVec 7) (w : Nat) : BitVec 7 :=
  let n1 := 1 + w / 4
  let n2 := 3 + w / 2
  setBit (setBit (setBit t 0 (decide (w < 4))) n1 (decide (w % 4 < 2))) n2 (decide (w % 2 = 0))

/-- The way the tree points to. -/
def plruVictim (t : BitVec 7) : Nat :=
  let a := if bit t 0 then 1 else 0
  let c := if bit t (1 + a) then 1 else 0
  let d := if bit t (3 + 2 * a + c) then 1 else 0
  4 * a + 2 * c + d

/-- The way of a key. -/
def CSet.way (s : CSet) (key : CKey) : Option Nat := (s.ways.cells.find? fun p => p.2.1 == key).map Prod.fst

/-- A lookup in the cache; a hit makes its way the most recent. -/
def cacheFind (b : Block) (k : Nat) (key : CKey) : Block × Option CVal :=
  let s := b.station k
  let i := cacheSet key
  let x := s.sets.get {} i
  match x.way key with
  | none => (b, none)
  | some w =>
    (b.setStation k { s with sets := s.sets.set {} i { x with plru := plruTouch x.plru w } },
      (x.ways.find? w).map Prod.snd)

/-- An install (R99): over its own way, an invalid way, or the victim; nothing with CACHE_EN = 0. -/
def cacheInstall (b : Block) (k : Nat) (key : CKey) (v : CVal) : Block :=
  if !b.regBit (pgSTN k) 0x040 0 then b else
    let s := b.station k
    let i := cacheSet key
    let x := s.sets.get {} i
    let w := (x.way key).getD (((List.range 8).find? fun w => (x.ways.find? w).isNone).getD (plruVictim x.plru))
    b.setStation k { s with sets := s.sets.set {} i { ways := x.ways.insert w (key, v), plru := plruTouch x.plru w } }

/-- Change or remove cached entries. -/
def cacheMap (s : Station) (f : CKey → CVal → Option CVal) : Station :=
  { s with sets := ⟨s.sets.cells.filterMap fun p =>
      let x : CSet := { p.2 with ways := ⟨p.2.ways.cells.filterMap fun q => (f q.2.1 q.2.2).map fun v => (q.1, (q.2.1, v))⟩ }
      if x = {} then none else some (p.1, x)⟩ }

/-- An emptied cache. -/
def cacheEmpty (s : Station) : Station := { s with sets := .empty }

/-! ### Lookups (R101) -/

/-- What a lookup decides. -/
inductive Look where
  | enter (e : Event) (a : EvaAttr)
  | fill (e : Option Event) (a : SegAddr)
  | behind
  | drop (cause : BitVec 4)
  deriving DecidableEq, Repr

/-- An item of a source has its place in the miss buffer. -/
def parkedFirst (s : Station) (src : Source) : Bool := s.parked.any fun p => p.item.src == src

/-- The attributes of an event whose number is known: the owner check of a doorbell page (R101), an out-of-range owner
otherwise taken as the PMF (Table 4-4). -/
def ownerStep (i : Item) (e : Event) (a : EvaAttr) : Look :=
  if i.kind == .message then (if a.owner != i.page then .drop 2 else .enter e a) else .enter e a.settle

/-- A basic image's answer (R142). -/
def basicLook (m : BasicImg) (i : Item) : Look :=
  match i.kind with
  | .message =>
    if i.page != 0 then .drop 2
    else if !bit m.ctl 1 then .drop 1
    else if !msgRange i.devevt then .drop 7
    else .enter i.devevt (basicMsg m i.devevt)
  | _ => .enter i.pevent (if wiredRange i.pevent then basicWired m i.pevent else basicMsg m i.pevent)

/-- The EVA half of a lookup. -/
def evaLook (b : Block) (k : Nat) (i : Item) (e : Event) : Block × Look :=
  match cacheFind b k (.eva e) with
  | (b, some (.eva a)) => (b, ownerStep i e a)
  | (b, _) => (b, .fill (some e) (evaAddr b.act e))

/-- A lookup (R101, R142). -/
def look (b : Block) (k : Nat) (i : Item) : Block × Look :=
  match b.act.basic with
  | some m => (b, basicLook m i)
  | none =>
    if parkedFirst (b.station k) i.src then (b, .behind)
    else match i.kind with
      | .message => match cacheFind b k (.src i.tag i.devevt) with
        | (b, some (.src e)) => if msgRange e then evaLook b k i e else (b, .drop 7)
        | (b, _) => (b, .fill none (srcBucket b.act i.tag i.devevt))
      | _ => evaLook b k i i.pevent

/-- The output queue of a station to a bank. -/
def Station.out (s : Station) (q : Nat) : List (Item × EvaAttr) := s.outq.get [] q

/-- A looked-up item leaves for its bank; its write is answered OK (R93). -/
def Block.handOver (b : Block) (k : Nat) (i : Item) (e : Event) (a : EvaAttr) : Block :=
  let s := b.station k
  (b.setStation k { s with outq := s.outq.upd [] (evBank e) (· ++ [({ i with pevent := e }, a)]) }).decideRsp k i.tok 0

/-- The items that wait behind a source go back to their lanes when nothing of it is parked in front of them. -/
def Block.release (b : Block) (k : Nat) (src : Source) : Block :=
  let s := b.station k
  if s.parked.any fun p => p.item.src == src && p.on != .behind then b else
    let go := (s.parked.filter fun p => p.item.src == src).map fun p => ({ item := p.item, attr := none, holds := true } : Resumed)
    b.setStation k { s with parked := s.parked.filter fun p => p.item.src != src,
                            resumedMsg := s.resumedMsg ++ go.filter (·.item.kind == .message),
                            resumedWired := s.resumedWired ++ go.filter (·.item.kind != .message) }

/-- A re-entry whose lookup failed is discarded (R157): P clears, the payloads that merged into it are released. -/
def Block.loseReentry (b : Block) (k : Nat) (e : Event) : Block :=
  let p := b.pendOf e
  let pays := match p.fl with
    | some f => f.pays
    | none => []
  let b := b.setPend e { p with p := false, fl := none }
  pays.foldl (fun b a => (b.freePay a.pay).cntHalf (pgSTN k) 0x078 false) b

/-- An item that its station drops (R91, R108): a write is answered ERR and named; a wired arrival or a re-entry is lost and
counted as FILLFAULT. -/
def Block.dropItem (b : Block) (k : Nat) (i : Item) (cause : BitVec 4) : Block :=
  let b := b.freePay i.pay
  match i.kind with
  | .message => (b.stnDrop k cause i.tag i.page i.off).decideRsp k i.tok 1
  | .wired => b.stnCount k 6
  | .reentry => (b.stnCount k 6).loseReentry k i.pevent

/-- An item takes a place in the miss buffer; MISS_FULL when it is the last (R110). -/
def Block.park (b : Block) (k : Nat) (i : Item) (on : ParkOn) : Block :=
  let s := b.station k
  let b := (b.setStation k { s with parked := s.parked ++ [{ item := i, on }] }).pmuEv 0x04 k
  if missUsed s < 384 && missUsed (b.station k) == 384 then b.flag (pgSTN k) 1 else b

/-- Every event attached to a fill is dropped with cause FILLFAULT, and the flag is set (R108). -/
def Block.fillFault (b : Block) (k : Nat) (a : SegAddr) : Block :=
  let s := b.station k
  let go := (s.parked.filter fun p => p.on == .fill a).map Parked.item
  let b := b.setStation k { s with parked := s.parked.filter fun p => p.on != .fill a,
                                   fills := eraseFirst (fun f => f.addr == a && !f.dead) s.fills }
  let b := go.foldl (fun b i => b.dropItem k i 6) b
  (go.foldl (fun b i => b.release k i.src) b).flag (pgSTN k) 3

/-- A parked item asks for its fill (R104): it attaches to one outstanding, or a read is started. -/
def Block.needFill (b : Block) (k : Nat) (i : Item) (a : SegAddr) : Block :=
  if (b.station k).fills.any fun f => f.addr == a && !f.dead then b else
    let s := b.station k
    let b := b.setStation k { s with fills := s.fills ++ [{ addr := a, phase := .walk }] }
    let o : OwnerNo := if i.kind == .message then i.page else 0
    match xlate b { seg := a.seg, off := a.off, op := opFill, owner := o, obj := BitVec.ofNat 16 k, cont := .fill k a } with
    | (b, .ok pa dev) => b.fillAt k a pa dev
    | (b, .wait) => b
    | (b, .fault _ _) => b.fillFault k a

/-- A replayed lookup charges its engine's shadow count (R104, R415). -/
def Block.replayed (b : Block) (e : Event) : Block :=
  let n := evBank e
  let g := b.engine n
  if g.replay = 255 then (b.cnt pgPMU 0x058).flag pgPMU 2 else b.setEngine n { g with replay := g.replay + 1 }

/-- Act on what a lookup decided; none: the lane stops with the item where it is (R105, R443, a full output queue). -/
def Block.settleLook (b : Block) (k : Nat) (i : Item) (holds : Bool) (l : Look) : Option Block :=
  let full := !holds && decide (384 ≤ missUsed (b.station k))
  match l with
  | .enter e a => if 16 ≤ ((b.station k).out (evBank e)).length then none else some ((b.handOver k i e a).pmuEv 0x03 k)
  | .drop c => some ((b.dropItem k i c).pmuEv 0x03 k)
  | .behind => if full then none else some (b.park k i .behind)
  | .fill e a => if full then none else
      let i := { i with pevent := e.getD i.pevent }
      some ((b.park k i (.fill a)).needFill k i a)

/-- The event a lookup named, if it did. -/
def Look.event : Look → Option Event
  | .enter e _ => some e
  | .fill e _ => e
  | _ => none

/-- A resumed item in its lane (R104): with a result, it goes on; without one, it is looked up again. -/
def Block.resume (b : Block) (k : Nat) (msg : Bool) (r : Resumed) : Block :=
  let s := b.station k
  let b0 := b.setStation k (if msg then { s with resumedMsg := s.resumedMsg.drop 1 }
    else { s with resumedWired := s.resumedWired.drop 1 })
  let done := match r.attr with
    | some a => if 16 ≤ (s.out (evBank r.item.pevent)).length then none
        else some ((b0.handOver k r.item r.item.pevent a).replayed r.item.pevent)
    | none =>
      let (b1, l) := look b0 k r.item
      (b1.settleLook k r.item r.holds l).map fun (x : Block) => match l.event with
        | some e => x.replayed e
        | none => x
  done.getD b

/-- The message lane (R83, R104, R105, R106). -/
def lookMessage (b : Block) (k : Nat) : Block :=
  let s := b.station k
  match s.resumedMsg with
  | r :: _ => b.resume k true r
  | [] => match s.intake with
    | [] => b
    | i :: rest => match b.claimReasm k i with
      | none => b
      | some (b1, i) =>
        let b0 := b1.setStation k { b1.station k with intake := rest }
        let (b2, l) := look b0 k i
        match b2.settleLook k i false l with
        | some b => b
        | none => b1.setStation k { b1.station k with intake := i :: rest }

/-- The wired lane (R443): a resumed item; the item it has taken and could not settle; the head of the re-entry queue, which
leaves the queue and waits, if it must, at the head of the lane. -/
def lookWired (b : Block) (k : Nat) : Block :=
  let s := b.station k
  match s.resumedWired with
  | r :: _ => b.resume k false r
  | [] =>
    let first : Option (Item × Station) := match s.wired with
      | some i => some (i, { s with wired := none })
      | none => s.reentry.head?.map fun i => (i, { s with reentry := s.reentry.drop 1 })
    match first with
    | none => b
    | some (i, s') =>
      let (b1, l) := look (b.setStation k s') k i
      (b1.settleLook k i false l).getD (b.setStation k { s' with wired := some i })

/-- One lookup of a lane. -/
def effStationLookup (b : Block) (k : Nat) (l : Lane) : Block :=
  if !b.lanesOn then b else match l with
    | .message => lookMessage b k
    | .wired => lookWired b k

/-- STATION_LOOKUP. -/
def execStationLookup (k : Fin 8) (lane : Lane) (s : State) : Host.Outcome State Fault Refusal :=
  .next { s with blk := effStationLookup s.blk k lane }

/-! ### Fills (R104, R108) -/

/-- An attached event takes its fill's result (R104): it resumes with its attributes, parks again for its EVA entry, or is
dropped. -/
def Block.applyFill (b : Block) (k : Nat) (bytes : List Byte) (p : Parked) : Block :=
  let i := p.item
  let resume (b : Block) (i : Item) (a : EvaAttr) : Block :=
    let s := b.station k
    let r : Resumed := { item := i, attr := some a, holds := true }
    (b.setStation k (if i.kind == .message then { s with resumedMsg := s.resumedMsg ++ [r] }
      else { s with resumedWired := s.resumedWired ++ [r] })).decideRsp k i.tok 0
  let settle (b : Block) (i : Item) (l : Look) : Block := match l with
    | .enter _ a => resume b i a
    | .drop c => b.dropItem k i c
    | .fill _ a =>
      let s := b.station k
      (b.setStation k { s with parked := s.parked ++ [{ item := i, on := .fill a }] }).needFill k i a
    | .behind => b
  if i.kind == .message && p.on == .fill (srcBucket b.act i.tag i.devevt) && i.pevent == 0 then
    match srcFind bytes i.tag i.devevt with
    | none => b.dropItem k i 1
    | some e =>
      if !msgRange e then b.dropItem k i 7
      else
        let i := { i with pevent := e }
        let (b, l) := evaLook b k i e
        settle b i l
  else settle b i (ownerStep i i.pevent (evaOf (leBits 64 (bytes.take 8))))

/-- Install what a fill supplied for an attached event (R104). -/
def Block.installFill (b : Block) (k : Nat) (bytes : List Byte) (p : Parked) : Block :=
  let i := p.item
  if i.kind == .message && i.pevent == 0 then
    match srcFind bytes i.tag i.devevt with
    | some e => cacheInstall b k (.src i.tag i.devevt) (.src e)
    | none => b
  else cacheInstall b k (.eva i.pevent) (.eva (evaOf (leBits 64 (bytes.take 8))))

/-- A fill read answers. -/
def effFillResponse (b : Block) (k : Nat) (a : SegAddr) (r : MemResp) : Block :=
  let s := b.station k
  match s.fills.find? fun f => f.addr == a && f.phase.isIssued with
  | none => b
  | some f =>
    if f.dead then (b.setStation k { s with fills := s.fills.erase f }).kickTrackers
    else match r with
      | .ok bytes =>
        let go := s.parked.filter fun p => p.on == .fill a
        let b := b.setStation k { s with fills := s.fills.erase f, parked := s.parked.filter fun p => p.on != .fill a }
        let b := if f.stale then b else go.foldl (fun b p => b.installFill k bytes p) b
        let b := go.foldl (fun b p => b.applyFill k bytes p) b
        (go.foldl (fun b p => b.release k p.item.src) b).kickTrackers
      | _ => (b.fillFault k a).kickTrackers

/-- FILL_RESPONSE. -/
def execFillResponse (k : Fin 8) (a : SegAddr) (r : MemResp) (s : State) : Host.Outcome State Fault Refusal :=
  .next { s with blk := effFillResponse s.blk k a r }

/-! ### The refresh sweep (R138) -/

/-- The address a cached entry was read from. -/
def keyAddr (k : Bank) : CKey → SegAddr
  | .src tag d => srcBucket k tag d
  | .eva e => evaAddr k e

/-- Remove the entries read from an address. -/
def Block.uncache (b : Block) (k : Nat) (a : SegAddr) : Block :=
  b.setStation k (cacheMap (b.station k) fun key v => if keyAddr b.act key = a then none else some v)

/-- A refresh read that faulted removes its entry. -/
def Block.refreshFault (b : Block) (k : Nat) (a : SegAddr) : Block :=
  let s := b.station k
  (b.setStation k { s with refreshes := eraseFirst (·.addr == a) s.refreshes }).uncache k a

/-- Start one refresh read. -/
def Block.startRefresh (k : Nat) (b : Block) (a : SegAddr) : Block :=
  let s := b.station k
  let b := b.setStation k { s with refreshes := s.refreshes ++ [{ addr := a, phase := .walk }] }
  match xlate b { seg := a.seg, off := a.off, op := opRefresh, obj := BitVec.ofNat 16 k, cont := .refresh k a } with
  | (b, .ok pa dev) => b.refreshAt k a pa dev
  | (b, .wait) => b
  | (b, .fault _ _) => b.refreshFault k a

/-- A visit of the sweep: 3.75 µs of GT after the last (log 21), every valid entry of one set is read again. -/
def effRefreshSweep (b : Block) (k : Nat) : Block :=
  let s := b.station k
  if !b.dpOn || b.gt.toNat < s.sweepGt.toNat + 3750 then b else
    let keys := (s.sets.get {} s.sweepSet.toNat).ways.cells.map fun p => keyAddr b.act p.2.1
    keys.foldl (Block.startRefresh k) (b.setStation k { s with sweepSet := s.sweepSet + 1, sweepGt := b.gt })

/-- REFRESH_SWEEP. -/
def execRefreshSweep (k : Fin 8) (s : State) : Host.Outcome State Fault Refusal :=
  .next { s with blk := effRefreshSweep s.blk k }

/-- What a refreshed entry holds from now on; none removes it. -/
def refreshed (bytes : List Byte) : CKey → Option CVal
  | .src tag d => (srcFind bytes tag d).map CVal.src
  | .eva _ => some (.eva (evaOf (leBits 64 (bytes.take 8))))

/-- A refresh read answers. -/
def effRefreshResponse (b : Block) (k : Nat) (a : SegAddr) (r : MemResp) : Block :=
  let s := b.station k
  match s.refreshes.find? fun f => f.addr == a && f.phase.isIssued with
  | none => b
  | some f =>
    let b := b.setStation k { s with refreshes := s.refreshes.erase f }
    (if f.stale then b else match r with
      | .ok bytes => b.setStation k (cacheMap (b.station k) fun key v =>
          if keyAddr b.act key = a then refreshed bytes key else some v)
      | _ => b.uncache k a).kickTrackers

/-- REFRESH_RESPONSE. -/
def execRefreshResponse (k : Fin 8) (a : SegAddr) (r : MemResp) (s : State) : Host.Outcome State Fault Refusal :=
  .next { s with blk := effRefreshResponse s.blk k a r }

/-! ### Cache invalidation (R109) -/

/-- A GO write (R109): reads under way will not be installed; a GO while BUSY sets INV_IGNORED. -/
def Block.stnInvGo (b : Block) (k : Nat) : Block :=
  let s := b.station k
  if s.inv.isSome then b.flag (pgSTN k) 5
  else
    let op : InvOp := { scope := fld (b.reg (pgSTN k) 0x044) 1 0, arg := (b.reg (pgSTN k) 0x048).setWidth 64 }
    let old (f : Fill) : Fill := if f.phase.isIssued then { f with stale := true } else f
    b.setStation k { s with inv := some op, fills := s.fills.map old, refreshes := s.refreshes.map old }

/-- An entry that an invalidation names. -/
def InvOp.names (o : InvOp) : CKey → Bool
  | .src tag _ => o.scope == 0 || o.scope == 3 || (o.scope == 1 && tag == fld o.arg 23 0)
  | .eva e => o.scope == 0 || o.scope == 3 || (o.scope == 2 && e == fld o.arg 19 0)

/-- An invalidation completes. -/
def effStnInvDone (b : Block) (k : Nat) : Block :=
  let s := b.station k
  match s.inv with
  | none => b
  | some o =>
    let s := cacheMap s fun key v => if o.names key then none else some v
    (b.setStation k { s with inv := none, invCount := s.invCount + 1 }).flag (pgSTN k) 4

/-- STN_INV_DONE. -/
def execStnInvDone (k : Fin 8) (s : State) : Host.Outcome State Fault Refusal :=
  .next { s with blk := effStnInvDone s.blk k }

/-! ### Writes of the collectors' registers -/

/-- A write of LC_EN, LC_LEVEL or LC_POL number `r` takes effect (R84): disabled lines lose their raise bits, and each line of
the register that is then enabled, level-type and asserted raises one arrival. The levels of the cycle are the previous
values from then on, since a level is held before polarity. -/
def Block.lcWritten (b : Block) (c r : Nat) : Block :=
  let en := b.lcBits c 0x040
  let x := b.coll c
  let b := b.setColl c { x with raise := x.raise &&& en }
  b.raiseLines c (b.active c x.sync &&& en &&& b.lcBits c 0x050 &&& (0xFFFFFFFF#128 <<< (32 * r))) 0

/-- A test arrival (LC_INJECT). -/
def Block.lcInject (b : Block) (c : Nat) (line : Nat) : Block :=
  let m : BitVec 128 := (1 : BitVec 128) <<< line
  if b.lcBits c 0x040 &&& m = 0 then b.flag (pgLC c) 1 else b.raiseLines c m m

end Sys2Proof.Machine
end

