-- ==== Sys2Proof/Machine/Routing.lean ====
section
/-! DEFINITION. The pending array and the route engines (chapters 2, 5): admission, held arrivals, routing, multicast, the
forward to a Juwa lane; rank inserts at the context bank port; spills and refills. -/

namespace Sys2Proof.Machine

/-! ### Records (R234, R239) -/

/-- The record of an arrival (Tables 8-1, 8-2). -/
def recordOf (a : Arrival) (merged : Bool) : Rec :=
  { vevent := a.attr.vevent, prio := a.attr.prio, pf := a.pay.isSome, merged, type := a.attr.type.setWidth 4,
    w1 := a.tag24.setWidth 32 ||| at' (if a.pay.isSome then a.plen else 0) 24 ||| flagAt a.trunc 30, gt := a.gt,
    pay := a.pay }

/-- A record request is withdrawn by a merge: it carries no payload (R239). -/
def withdrawn (tok : Nat) (merged : Bool) (t : Option Nat) (r : Rec) : Bool :=
  t == some tok && (merged || r.merged) && !r.pf

/-- The merge indication of a grant reaches the record that waits for it (R239). -/
def Block.resolveRec (b : Block) (tok : Option Nat) (merged : Bool) : Block :=
  match tok with
  | none => b
  | some t =>
    let fixR (q : RecReq) : RecReq :=
      if q.tok == some t then { q with tok := none, rcd := { q.rcd with merged := q.rcd.merged || merged } } else q
    let fixS (x : Staged) : Staged :=
      if x.tok == some t then { x with tok := none, rcd := { x.rcd with merged := x.rcd.merged || merged } } else x
    { b with
      eng := b.eng.mapVals fun _ e => { e with recq := e.recq.mapVals fun _ l =>
        (l.filter fun q => !withdrawn t merged q.tok q.rcd).map fixR }
      wr := b.wr.mapVals fun _ w => { w with recs := (w.recs.filter fun x => !withdrawn t merged x.tok x.rcd).map fixS } }

/-! ### The pending array (R48 to R58) -/

/-- The arrival is placed (R50): P clears, a payload that no reader takes is freed (R106). -/
def Block.place (b : Block) (e : Event) : Block :=
  let p := b.pendOf e
  match p.fl with
  | some f => f.frees.foldl (fun b i => b.freePay (some i)) (b.setPend e { p with p := false, fl := none })
  | none => b

/-- One insert of an arrival has left its queue: the last one places it (R50). -/
def Block.leftQueue (b : Block) (e : Event) : Block :=
  let p := b.pendOf e
  match p.fl with
  | some f => if f.left ≤ 1 then b.place e else b.setPend e { p with fl := some { f with left := f.left - 1 } }
  | none => b

/-- Change the flight of an event. -/
def Block.modFlight (b : Block) (e : Event) (f : Flight → Flight) : Block :=
  let p := b.pendOf e
  match p.fl with
  | some x => b.setPend e { p with fl := some (f x) }
  | none => b

/-- Merge count of the arrival in flight (R24). -/
def Block.mergeOf (b : Block) (e : Event) : BitVec 8 :=
  match (b.pendOf e).fl with
  | some f => f.merge
  | none => 0

/-- An arrival joins its engine's input queue. -/
def Block.toEngine (b : Block) (a : Arrival) : Block :=
  let n := evBank a.ev
  let g := b.engine n
  b.setEngine n { g with inq := g.inq ++ [a] }

/-- A held event goes to its station as a re-entry (R157, R443); one that waited for the restart scan keeps what has merged into
it since the restart (R399). -/
def Block.reenter (b : Block) (e : Event) : Block :=
  let k := evBank e % 8
  let s := b.station k
  let p := b.pendOf e
  let src : Source := if wiredRange e then .line (e.setWidth 11) else .self e
  let fl := { p.fl.getD {} with looking := true, scan := false }
  (b.setPend e { p with p := true, fl := some fl }).setStation k
    { s with reentry := s.reentry ++ [{ kind := .reentry, src, pevent := e }] }

/-- The event is held (R49): pending, and neither in flight nor on its way to be looked up. One that a restart left pending is in
flight until the scan presents it, unless its mask is set before (R399). -/
def Pend.held (p : Pend) : Bool :=
  p.p && (match p.fl with
    | none => true
    | some f => f.scan && p.m)

/-- The event still waits for the restart scan (R399): pending, not masked, and not presented since the restart. -/
def Pend.unscanned (p : Pend) : Bool :=
  p.p && !p.m && (match p.fl with
    | none => true
    | some f => f.scan)

/-- Room in the re-entry queue of an event's station (R443). -/
def Block.reentryRoom (b : Block) (e : Event) : Bool := decide ((b.station (evBank e % 8)).reentry.length < 16)

/-! #### The pending-array bank ports (Table 1-5) -/

/-- The head of a receive FIFO of a Juwa port. -/
def Block.rxHead (b : Block) (p : Nat) (vc : Bool) : Option Frame := (if vc then (b.port p).rx1 else (b.port p).rx0).head?

/-- The head of a receive FIFO asks for bank q: a frame for this instance, with room in the re-entry queue (R303, R443), and in the
engine's input queue where it merges and may write a record of its own (R21). -/
def Block.rxAsks (b : Block) (p : Nat) (vc : Bool) (q : Nat) : Bool :=
  match b.rxHead p vc with
  | some f => f.dest == b.inst && evBank f.revent == q && b.reentryRoom f.revent &&
      (!(b.pendOf f.revent).p || f.plen == 0 || decide ((b.engine q).inq.length < 64))
  | none => false

/-- The mask write that the register fabric presents at bank q: one that a boundary released, else that of the port's head. -/
def Block.maskAsk (b : Block) (q : Nat) : Option Event :=
  match b.fab.masks.find? fun m => evBank m.1 == q with
  | some m => some m.1
  | none => match b.fab.ask with
    | .mask e => if evBank e = q then some e else none
    | _ => none

/-- A request at a pending-array bank port is eligible (Table 1-5, R443, R129): stations 0 to 7 while the engine's input queue has
room; Juwa receive ports 8 to 11; the register fabric 13; the scrubber 14. The route engine's placement, 12, acts in the cycle that
R50 names. That the events in the stations' output queues are not admitted either between cycles B and S is the model's choice:
R129 names the lanes, the Juwa receive ports and the register fabric only (DESIGN CHOICE, log 73). -/
def Block.pendElig (b : Block) (q i : Nat) : Bool :=
  b.dpOn &&
    (if i < 8 then !((b.station i).out q).isEmpty && decide ((b.engine q).inq.length < 64) && !b.last.paused
    else if i < 12 then !b.last.paused && (b.rxAsks (i - 8) false q || b.rxAsks (i - 8) true q)
    else if i = 13 then !b.last.paused && (match b.maskAsk q with
      | some e => b.reentryRoom e
      | none => false)
    else i == 14 && decide (0 < b.ras.scrub.get 0 q))

/-- The request that the arbiter of a pending-array bank port grants (R38). -/
def Block.pendPick (b : Block) (q : Nat) : Option Nat := b.pick (.pendBank q) (b.pendElig q)

/-- The station releases a payload at admission (R107). -/
def Block.dropPay (b : Block) (k : Nat) (pay : Option Nat) : Block :=
  if pay.isSome then (b.freePay pay).cntHalf (pgSTN k) 0x078 false else b

/-- An arrival that finds its event pending merges (R24, R58); its payload is released where the event is masked (R21, R107), and
else writes its own record. -/
def Block.mergeArrival (b : Block) (k : Nat) (a : Arrival) : Block :=
  let q := evBank a.ev
  let p := b.pendOf a.ev
  let b := b.pmuEv 0x08 q
  match p.fl with
  | none => (b.cnt (pgRE q) 0x070).dropPay k a.pay
  | some f =>
    if f.scan && p.m then (b.cnt (pgRE q) 0x070).dropPay k a.pay
    else
      let f := { f with merge := satAdd f.merge 1 }
      if a.pay.isNone then b.setPend a.ev { p with fl := some f }
      else if p.m then (b.setPend a.ev { p with fl := some f }).dropPay k a.pay
      else
        let f := { f with payl := true }
        let x := { a with recOnly := true, gt := f.gt }
        if f.looking then b.setPend a.ev { p with fl := some { f with pays := f.pays ++ [x] } }
        else (b.setPend a.ev { p with fl := some f }).toEngine x

/-- A re-entry comes back with its attributes: it is in flight, and the payload arrivals that merged meanwhile follow it (R157). -/
def Block.reentered (b : Block) (a : Arrival) : Block :=
  let p := b.pendOf a.ev
  match p.fl with
  | none => b
  | some f =>
    let b := b.setPend a.ev { p with fl := some { f with looking := false, gt := a.gt, attr := some a.attr, pays := [] } }
    f.pays.foldl (fun b x => b.toEngine { x with attr := a.attr, gt := a.gt }) (b.toEngine a)

/-- The request of station k at bank q is granted (R53, R24, R107, R157). STN_ADMIT counts the message and wired events (R111). -/
def Block.admitArrival (b : Block) (q k : Nat) : Block :=
  match (b.station k).out q with
  | [] => b
  | (i, at_) :: rest =>
    let b := b.setStation k { b.station k with outq := (b.station k).outq.set [] q rest }
    let a : Arrival := { ev := i.pevent, attr := at_, src := i.src, tag24 := i.tag, pay := i.pay, plen := i.plen,
                         trunc := i.trunc, gt := b.gt }
    if i.kind == .reentry then b.reentered a
    else
      let b := b.cnt48 (pgSTN k) 0x058 0x05C
      let p := b.pendOf a.ev
      if p.p then b.mergeArrival k a
      else if p.m then ((b.setPend a.ev { p with p := true }).pmuEv 0x09 q).dropPay k a.pay
      else (b.setPend a.ev { p with p := true, fl := some { payl := a.pay.isSome, gt := b.gt, attr := some at_ } }).toEngine a

/-- ARRIVAL_ADMIT on the block: station k's request, if the arbiter picks it. -/
def effArrivalAdmit (b : Block) (q k : Nat) : Block :=
  if b.pendPick q = some k then (b.admitArrival q k).granted (.pendBank q) k else b

/-- ARRIVAL_ADMIT. -/
def execArrivalAdmit (b : Fin 16) (k : Fin 8) (s : State) : Host.Outcome State Fault Refusal :=
  .next { s with blk := effArrivalAdmit s.blk b k }

/-- M of an event is written (R55, R56): clearing it with a held arrival re-enters the arrival. -/
def Block.writeMask (b : Block) (e : Event) (m : Bool) : Block :=
  if !hasState e then b else
    let p := b.pendOf e
    let b := b.setPend e { p with m }
    if p.m && !m && p.held then b.reenter e else b

/-- The mask writes that a boundary released are granted while the arbiter of their bank picks them (R56, R443). -/
def Block.grantMasks (b : Block) (q : Nat) : Nat → Block
  | 0 => b
  | fuel + 1 =>
    match b.fab.masks.find? fun m => evBank m.1 == q with
    | some m =>
      if b.pendPick q = some 13 then
        let b := { b with fab := { b.fab with masks := b.fab.masks.erase m } }
        Block.grantMasks ((b.writeMask m.1 m.2).granted (.pendBank q) 13) q fuel
      else b
    | none => b

/-! ### Juwa frames dropped at this instance (R298) -/

/-- A dropped event frame: JL_DROP, JL_LASTERR, the flag. -/
def Block.jlDrop (b : Block) (dest : BitVec 16) (cause : BitVec 4) (port : BitVec 2) : Block :=
  ((b.cnt pgJL 0x048).setReg pgJL 0x054 (dest.setWidth 32 ||| at' cause 16 ||| at' port 20)).flag pgJL 3

/-- The outgoing port of a destination (R298): its number, or the cause and port of a drop. -/
def Block.outPort (b : Block) (d : BitVec 16) : Sum (BitVec 2) (BitVec 4 × BitVec 2) :=
  let x := b.act.inrAt b.inst d
  if !x.valid then .inr (2, 0) else if !(b.port x.port.toNat).up then .inr (1, x.port) else .inl x.port

/-- A port's lanes in an engine. -/
def Engine.lane (g : Engine) (p : Nat) : Lanes := g.lanes.get {} p

/-- A frame joins a lane; as its head it waits from now on (R305). -/
def laneIn (b : Block) (l : List LaneFrame) (f : LaneFrame) : List LaneFrame := l ++ [{ f with since := b.clk.dclk }]

/-! ### Routing (R150 to R157) -/

/-- What is left of an arrival once its class is read: its inserts or its forward. -/
inductive Targets where
  | none
  | one (c : CtxNo)
  | set
  | remote
  deriving DecidableEq, Repr

/-- The targets of a class at its read (R152, R155): an any-of class names its target now. -/
def Block.targets (b : Block) (r : Rte) : Targets :=
  match r.kind.toNat with
  | 1 => .one r.target
  | 2 => .set
  | 3 =>
    let off := b.act.slotAt r.group (b.gt.toNat / b.car.cur.toNat % 64)
    if off = 0xFF then .none else .one (r.target + off.setWidth 16)
  | 4 => .remote
  | _ => .none

/-- The insert of a class for one target (R153): the arrival's merge count is taken at the grant. -/
def insertOf (a : Arrival) (r : Rte) (c : CtxNo) (tok : Option Nat) : Ins :=
  { ctx := c, userTag := r.userTag, urgent := r.urgent, flight := some a.ev, recTok := tok,
    entry := { pevent := a.ev, prio := a.attr.prio, payload := a.pay.isSome, cls := r.dclass, vevent := a.attr.vevent,
               ring := r.ring, ringValid := r.ringValid } }

/-- An engine's insert queue to a bank. -/
def Engine.ins (g : Engine) (q : Nat) : List Ins := g.insq.get [] q

/-- An insert joins the queue of its bank. -/
def Block.enqueueIns (b : Block) (n : Nat) (i : Ins) : Block :=
  let g := b.engine n
  b.setEngine n { g with insq := g.insq.upd [] (ctxBank i.ctx) (· ++ [i]) }

/-- Room for one insert of a target. -/
def Block.insRoom (b : Block) (n : Nat) (c : CtxNo) : Bool := decide (((b.engine n).ins (ctxBank c)).length < 16)

/-- A frame of an arrival (R156, R301); count and payload are taken when it leaves. -/
def Block.frameOf (b : Block) (a : Arrival) (r : Rte) : LaneFrame :=
  { fr := { pin := r.pin, dest := r.inst, origin := b.inst, oeng := a.ev.setWidth 4, hops := 1, revent := r.revent,
            plen := if a.pay.isSome then a.plen else 0, trunc := a.trunc },
    local? := some a.ev, pay := a.pay, tag := b.tagOf a.attr.owner }

/-- The forward of an arrival (R156, R298, R305); none: the lane it needs is full. -/
def Block.forward (b : Block) (n : Nat) (a : Arrival) (r : Rte) : Option Block :=
  match b.outPort r.inst with
  | .inr (cause, port) => some ((((b.jlDrop r.inst cause port).place a.ev).readPay a.pay).owe n 2)
  | .inl p =>
    let g := b.engine n
    let l := g.lane p.toNat
    let f := b.frameOf a r
    if r.pin then
      if 4 ≤ l.pin.length then none
      else some ((b.setEngine n { g with lanes := g.lanes.set {} p.toNat { l with pin := laneIn b l.pin f } }).owe n 3)
    else if 4 ≤ l.vc0.length then none
    else some ((b.setEngine n { g with lanes := g.lanes.set {} p.toNat { l with vc0 := laneIn b l.vc0 f } }).owe n 3)

/-- The head of the multicast queue leaves it without having made entries: its set has no members, or a read of it faulted. The
record stays and the arrival is placed (R154). -/
def Block.setGone (b : Block) (n : Nat) (m : McItem) : Block :=
  let b := (b.resolveRec m.recTok false).place m.arr.ev
  b.setEngine n { b.engine n with mcq := (b.engine n).mcq.drop 1 }

/-- Ask for the next lines of the set at the head of the queue (R154): its first line alone, then as many of the member lines as
lie in one page of memory, each a read of its own (R39). -/
def Block.readSet (b : Block) (n : Nat) (m : McItem) : Block :=
  let off := m.mcs.off + 256 * m.rte.set.setWidth 64 + 64 * BitVec.ofNat 64 m.got
  let lines := if m.got = 0 then 1 else min (m.need - m.got) (64 - off.toNat / 64 % 64)
  let rest := (b.engine n).mcq.drop 1
  let b := b.setEngine n { b.engine n with mcq := { m with lines } :: rest }
  match startRead b lines { seg := m.mcs.seg, off, op := opMcs, obj := m.rte.set.setWidth 16, cont := .mcs n } with
  | (b, .inl ph) => b.setEngine n { b.engine n with mcq := { m with lines, phase := some ph } :: rest }
  | (b, .inr _) => b.setGone n m

/-- Issue what the head of the multicast queue may issue: members of its set while their queues have room, or the targets of
an arrival that joined behind its source (R151, R154); `fuel` bounds the steps. -/
def Block.drainMc (b : Block) (n : Nat) : Nat → Block
  | 0 => b
  | fuel + 1 =>
    match (b.engine n).mcq with
    | [] => b
    | m :: rest =>
      let pop (b : Block) : Block := b.setEngine n { b.engine n with mcq := rest }
      match m.members with
      | some [] => Block.drainMc (pop b) n fuel
      | some (c :: cs) =>
        if b.insRoom n c then
          let b := b.enqueueIns n (insertOf m.arr m.rte c m.recTok)
          Block.drainMc (b.setEngine n { b.engine n with mcq := { m with members := some cs, recTok := none } :: rest }) n fuel
        else b
      | none =>
        if m.rte.kind = 0 then Block.drainMc (pop b) n fuel
        else if m.rte.kind = 2 then
          if m.phase = none then
            let b := b.readSet n m
            if (b.engine n).mcq.length = rest.length then Block.drainMc b n fuel else b
          else b
        else if m.rte.kind = 4 then
          match b.forward n m.arr m.rte with
          | some b => Block.drainMc (pop b) n fuel
          | none => b
        else if b.insRoom n m.rte.target then
          Block.drainMc (pop (b.enqueueIns n (insertOf m.arr m.rte m.rte.target m.recTok))) n fuel
        else b

/-- The engine is stopped: an insert queue is full (R150), the multicast queue is full (R151), or the head of the multicast queue
waits for room. -/
def Engine.stalled (g : Engine) : Bool :=
  g.insq.cells.any (fun q => decide (16 ≤ q.2.length)) || decide (64 ≤ g.mcq.length) ||
    match g.mcq with
    | m :: _ => (match m.members with
        | some (_ :: _) => true
        | _ => false) || (m.members.isNone && m.rte.kind != 2)
    | [] => false

/-- A record request's writer queue has room for it (log 16). -/
def Block.recRoom (b : Block) (n : Nat) (r : Rte) : Bool :=
  !r.ringValid || decide (((b.engine n).recq.get [] (ringWriter r.ring)).length < 2)

/-- An arrival waits behind one of its source in the multicast queue, or for the read of its own set (R151). -/
def Block.joins (b : Block) (n : Nat) (a : Arrival) (t : Targets) : Bool :=
  t == .set || (b.engine n).mcq.any (·.arr.src == a.src)

/-- The lane that a REMOTE class's frame needs has room, or the frame is dropped (R298, R305). -/
def Block.laneRoom (b : Block) (n : Nat) (r : Rte) : Bool :=
  match b.outPort r.inst with
  | .inr _ => true
  | .inl p =>
    let l := (b.engine n).lane p.toNat
    if r.pin then decide (l.pin.length < 4) else decide (l.vc0.length < 4)

/-- The engine can act on an arrival of a class: the queues it needs have room (R150, R151, R305). -/
def Block.canRoute (b : Block) (n : Nat) (a : Arrival) (r : Rte) : Bool :=
  b.recRoom n r && (a.recOnly || (match b.targets r with
    | .one c => b.joins n a (.one c) || b.insRoom n c
    | .remote => b.joins n a .remote || b.laneRoom n r
    | _ => true))

/-- An arrival joins the multicast queue (R151): `kind` 0 when nothing of it is left to do there. -/
def Block.joinMc (b : Block) (n : Nat) (a : Arrival) (r : Rte) (tok : Option Nat) : Block :=
  let g := b.engine n
  (b.setEngine n { g with mcq := g.mcq ++ [{ arr := a, rte := r, recTok := tok, mcs := b.act.mcsBase }] }).drainMc n 200

/-- Everything a class does with an arrival, which the engine can act on (R152 to R156). -/
def Block.routeBy (b : Block) (n : Nat) (a : Arrival) (r : Rte) : Block :=
  let t := b.targets r
  let join := b.joins n a t
  let waits := match t with
    | .one _ => true
    | .set => true
    | _ => false
  let (b, tok) := if r.ringValid && waits then
      let x := b.newTok
      (x.1, some x.2)
    else (b, none)
  let ring : Nat := if r.ringValid then 1 else 0
  let b := b.setReaders a.pay (if t == .remote then ring + 1 else max ring 1)
  let b := if r.ringValid then
      b.reqRecord n { ring := r.ring, rcd := recordOf a false, tok, places := if t == .none then some a.ev else none }
    else b
  let b := if ring = 0 && t != .remote then b.modFlight a.ev fun f => { f with frees := f.frees ++ a.pay.toList } else b
  let b := if r.kind = 3 && t == .none then (b.cnt (pgRE n) 0x07C).flag (pgRE n) 6 else b
  let left := match t with
    | .one _ => 1
    | _ => 0
  let b := b.modFlight a.ev fun f => { f with left }
  match t with
  | .none =>
    let b := (if r.ringValid then b else b.place a.ev).owe n 2
    if join then b.joinMc n a {} none else b
  | .one c =>
    if join then b.joinMc n a { r with target := c, kind := 1 } tok else b.enqueueIns n (insertOf a r c tok)
  | .remote => if join then b.joinMc n a r tok else (b.forward n a r).getD b
  | .set => b.joinMc n a r tok

/-- An arrival that merged at the pending array writes its own record only (R21); a payload that no ring takes is freed when the
event is placed (R106). -/
def Block.routeRecord (b : Block) (n : Nat) (a : Arrival) (r : Rte) : Block :=
  let join := b.joins n a .none
  let b := if r.ringValid then (b.reqRecord n { ring := r.ring, rcd := recordOf a true }).owe n 2
    else if (b.pendOf a.ev).fl.isSome then b.modFlight a.ev fun f => { f with frees := f.frees ++ a.pay.toList }
    else b.freePay a.pay
  if join then b.joinMc n a {} none else b

/-- A class whose store word met an uncorrectable error (Table 15-3): the active bank in bit 23. -/
def Block.badClass (b : Block) (c : BitVec 12) : Bool :=
  b.ras.badClasses.contains (c.setWidth 24 ||| flagAt b.last.active 23)

/-- The next arrival of an engine that is not stopped (R150, R151). -/
def Block.nextArrival (b : Block) (n : Nat) : Option Arrival :=
  if (b.engine n).stalled then none
  else ((b.engine n).inq.head?).filter fun a =>
    b.badClass a.attr.cls || !b.ownerActive a.attr.owner || b.canRoute n a (b.rte a.attr.cls)

/-- A request at a route-class store bank port is eligible (Table 1-5): engines 0 to 15, the scrubber 16. -/
def Block.classElig (b : Block) (q i : Nat) : Bool :=
  b.dpOn && (if i < 16 then (match b.nextArrival i with
      | some a => a.attr.cls.toNat % 16 == q
      | none => false)
    else i == 16 && decide (0 < b.ras.scrub.get 0 (Res.classBank q).key))

/-- The request that the arbiter of a route-class store bank port grants (R38). -/
def Block.classPick (b : Block) (q : Nat) : Option Nat := b.pick (.classBank q) (b.classElig q)

/-- A route engine reads the class of its next arrival and acts on it (R152). -/
def Block.routeNext (b : Block) (n : Nat) (a : Arrival) : Block :=
  let r := b.rte a.attr.cls
  let b1 := b.setEngine n { b.engine n with inq := (b.engine n).inq.drop 1 }
  let read (b : Block) : Block := (b.cnt48 (pgRE n) 0x068 0x06C).pmuEv 0x0A n
  if b.badClass a.attr.cls then
    if a.recOnly then b1.freePay a.pay
    else
      let p := b.pendOf a.ev
      let frees := match p.fl with
        | some f => f.frees
        | none => []
      frees.foldl (fun b i => b.freePay (some i)) ((b1.setPend a.ev { p with p := true, m := true, fl := none }).freePay a.pay)
  else if a.recOnly then
    if !b.ownerActive a.attr.owner then ((b1.freePay a.pay).cnt pgVMGR 0x0B0).owe n 5 else b1.routeRecord n a r
  else if !b.ownerActive a.attr.owner then (read (((b1.place a.ev).freePay a.pay).cnt pgVMGR 0x0B0)).owe n 5
  else read (b1.routeBy n a r)

/-- ROUTE_ARRIVAL on the block: engine n's class read, if the arbiter of the class's bank picks it. -/
def effRouteArrival (b : Block) (n : Nat) : Block :=
  match b.nextArrival n with
  | some a =>
    let q := a.attr.cls.toNat % 16
    if b.classPick q = some n then (b.routeNext n a).granted (.classBank q) n else b
  | none => b

/-- ROUTE_ARRIVAL. -/
def execRouteArrival (n : Fin 16) (s : State) : Host.Outcome State Fault Refusal :=
  .next { s with blk := effRouteArrival s.blk n }

/-- The members of a set as its bytes spell them (R122). -/
def setMembers (bytes : List Byte) : List CtxNo :=
  (List.range (min (leNat (bytes.take 1) % 128) 64)).map fun i => leBits 16 ((bytes.drop (0x40 + 2 * i)).take 2)

/-- COUNT of a set as its first line shows it (R122). -/
def setCountOf (bytes : List Byte) : Nat := leNat (bytes.take 1) % 128

/-- The set at the head of the queue has been read whole: COUNT above 64 is taken as 64 (R122), and the members' inserts go out
(R154). -/
def Block.setRead (b : Block) (n : Nat) (m : McItem) (bytes : List Byte) : Block :=
  let b := if 64 < setCountOf bytes then (b.cnt (pgRE n) 0x078).flag (pgRE n) 5 else b
  match setMembers bytes with
  | [] => b.setGone n m
  | cs =>
    let b := b.modFlight m.arr.ev fun f => { f with left := cs.length }
    b.setEngine n { b.engine n with mcq := { m with phase := none, members := some cs } :: (b.engine n).mcq.drop 1 }

/-- The lines of a set that are asked for have answered: the next ones are asked for, which may be answered at once from the same
bytes, or the set is read (R154); `fuel` bounds the steps. -/
def Block.setLines (b : Block) (n : Nat) (bytes : List Byte) : Nat → Block
  | 0 => b
  | fuel + 1 =>
    match (b.engine n).mcq with
    | m :: _ =>
      if (match m.phase with
          | some p => p.isIssued
          | none => false) then
        let need := if m.got = 0 then 1 + (min (setCountOf bytes) 64 + 31) / 32 else m.need
        let m' := { m with got := m.got + m.lines, need, phase := none }
        let b := (b.freeLines m.lines).setEngine n { (b.freeLines m.lines).engine n with mcq := m' :: (b.engine n).mcq.drop 1 }
        if need ≤ m'.got then b.setRead n m' bytes else Block.setLines (b.readSet n m') n bytes fuel
      else b
    | [] => b

/-- The reads of a multicast set answer (R154): the bytes of its line 0 and of the member lines. -/
def effMcsSetReadDone (b : Block) (n : Nat) (r : MemResp) : Block :=
  match b.orphanDone (.mcs n) with
  | some b => b
  | none => match (b.engine n).mcq with
  | m :: _ =>
    if (match m.phase with
        | some p => p.isIssued
        | none => false) then
      match r with
      | .ok bytes => (b.setLines n bytes 4).drainMc n 200
      | _ => ((b.freeLines m.lines).setGone n m).drainMc n 200
    else b
  | [] => b

/-- MCS_SET_READ_DONE. -/
def execMcsSetReadDone (n : Fin 16) (r : MemResp) (s : State) : Host.Outcome State Fault Refusal :=
  .next { s with blk := effMcsSetReadDone s.blk n r }

/-! ### Rank inserts at the context bank port (R66, R160, R226) -/

/-- The insert at the head of an intake of requester 16 or 17. -/
def headIns : List BankOp → Option Ins
  | .ins i :: _ => some i
  | _ => none

/-- The insert at the head of a requester's queue at bank q (Table 1-5, R444). -/
def Block.bankHead (b : Block) (q r : Nat) : Option Ins :=
  if r < 16 then ((b.engine r).ins q).head?
  else if r = 16 then headIns (b.bank q).in16
  else if r = 17 then headIns (b.bank q).car17
  else if r = 18 then (b.bank q).resq.find? fun i => (b.rec? i.ctx).isSome || !b.awaited i.ctx
  else none

/-- A requester's queue at bank q without its head. -/
def Block.bankPop (b : Block) (q r : Nat) : Block :=
  let k := b.bank q
  if r < 16 then
    let g := b.engine r
    (b.setEngine r { g with insq := g.insq.upd [] q (·.drop 1) }).drainMc r 200
  else if r = 16 then b.setBank q { k with in16 := k.in16.drop 1 }
  else if r = 17 then b.setBank q { k with car17 := k.car17.drop 1 }
  else match b.bankHead q 18 with
    | some i => b.setBank q { k with resq := k.resq.erase i }
    | none => b

/-- Residency and spill queue entries of a bank (R163). -/
def CBank.queued (k : CBank) : Nat := k.resq.length + k.spills.length

/-- Some arrival in flight under this event carried payload (Table 2-7). -/
def Block.paylOf (b : Block) (e : Event) : Bool :=
  match (b.pendOf e).fl with
  | some f => f.payl
  | none => false

/-- An insert with its arrival's merge count (R153), and PAYLOAD if one of the merged arrivals carried payload. -/
def Block.withMerge (b : Block) (i : Ins) : Ins :=
  match i.flight with
  | some e => { i with entry := { i.entry with merge := b.mergeOf e, payload := i.entry.payload || b.paylOf e } }
  | none => i

/-- A context is in a trapeze handoff (R226). -/
def Block.moving (b : Block) (c : CtxNo) : Bool :=
  match b.rec? c with
  | some x => x.moving
  | none => false

/-- The core-slice group whose page a handoff of a context is on: its target seat's (R226). -/
def Block.moveGroup (b : Block) (c : CtxNo) : Nat :=
  match b.csg.cells.find? fun p => p.2.busy && p.2.ctx == c with
  | some p => csgOf (p.2.target.getD 0 / 2)
  | none => 0

/-- The grant of an insert: made, its record told, its arrival one insert nearer to placement. -/
def Block.grantIns (b : Block) (q r : Nat) (i : Ins) : Block :=
  let (b, merged) := (b.pmuEv 0x0B q).doInsert i
  let b := b.resolveRec i.recTok merged
  let b := if r < 16 then b.owe r (if merged then 4 else 1) else b
  match i.flight with
  | some e => b.leftQueue e
  | none => b

/-- An insert at the head of requester r's queue may be granted (R226, Table 5-3, R163): there is room where it would be held
while its context is in a handoff or a LOAD, or where it would be queued for a context that is not resident. -/
def Block.insElig (b : Block) (q r : Nat) (i : Ins) : Bool :=
  if b.moving i.ctx then decide (b.hold.countP (·.src == r) < 32)
  else if b.awaited i.ctx then r == 18 || decide ((b.bank q).queued < 64)
  else (b.rec? i.ctx).isSome || !b.tableOn i.ctx || r == 18 || decide ((b.bank q).queued < 64)

/-- The head of an intake of requester 16 or 17 may be granted. -/
def Block.opElig (b : Block) (q r : Nat) : List BankOp → Bool
  | .ins i :: _ => b.insElig q r i
  | _ :: _ => true
  | [] => false

/-- A request at a context bank port is eligible (Table 1-5, R444): route engines 0 to 15, requester 16, the Carousel 17, the
residency and spill engine 18, the scrubber 19. -/
def Block.bankElig (b : Block) (q r : Nat) : Bool :=
  b.dpOn &&
    (if r = 16 then b.opElig q r (b.bank q).in16
    else if r = 17 then b.opElig q r (b.bank q).car17
    else if r = 19 then decide (0 < b.ras.scrub.get 0 (Res.ctxBank q).key)
    else match b.bankHead q r with
      | some i => b.insElig q r i
      | none => false)

/-- The request that the arbiter of a context bank port grants (R38). -/
def Block.bankPick (b : Block) (q : Nat) : Option Nat := b.pick (.ctxBank q) (b.bankElig q)

/-- An insert leaves its queue without being made: its arrival is one insert nearer to placement (R50). -/
def Block.insTaken (b : Block) (q r : Nat) (i : Ins) : Block :=
  let b := match i.flight with
    | some e => b.leftQueue e
    | none => b
  b.bankPop q r

/-- A requester's head insert is granted: held at its source during a handoff (R226), held in the residency queue during a LOAD
(Table 5-3), else made. -/
def Block.grantHead (b : Block) (q r : Nat) (i0 : Ins) : Block :=
  let i := b.withMerge i0
  if b.moving i.ctx then
    let b := b.cnt (pgCSG (b.moveGroup i.ctx)) 0x084
    ({ b with hold := b.hold ++ [HeldIns.mk r { i with flight := none, report := false }] }).insTaken q r i
  else if b.awaited i.ctx && r != 18 then
    (b.setBank q { b.bank q with resq := (b.bank q).resq ++ [{ i with flight := none, report := false }] }).insTaken q r i
  else (b.bankPop q r).grantIns q r i

/-! ### Table-entry reads of inserts, pushes (R148, R149, R163) -/

/-- Fields of a table entry from its byte 0x40 on (Table 5-1). -/
structure TabEnt where
  page : BitVec 36
  seg : BitVec 6
  valid : Bool
  owner : OwnerNo
  wakeCtx : CtxNo
  wakeRing : RingNo
  wakeRingV : Bool
  deriving DecidableEq, Repr

/-- Bytes 0x40 to 0x4F. -/
def tabEntOf (bytes : List Byte) : TabEnt :=
  let x : BitVec 128 := leBits 128 (bytes.take 16)
  { page := fld x 35 0, seg := fld x 41 36, valid := bit x 63, owner := fld x 76 64, wakeCtx := fld x 111 96,
    wakeRing := fld x 125 112, wakeRingV := bit x 126 }

/-- The entry read of an insert answered (R148, R149, R160, R260, R273): its owner is known from then on. A class-U insert has made
no entry (R158). -/
def Block.entryRead (b : Block) (s : Spill) (t : TabEnt) : Block :=
  let c := s.ctx
  let reset := match s.ins with
    | some i => i.old.contains t.owner
    | none => false
  let guard := match s.ins with
    | some i => match i.guard with
      | some o => o != t.owner
      | none => false
    | none => false
  let wakes := match s.ins with
    | some i => i.wakes
    | none => true
  if !t.valid then (b.dropSpill c).ctxInvalid c
  else if reset then (b.dropSpill c).cnt pgVMGR 0x0B4
  else if !b.ownerActive t.owner then (b.dropSpill c).cnt pgVMGR 0x0B0
  else if guard then (b.dropSpill c).cnt pgVMGR 0x0BC
  else if s.entry.cls = 2 then b.dropSpill c
  else
    let b := if wakes then b.wake c 1 t.wakeCtx t.wakeRing t.wakeRingV else b
    let s := { s with known := some (t.seg, t.page, t.owner) }
    let b := b.modSpill c fun (_ : Spill) => { s with ph := .queued }
    if b.ctxWrites c false then b else b.readDesc s

/-! ### Refills (R66) -/

/-- Entries of a bucket from its front on. -/
def bucketEntries (bytes : List Byte) (h : Nat) (n : Nat) : List Entry :=
  (List.range n).map fun i => entryOf (leBits 128 ((bytes.drop (16 + 16 * ((h + i) % 15))).take 16))

/-- Take up to four entries at a time while fewer than 8 are in the shortlist; answers the list and how many were taken. -/
def takeEntries : Nat → List Entry → List Entry → List Entry × Nat
  | 0, l, _ => (l, 0)
  | _ + 1, l, [] => (l, 0)
  | fuel + 1, l, es =>
    if 8 ≤ l.length then (l, 0) else
      let r := takeEntries fuel ((es.take 4).foldl refillEntry l) (es.drop 4)
      (r.1, (es.take 4).length + r.2)

/-- A refill stands still: the descriptors of the buckets it has taken from are written back, and waiting pushes may start. -/
def Block.pauseRefill (b : Block) (c : CtxNo) : Block :=
  match b.rec? c with
  | some x => match x.refill with
    | some f => ((b.setRec c { x with refill := none }).writeDescs c x f.descs).kickSpills (ctxBank c)
    | none => b
  | none => b

/-- The end of a refill (R66): the context is re-evaluated (R63). -/
def Block.endRefill (b : Block) (c : CtxNo) : Block :=
  (b.modRec c fun x => { x with refillOn := false, dirty := true }).pauseRefill c

/-- Refill goes on with the next bucket, or ends. A push that waits is carried out first (R65). -/
def Block.nextBucket (b : Block) (c : CtxNo) : Block :=
  match b.rec? c with
  | none => b
  | some x =>
    if 8 ≤ x.shortlist.length || x.spillMap == 0 then b.endRefill c
    else if (b.spillOf c).isSome then (b.modRec c fun x => { x with dirty := true }).pauseRefill c
    else
      let b := b.readBucket c 64
      match b.rec? c with
      | some y => if y.spillMap = 0 then b.endRefill c else b
      | none => b

/-- The bucket a refill has read is no longer the front of the spill area (R65): a more urgent queue is not empty, or an entry
waits to be pushed to its front. -/
def Block.bucketStale (b : Block) (c : CtxNo) (x : Ctx) (f : Refill) : Bool :=
  spillBest x != some f.prio.toNat ||
    (b.bank (ctxBank c)).spills.any fun s => s.ctx == c && s.front && s.entry.prio == f.prio

/-- A bucket's bytes reach the refill. -/
def Block.takeBucket (b : Block) (c : CtxNo) (x : Ctx) (f : Refill) (r : MemResp) : Block :=
  let queued := (b.bank (ctxBank c)).spills.any fun s => s.ctx == c && s.entry.prio == f.prio
  let clear (x : Ctx) : Ctx := if queued then x else { x with spillMap := setBit x.spillMap f.prio.toNat false }
  if b.bucketStale c x f then b.pauseRefill c
  else match r with
  | .ok bytes => match descOf (leBits 128 (bytes.take 16)) with
    | some (h, n) =>
      let (l, k) := takeEntries 4 x.shortlist (bucketEntries bytes h n)
      let f := if k = 0 then f else { f with descs := f.descs ++ [(f.prio, descBytes ((h + k) % 15) (n - k))] }
      let x := { x with shortlist := l, refill := some f }
      (b.setRec c (if k = n then clear x else x)).nextBucket c
    | none =>
      let f := { f with descs := f.descs ++ [(f.prio, descBytes 0 0)] }
      (b.setRec c (clear { x with refill := some f, flags := setBit x.flags 5 true })).nextBucket c
  | _ => (b.setRec c (clear { x with flags := setBit x.flags 5 true })).nextBucket c

/-- REFILL_DONE on the block: the answers to the refill's reads, in the order of its buckets. -/
def effRefillDone (b : Block) (c : CtxNo) : List BucketRead → Block
  | [] => b
  | r :: rest =>
    match b.orphanDone (.refill c) with
    | some b => effRefillDone b c rest
    | none => match b.rec? c with
    | some x => match x.refill with
      | some f =>
        if f.phase.isIssued && r.prio == f.prio then effRefillDone ((b.freeLines 4).takeBucket c x f r.resp) c rest else b
      | none => b
    | none => b

/-- REFILL_DONE. -/
def execRefillDone (c : CtxNo) (buckets : List BucketRead) (s : State) : Host.Outcome State Fault Refusal :=
  .next { s with blk := effRefillDone s.blk c buckets }

/-! ### Explicit pins (R165) -/

/-- The pin command of RE_PIN: OP 1 pins, 2 unpins, others do nothing. R165 gives WRONG_PART for pinning; that unpinning a context
of another partition answers it too is the model's choice (DESIGN CHOICE, log 74). -/
def Block.pinCmd (b : Block) (n : Nat) (v : Word) : Block :=
  let c : CtxNo := fld v 15 0
  let result (b : Block) (r : BitVec 2) : Block := b.setReg (pgRE n) 0x05C (r.setWidth 32 ||| at' c 16)
  let op := fld v 17 16
  if op ≠ 1 ∧ op ≠ 2 then b
  else if ctxBank c ≠ n then result b 3
  else match b.rec? c with
    | none => result b (if op = 2 then 0 else 1)
    | some x =>
      if op = 2 then result (b.setRec c { x with pinned := false }) 0
      else if 2304 ≤ b.pinnedIn n then ((result b 2).reErr c 4).flag (pgRE n) 3
      else result (b.setRec c { x with pinned := true }) 0

end Sys2Proof.Machine
end

