-- ==== Sys2Proof/Machine/Delivery.lean ====
section
/-! DEFINITION. Delivery to threads (chapter 7): re-evaluation, the notification handshake with the core slices, and what a
thread operation does at the context bank port. A seat is numbered 2 × thread + (0 HS, 1 GS). -/

namespace Sys2Proof.Machine

/-! ### Re-evaluation (R63, R209, R211) -/

/-- The best entry, if it qualifies (R62, R67). -/
def Ctx.best (x : Ctx) : Option Entry :=
  match x.shortlist with
  | e :: _ => if qualifies x e.prio then some e else none
  | [] => none

/-- The line of an entry's class at a seat (Table 7-1). -/
def Block.lineOf (b : Block) (i : Nat) (cls : BitVec 2) : Line :=
  if i % 2 = 1 then (if cls = 2 then .U else .G)
  else if cls = 2 ∧ (b.seatOf (i + 1)).ctx = none then .U else .H

/-- A resident context that is not current wakes the one its record names when its best entry qualifies (Table 5-3). A wake
event that waits there causes no further wake (R161), and a context of the basic build has no wake target (R141). -/
def Block.wakeFor (b : Block) (c : CtxNo) (x : Ctx) : Block :=
  match x.best with
  | some e =>
    if x.basic || (e.banked && e.pevent == 0x00905) then b else b.wake c 2 x.wakeCtx x.wakeRing x.wakeRingV
  | none => b

/-- A seat's request for the delivery port (R207): it joins the queue of its context's bank, or changes in its place there. -/
def Block.ask (b : Block) (i : Nat) (r : SeatReq × BitVec 4) : Block :=
  let s := b.seatOf i
  let b := b.setSeat i { s with req := some r }
  if s.req.isSome then b
  else
    let q := match s.ctx with
      | some c => ctxBank c
      | none => 0
    let b := { b with cb := b.cb.remap {} fun _ k => { k with notes := k.notes.filter (· != i) } }
    b.setBank q { b.bank q with notes := (b.bank q).notes ++ [i] }

/-- A context is re-evaluated. A decision that needs the thread's tracker or the port waits with the context (R27, R207). -/
def Block.reevaluate (b : Block) (c : CtxNo) : Block :=
  match b.rec? c with
  | none => b
  | some x =>
    if !x.dirty || x.moving then b else
      let still := b.setRec c { x with dirty := false }
      match x.seat with
      | some i =>
        if !b.current x then still.wakeFor c x
        else
          let s := b.seatOf i
          let free := s.req.isNone && !(b.thread (i / 2)).trk
          match x.best with
          | some e =>
            if s.out then still
            else if free then
              (still.setSeat i { s with nnum := s.nnum + 1, out := true }).ask i (.notify (b.lineOf i e.cls) e.prio false, s.nnum + 1)
            else b
          | none =>
            if !s.out then still
            else if free then still.ask i (.withdraw, s.nnum)
            else b
      | none => still.wakeFor c x

/-- REEVALUATE. -/
def execReevaluate (c : CtxNo) (s : State) : Host.Outcome State Fault Refusal :=
  .next { s with blk := if s.blk.dpOn then s.blk.reevaluate c else s.blk }

/-- A context is to be re-evaluated. -/
def Block.dirty (b : Block) (c : CtxNo) : Block := b.modRec c fun x => { x with dirty := true }

/-- The context in a seat is to be re-evaluated. -/
def Block.dirtySeat (b : Block) (i : Nat) : Block :=
  match (b.seatOf i).ctx with
  | some c => b.dirty c
  | none => b

/-- An outstanding notification of a seat that is being emptied is withdrawn (R211); a notification not yet granted is
replaced. -/
def Block.withdrawSeat (b : Block) (i : Nat) : Block :=
  let s := b.seatOf i
  if s.out then b.ask i (.withdraw, s.nnum) else b

/-! ### The delivery port (R207) -/

/-- The request that bank n presents at delivery port d: the first it was asked for whose thread's tracker is free (R207). -/
def Block.noteHead (b : Block) (n d : Nat) : Option Nat :=
  (b.bank n).notes.find? fun i =>
    (b.seatOf i).req.isSome && i / 8 % 4 == d && b.linkUp (i / 2) && !(b.thread (i / 2)).trk

/-- A request at a delivery port is eligible (Table 1-5): that of each context bank. -/
def Block.dportElig (b : Block) (d n : Nat) : Bool := b.dpOn && (b.noteHead n d).isSome

/-- The request that the arbiter of a delivery port grants (R38). -/
def Block.dportPick (b : Block) (d : Nat) : Option Nat := b.pick (.dport d) (b.dportElig d)

/-- A seat's request is granted: the tracker is taken and the message goes to the slice. -/
def Block.grantSeat (b : Block) (i : Nat) : Block :=
  let t := i / 2
  let h := b.thread t
  let s := b.seatOf i
  let gs := decide (i % 2 = 1)
  let pg := pgCSG (csgOf t)
  let b := { b with cb := b.cb.remap {} fun _ k => { k with notes := k.notes.filter (· != i) } }
  match s.req with
  | some (.notify line prio again, nnum) =>
    let b := b.setSeat i { s with req := none }
    let tag := match s.ctx with
      | some c => match b.rec? c with
        | some x => b.tagOf x.owner
        | none => {}
      | none => {}
    let m : SliceMsg := .notify gs line nnum prio
    let b := b.setThread t { h with trk := true, tag, sent := some m, notifCh := h.notifCh ++ [m] }
    let b := match s.ctx with
      | some c => b.modRec c fun x => { x with lastSent := some b.gt, lastNote := if again then x.lastNote else some b.gt }
      | none => b
    let b := (b.cnt pg 0x060).pmuEv 0x0F (t / 4 % 4)
    if again then b.cnt pg 0x068 else b
  | some (.withdraw, nnum) =>
    let b := b.setSeat i { s with req := none, out := false }
    let m : SliceMsg := .withdraw gs nnum
    (b.setThread t { h with trk := true, sent := some m, notifCh := h.notifCh ++ [m] }).cnt pg 0x064
  | none => b

/-- DELIVERY_GRANT on the block: the request of thread t, if the arbiter of its delivery port picks it. -/
def effDeliveryGrant (b : Block) (t : Nat) : Block :=
  let d := t / 4 % 4
  match b.dportPick d with
  | some n => match b.noteHead n d with
    | some i => if i / 2 = t then (b.grantSeat i).granted (.dport d) n else b
    | none => b
  | none => b

/-- DELIVERY_GRANT. -/
def execDeliveryGrant (t : ThreadNo) (s : State) : Host.Outcome State Fault Refusal :=
  .next { s with blk := effDeliveryGrant s.blk t.toNat }

/-! ### The slice (R209 to R211) -/

/-- `x` is `c` or up to 7 behind it, modulo 16. -/
def covers (c x : BitVec 4) : Bool := decide ((c - x).toNat ≤ 7)

/-- COVERED moves only forward: a value 1 to 8 ahead replaces it. -/
def moveCovered (c v : BitVec 4) : BitVec 4 := if 1 ≤ (v - c).toNat ∧ (v - c).toNat ≤ 8 then v else c

/-- H, G, U of a thread as the slice last confirmed them (LINES): the lines of the NOTIFYs that it confirmed with DROPPED = 0, until
it confirms a later message for the seat. CONFIRM names no line (Table 7-2), and the spec does not say how the block knows of a line
that an ACK has de-asserted since: the model shows what was confirmed (DESIGN CHOICE, log 75). -/
def Block.hguOf (b : Block) (t : Nat) : BitVec 3 :=
  let on (l : Line) : Bool := [2 * t, 2 * t + 1].any fun i => match (b.seatOf i).conf with
    | some (m, _) => m == l
    | none => false
  flagAt (on .H) 0 ||| flagAt (on .G) 1 ||| flagAt (on .U) 2

/-- The level of a seat's line at the core (R210). -/
def Block.lineLevel (b : Block) (i : Nat) : Option Line :=
  if b.clk.ns < (b.seatOf i).low then none else (b.seatOf i).line.map Prod.fst

/-- The slice answers CONFIRM on the upstream channel. -/
def Block.confirms (b : Block) (t : Nat) (gs : Bool) (nnum : BitVec 4) (dropped : Bool) : Block :=
  let h := b.thread t
  b.setThread t { h with up := h.up ++ [.confirm gs nnum dropped] }

/-- The seat index of a thread. -/
def seatIx (t : Nat) (gs : Bool) : Nat := 2 * t + (if gs then 1 else 0)

/-- A NOTIFY reaches a seat's line (R210): one that names the line already asserted de-asserts it for 8 ns first. -/
def Seat.assert (s : Seat) (ns : Nat) (line : Line) (nnum : BitVec 4) : Seat :=
  let again := match s.line with
    | some (l, _) => l == line
    | none => false
  { s with line := some (line, nnum), low := if again then ns + 8 else 0 }

/-- The message at the head of a thread's notification channel reaches its slice. `wd` says which of the two commands it
is. -/
def effSliceMsg (b : Block) (wd : Bool) (t : Nat) : Block :=
  let h := b.thread t
  match h.notifCh with
  | .notify gs line nnum _ :: rest =>
    if wd then b else
      let b := b.setThread t { h with notifCh := rest }
      let i := seatIx t gs
      let s := b.seatOf i
      if covers s.covered nnum then (b.cnt (pgCSG (csgOf t)) 0x074).confirms t gs nnum true
      else (b.setSeat i (s.assert b.clk.ns line nnum)).confirms t gs nnum false
  | .withdraw gs nnum :: rest =>
    if !wd then b else
      let b := b.setThread t { h with notifCh := rest }
      let i := seatIx t gs
      let s := b.seatOf i
      let line := match s.line with
        | some (l, n) => if n = nnum then none else some (l, n)
        | none => none
      (b.setSeat i { s with line, covered := moveCovered s.covered nnum }).confirms t gs nnum false
  | [] => b

/-- NOTIFY. -/
def execNotify (t : ThreadNo) (s : State) : Host.Outcome State Fault Refusal :=
  .next { s with blk := effSliceMsg s.blk false t.toNat }

/-- WITHDRAW. -/
def execWithdraw (t : ThreadNo) (s : State) : Host.Outcome State Fault Refusal :=
  .next { s with blk := effSliceMsg s.blk true t.toNat }

/-- A request is no longer wanted. -/
def Block.unask (b : Block) (i : Nat) : Block :=
  let b := b.setSeat i { b.seatOf i with req := none }
  { b with cb := b.cb.remap {} fun _ k => { k with notes := k.notes.filter (· != i) } }

/-- A pending request of a seat whose thread's tracker was taken is made anew for what qualifies now (R27, R77, R207). -/
def Block.refreshReq (b : Block) (i : Nat) : Block :=
  let s := b.seatOf i
  match s.req, s.ctx with
  | some (.notify _ _ again, n), some c =>
    let best := match b.rec? c with
      | some x => x.best
      | none => none
    match best with
    | some e =>
      if s.out then b.ask i (.notify (b.lineOf i e.cls) e.prio again, n) else b.unask i
    | none => if s.out && !again then b.ask i (.withdraw, n) else b.unask i
  | _, _ => b

/-! ### The timer of a context (R191, R195 to R197) -/

/-- The slot number of a GT (R184). -/
def slotOf (cur : BitVec 13) (t : Nat) : Nat := t / max cur.toNat 1

/-- Key of a deadline (R191). -/
def keyOf (cur : BitVec 13) (t : Nat) : Nat := (t + max cur.toNat 1 - 1) / max cur.toNat 1

/-- Where the wheel holds a deadline now: the fine stage for the current and the next slot, a bucket, the far list. -/
def Block.timerLoc (b : Block) (tdl : Gt) : TimerLoc :=
  let k := keyOf b.car.cur tdl.toNat
  let n := slotOf b.car.cur b.gt.toNat
  if k ≤ n + 1 then .fine else if k < n + 4096 then .bucket k else .far k

/-- The record with its timer on the wheel. -/
def Block.linkTimer (b : Block) (x : Ctx) : Ctx := { x with loc := if x.tarm then b.timerLoc x.tdl else .none }

/-! ### Thread operations at the context bank port (R73, R217 to R219) -/

/-- A deactivation (R73, Table 2-4): A clears, a level-type line is to be sampled. -/
def Block.deactivated (b : Block) (a : Act) (sample : Bool) : Block :=
  if a.banked then b else
    let p := b.pendOf a.pevent
    let b := b.setPend a.pevent { p with a := false }
    let c := a.pevent.toNat / 128
    if sample && wiredRange a.pevent && bit (b.lcBits c 0x050) (a.pevent.toNat % 128) then
      let l := b.coll c
      b.setColl c { l with sample := l.sample ++ [BitVec.ofNat 7 a.pevent.toNat] }
    else b

/-- The entry an ACK takes through a window (R73, R221). -/
def ackEntry (x : Ctx) (user : Bool) : Option Entry :=
  match x.best with
  | some e => if user && e.cls != 2 then none else some e
  | none => none

/-- What ACK and ACK_PEEK return. -/
def ackResult (x : Ctx) (user : Bool) : Word :=
  match ackEntry x user with
  | some e => if 8 ≤ x.stack.length then noEvent else ackValue e
  | none => noEvent

/-- The ACK of an entry (R60, R73). -/
def Block.takeEntry (b : Block) (c : CtxNo) (x : Ctx) (e : Entry) : Block :=
  let x' := ({ x with shortlist := x.shortlist.drop 1 } : Ctx).withStack
    ({ pevent := e.pevent, vevent := e.vevent, prio := e.prio, banked := e.banked } :: x.stack)
  let b := b.setRec c x'
  let b := if e.banked then b else b.setPend e.pevent { b.pendOf e.pevent with a := true }
  let b := if e.merge != 0 && e.ringValid then
      b.reqRecord (ctxBank c) { ring := e.ring, rcd := { vevent := e.vevent, prio := e.prio, merged := true, type := 8,
                                                         w1 := e.merge.setWidth 32 ||| at' c 16, gt := b.gt } }
    else b
  b.maybeRefill c

/-- ACK on a context: the block and the value read. Every ACK covers the seat's notification and ends a re-notification that
waits (R209, R77). Through an absolute page the slice gets no RESP: its COVERED and its line stay as they are. The spec does not say
what the slice is told of such an ACK (DESIGN CHOICE, log 77). -/
def Block.ackCtx (b : Block) (c : CtxNo) (x : Ctx) (user : Bool) : Block × Word :=
  let v := ackResult x user
  let b := match ackEntry x user with
    | some e => if 8 ≤ x.stack.length then b.setRec c { x with flags := setBit x.flags 0 true } else b.takeEntry c x e
    | none => b
  let b := match x.seat with
    | some i =>
      let b := match (b.seatOf i).req with
        | some (.notify _ _ true, _) => b.unask i
        | _ => b
      (b.setSeat i { b.seatOf i with out := false }).cnt (pgCSG (csgOf (i / 2))) (if v = noEvent then 0x070 else 0x06C)
    | none => b
  (b.dirty c, v)

/-- The first activation that is not dropped (the stack's head is its top), if it has this virtual event. -/
def dropTop (st : List Act) (v : Event) : Option (List Act × Act) :=
  match st.find? (!·.dropped) with
  | some a => if a.vevent = v then some (modifyFirst (!·.dropped) ({ · with dropped := true }) st, a) else none
  | none => none

/-- EOI on a context (Table 2-8). -/
def Block.eoiCtx (b : Block) (c : CtxNo) (x : Ctx) (v : Event) : Block :=
  match x.stack.find? (!·.dropped) with
  | none => b.setRec c { x with flags := setBit x.flags 1 true, dirty := true }
  | some a =>
    if a.vevent ≠ v then b.setRec c { x with flags := setBit x.flags 2 true, dirty := true }
    else if x.joined then
      ((b.setRec c { x.withStack (eraseFirst (!·.dropped) x.stack) with dirty := true }).deactivated a true)
    else b.setRec c { x.withStack (modifyFirst (!·.dropped) ({ · with dropped := true }) x.stack) with dirty := true }

/-- Deactivate on a context (Table 2-8, R76). -/
def Block.deactCtx (b : Block) (c : CtxNo) (x : Ctx) (v : Event) : Block :=
  match x.stack.find? (·.vevent == v) with
  | none => b.setRec c { x with flags := setBit x.flags 3 true, dirty := true }
  | some a =>
    (b.setRec c { x.withStack (eraseFirst (·.vevent == v) x.stack) with dirty := true }).deactivated a true

/-- A write of UTAG (R159). -/
def Block.utagCtx (b : Block) (c : CtxNo) (x : Ctx) (v : BitVec 16) : Block :=
  let n := x.shortlist.countP (·.cls == 2)
  let b := b.setRec c { x with utag := v, shortlist := x.shortlist.filter (·.cls != 2), dirty := true }
  (if n = 0 then b else b.cnt (pgRE (ctxBank c)) 0x084 n).maybeRefill c

/-- A write of TDL_LO: the held high half is applied and the timer armed (R195). -/
def Block.tdlCtx (b : Block) (c : CtxNo) (x : Ctx) (lo : Word) : Block :=
  b.setRec c (b.linkTimer { x with tdl := x.tdlHi ++ (lo &&& ~~~7), tarm := true })

/-- A write of TIMER (R195). -/
def Block.timerCtx (b : Block) (c : CtxNo) (x : Ctx) (v : Word) : Block :=
  b.setRec c (b.linkTimer { x with tprio := fld v 5 0, tclass := bit v 8, tarm := bit v 16 })

/-- An IPI send of thread t (R219, R220, R273). -/
def Block.ipi (b : Block) (t : Nat) (win : Win) (owner : Option OwnerNo) (v : Word) : Block :=
  let pg := pgCSG (csgOf t)
  let bad (b : Block) : Block := (b.cnt pg 0x080).flag pg 4
  let send (b : Block) (c : CtxNo) (cls : BitVec 2) (guard : Option OwnerNo) : Block :=
    (b.ask16 { ctx := c, guard, entry := bankedEntry (0x00800 + (fld v 23 16).setWidth 20) (fld v 29 24) cls }).cnt pg 0x07C
  match win with
  | .host => send b (fld v 15 0) 0 none
  | .user => b
  | .guest => match owner with
    | none => bad b
    | some o =>
      if o = 0 then send b (fld v 15 0) 1 none
      else
        let x := b.vifOf (o.toNat - 1)
        let i := (fld v 15 0).toNat
        if i < x.ctxCount.toNat then send b (x.ctxBase + fld v 15 0) 1 (some o) else bad b

/-- The seat a window acts on (R205, R215). -/
def Block.winSeat (b : Block) (t : Nat) : Win → Nat
  | .host => 2 * t
  | .guest => 2 * t + 1
  | .user => if (b.seatOf (2 * t + 1)).ctx.isSome then 2 * t + 1 else 2 * t

/-- The offset of an operation in its window. -/
def TifAct.off : TifAct → Nat
  | .ack => 0x000 | .eoi _ => 0x004 | .deact _ => 0x008 | .gate _ => 0x010 | .ctl _ => 0x014 | .statusClr _ => 0x01C
  | .utag _ => 0x020 | .ipi _ => 0x024 | .tdlLo _ => 0x028 | .tdlHi _ => 0x02C | .timer _ => 0x030
  | .read off => off

/-- A read other than ACK's of a window register. -/
def Block.tifRead (x : Ctx) (c : CtxNo) (user : Bool) (off : Nat) : Word :=
  if off = 0x034 then ackResult x user
  else if off = 0x00C then x.runp.setWidth 32 ||| 0x100 ||| at' c 16
  else if user then 0
  else if off = 0x010 then x.gate.setWidth 32
  else if off = 0x014 then x.pgran.setWidth 32 ||| flagAt x.joined 3 ||| at' x.ackTimeout 16
  else if off = 0x018 then x.flags.setWidth 32
  else if off = 0x020 then x.utag.setWidth 32
  else if off = 0x028 then fld x.tdl 31 0
  else if off = 0x02C then fld x.tdl 63 32
  else if off = 0x030 then x.tprio.setWidth 32 ||| flagAt x.tclass 8 ||| flagAt x.tarm 16
  else 0

/-- An operation on the context of a window (R217): the user window implements ACK, EOI, DEACT, CUR and ACK_PEEK only. -/
def Block.tifCtx (b : Block) (t : Nat) (win : Win) (c : CtxNo) (x : Ctx) (a : TifAct) : Block × Word :=
  let user := win == .user
  match a with
  | .ack => b.ackCtx c x user
  | .eoi d => (b.eoiCtx c x (fld d 19 0), 0)
  | .deact d => (b.deactCtx c x (fld d 19 0), 0)
  | .read off => (b, Block.tifRead x c user off)
  | .ipi d => (if user then b else b.ipi t win (some x.owner) d, 0)
  | .gate d =>
    (if user then b else b.setRec c { x with gate := if 64 < (fld d 6 0).toNat then 64 else fld d 6 0, dirty := true }, 0)
  | .ctl d =>
    (if user then b else
      b.setRec c { x with pgran := fld d 2 0, joined := bit d 3, ackTimeout := fld d 31 16, dirty := true }, 0)
  | .statusClr d => (if user then b else b.setRec c { x with flags := x.flags &&& ~~~(fld d 5 0) }, 0)
  | .utag d => (if user then b else b.utagCtx c x (fld d 15 0), 0)
  | .tdlLo d => (if user then b else b.tdlCtx c x d, 0)
  | .tdlHi d => (if user then b else b.setRec c { x with tdlHi := d }, 0)
  | .timer d => (if user then b else b.timerCtx c x d, 0)

/-- An operation through a window of thread t: a window whose seat is empty answers under R217, and
an ACK of it counts in CSG_ACK_EMPTY. -/
def Block.tifDo (b : Block) (t : Nat) (win : Win) (a : TifAct) : Block × Word :=
  let empty : Block × Word := match a with
    | .ack => (b.cnt (pgCSG (csgOf t)) 0x070, noEvent)
    | .read off => (b, if off = 0x034 then noEvent else 0)
    | .ipi d => (if win == .host || win == .guest then b.ipi t win none d else b, 0)
    | _ => (b, 0)
  match (b.seatOf (b.winSeat t win)).ctx with
  | none => empty
  | some c => match b.rec? c with
    | some x => b.tifCtx t win c x a
    | none => empty

/-! ### The self alias (R212, R214, R215) -/

/-- The privilege a window needs. -/
def winPriv : Win → Nat
  | .host => 2
  | .guest => 1
  | .user => 0

/-- An operation is a read. -/
def TifAct.isRead : TifAct → Bool
  | .ack => true
  | .read _ => true
  | _ => false

/-- A part of the core's access is answered; an access of two parts is answered when both are (R216). -/
def Thread.answer (h : Thread) (hi : Bool) (r : PortRsp) : Thread :=
  match h.wide with
  | none => { h with coreRsp := some r }
  | some (p, n) =>
    let q : PortRsp := { err := p.err || r.err, data := p.data ||| (if hi then r.data <<< 32 else r.data) }
    if n ≤ 1 then { h with wide := none, coreRsp := some q } else { h with wide := some (q, n - 1) }

/-! #### The lane of a thread (R208, R212, R444) -/

/-- An ACK read at the head of the lane's upstream queue waits while an earlier ACK of its seat has no RESP yet (R212). -/
def Block.opWaits (b : Block) (t : Nat) (o : TifOp) (a : TifAct) : Bool :=
  a == .ack && (b.thread t).acks.contains (decide (b.winSeat t o.win % 2 = 1))

/-- Operations of a lane that the core has been taken off. -/
def Thread.opsIn (h : Thread) : Nat := h.upq.length + h.ops.length + h.up.countP fun m => match m with
  | .op _ => true
  | _ => false

/-- An operation enters the upstream queue; a write is answered OK with that (R212). -/
def Thread.enter (h : Thread) (o : UpOp) : Thread :=
  let h := { h with upq := h.upq ++ [{ o with tag := h.nextTag }], nextTag := h.nextTag + 1 }
  if o.act.isRead then h else h.answer (decide (o.act.off % 8 = 4)) {}

/-- The core's operations that wait enter the queue while it has room. -/
def Thread.takeHeld (h : Thread) : Nat → Thread
  | 0 => h
  | fuel + 1 =>
    match h.held with
    | o :: rest => if 8 ≤ h.opsIn then h else Thread.takeHeld (({ h with held := rest } : Thread).enter o) fuel
    | [] => h

/-- The slice forwards what the head of the queue may send (R212). -/
def Block.forwardOps (b : Block) (t : Nat) : Nat → Block
  | 0 => b
  | fuel + 1 =>
    let h := b.thread t
    match h.upq with
    | o :: rest =>
      if !b.linkUp t || b.opWaits t o.op o.act then b
      else
        let acks := if o.act == .ack then h.acks ++ [decide (b.winSeat t o.op.win % 2 = 1)] else h.acks
        Block.forwardOps (b.setThread t { h with upq := rest, up := h.up ++ [.op o], acks }) t fuel
    | [] => b

/-- The block takes the operations at the head of the upstream channel; a CONFIRM there waits for its command (R208). -/
def Thread.pull (h : Thread) : Nat → Thread
  | 0 => h
  | fuel + 1 =>
    match h.up with
    | .op o :: rest => Thread.pull { h with up := rest, ops := h.ops ++ [o] } fuel
    | _ => h

/-- The responses that no ACK makes reach the core in their order (R208, R212). -/
def Thread.deliver (h : Thread) : Nat → Thread
  | 0 => h
  | fuel + 1 =>
    match h.respCh with
    | r :: rest =>
      if r.ack.isSome then h
      else Thread.deliver (({ h with respCh := rest } : Thread).answer r.hi { err := r.err, data := r.data.setWidth 64 }) fuel
    | [] => h

/-- The first operation of a thread that has reached the block is done: a read answers with RESP (R208). The RESP of an ACK carries
the seat's NNUM; that of an empty seat, whose ACK no context bank has granted, carries no COVERED: the spec does not say what stands
there (DESIGN CHOICE, log 76). -/
def Block.doOp (b : Block) (t : Nat) : Block :=
  match (b.thread t).ops with
  | [] => b
  | o :: rest =>
    let i := b.winSeat t o.op.win
    let b := b.setThread t { b.thread t with ops := rest, asked := none }
    let r := b.tifDo t o.op.win o.act
    let b := r.1
    let h := b.thread t
    if o.act.isRead then
      let ack := if o.act == .ack then
          some (decide (i % 2 = 1), if (b.seatOf i).ctx.isSome then some (b.seatOf i).nnum else none)
        else none
      let m : Resp := { tag := o.tag, data := r.2, hi := decide (o.act.off % 8 = 4), ack }
      b.setThread t (({ h with respCh := h.respCh ++ [m] } : Thread).deliver 16)
    else b

/-- The context bank that the first operation of a thread goes to; none for a window whose seat is empty. -/
def Block.opBank (b : Block) (t : Nat) : Option Nat :=
  match (b.thread t).ops with
  | o :: _ => (b.seatOf (b.winSeat t o.op.win)).ctx.map ctxBank
  | [] => none

/-- A lane goes on as far as it can without a grant: operations enter, are forwarded and taken, and the first waits at its context
bank (R444); one for an empty seat is done at once. -/
def Block.laneStep (b : Block) (t : Nat) : Nat → Block
  | 0 => b
  | fuel + 1 =>
    let b := (if b.pwr.stage == .drain then b else b.setThread t ((b.thread t).takeHeld 16)).forwardOps t 16
    let b := b.setThread t ((b.thread t).pull 16)
    let h := b.thread t
    if h.asked.isSome || h.ops.isEmpty then b
    else match b.opBank t with
      | some q =>
        let b := b.setThread t { h with asked := some q }
        b.setBank q { b.bank q with in16 := (b.bank q).in16 ++ [.thread (BitVec.ofNat 11 t)] }
      | none => Block.laneStep (b.doOp t) t fuel

/-! #### Re-notification (R77) -/

/-- A re-notification check is due for a context (R77): ACK_TIMEOUT µs had passed since its thread was last sent a notification when
the current Carousel slot began, and no ACK came. -/
def Block.checkDue (b : Block) (x : Ctx) : Bool :=
  match x.seat, x.lastSent with
  | some i, some t0 =>
    b.current x && (b.seatOf i).out && (b.seatOf i).req.isNone && x.ackTimeout != 0 &&
      decide (t0.toNat + 1000 * x.ackTimeout.toNat ≤ b.gt.toNat / max b.car.cur.toNat 1 * max b.car.cur.toNat 1)
  | _, _ => false

/-- A re-notification check is granted (R77): the notification is repeated with its number, or withdrawn where the best entry no
longer qualifies. -/
def Block.renotify (b : Block) (c : CtxNo) : Block :=
  match b.rec? c with
  | none => b
  | some x =>
    if !b.checkDue x then b
    else match x.seat, x.best with
      | some i, some e => b.ask i (.notify (b.lineOf i e.cls) e.prio true, (b.seatOf i).nnum)
      | _, _ => b.dirty c

/-! #### Grants that have no command of their own (R444) -/

/-- The thread operation at the head of requester 16's intake is granted: done, or asked for anew where the seat has changed since. -/
def Block.grantThread (b : Block) (q t : Nat) : Block :=
  let b := (b.bankPop q 16).granted (.ctxBank q) 16
  if b.opBank t = some q then (b.doOp t).laneStep t 32
  else (b.setThread t { b.thread t with asked := none }).laneStep t 32

/-- The context bank ports grant thread operations and re-notification checks as long as their arbiters pick them; a thread's next
operation may wait at another bank (log 70). -/
def Block.grantOps : Nat → List Nat → Block → Block
  | 0, _, b => b
  | _ + 1, [], b => b
  | fuel + 1, q :: qs, b =>
    match b.bankPick q with
    | some 16 => match (b.bank q).in16 with
      | .thread t :: _ =>
        let b := b.grantThread q t.toNat
        Block.grantOps fuel ((b.thread t.toNat).asked.toList ++ q :: qs) b
      | _ => Block.grantOps fuel qs b
    | some 17 => match (b.bank q).car17 with
      | .check c :: _ => Block.grantOps fuel (q :: qs) (((b.bankPop q 17).granted (.ctxBank q) 17).renotify c)
      | _ => Block.grantOps fuel qs b
    | _ => Block.grantOps fuel qs b

/-- A lane goes on, and its operation is granted where its bank's port is idle (R40). -/
def Block.runLane (b : Block) (t : Nat) : Block :=
  let b := b.laneStep t 32
  b.grantOps 64 (b.thread t).asked.toList

/-- RENOTIFY_CHECK on the block: a check that is due joins requester 17's intake (R77, R444). -/
def effRenotify (b : Block) (c : CtxNo) : Block :=
  let q := ctxBank c
  match b.rec? c with
  | none => b
  | some x =>
    if !b.dpOn || !b.checkDue x then b
    else
      let k := b.bank q
      let b := if k.car17.contains (.check c) then b else b.setBank q { k with car17 := k.car17 ++ [.check c] }
      b.grantOps 64 [q]

/-- RENOTIFY_CHECK. -/
def execRenotifyCheck (c : CtxNo) (s : State) : Host.Outcome State Fault Refusal :=
  .next { s with blk := effRenotify s.blk c }

/-! #### CONFIRM and the link -/

/-- What a CONFIRM says of its seat's line (LINES). -/
def Seat.confirmed (s : Seat) (m : Option SliceMsg) (dropped : Bool) : Seat :=
  match m with
  | some (.notify _ line nnum _) => { s with conf := if dropped then none else some (line, nnum) }
  | some (.withdraw _ nnum) => { s with conf := s.conf.filter fun l => l.2 != nnum }
  | none => s

/-- A CONFIRM at the head of the upstream channel reaches the block (R207): the tracker is free, both seats are re-evaluated, a
handoff that waits for it goes on (R226), and what stands behind it in the channel is taken. -/
def effConfirm (b : Block) (t : Nat) : Block :=
  let h := b.thread t
  match h.up with
  | .confirm gs _ dropped :: rest =>
    let i := seatIx t gs
    let b := b.setSeat i ((b.seatOf i).confirmed h.sent dropped)
    let b := b.setThread t { h with up := rest, trk := false, tag := {}, sent := none }
    let done (x : CsgCmd) : CsgCmd := if x.old == some i && (b.seatOf i).req.isNone then { x with old := none } else x
    let b := { b with csg := b.csg.mapVals fun _ x => done x }
    ((((b.refreshReq (2 * t)).refreshReq (2 * t + 1)).dirtySeat (2 * t)).dirtySeat (2 * t + 1)).runLane t
  | _ => b

/-- CONFIRM. -/
def execConfirm (t : ThreadNo) (s : State) : Host.Outcome State Fault Refusal :=
  .next { s with blk := effConfirm s.blk t.toNat }

/-- A seat whose slice link restarts (R206): lines de-asserted, COVERED 0, nothing outstanding; NNUM starts with COVERED
(log 18). -/
def Seat.linkReset (s : Seat) : Seat := { ctx := s.ctx }

/-- A read of the core has no answer yet. -/
def Thread.readOut (h : Thread) : Bool :=
  !h.respCh.isEmpty || (h.upq ++ h.held ++ h.ops ++ h.up.filterMap fun m => match m with
    | .op o => some o
    | _ => none).any fun o => o.act.isRead

/-- A lane whose slice link restarts: channels empty, tracker free. -/
def Thread.linkReset (h : Thread) : Thread := { coreRsp := h.coreRsp }

/-- The link side of a slice's threads restarts. -/
def Block.sliceReset (b : Block) (sl : Nat) : Block :=
  (List.range 4).foldl (fun b j =>
    let t := 4 * sl + j
    let b := ((b.unask (2 * t)).unask (2 * t + 1))
    let b := (b.setSeat (2 * t) (b.seatOf (2 * t)).linkReset).setSeat (2 * t + 1) (b.seatOf (2 * t + 1)).linkReset
    let b := b.setThread t (b.thread t).linkReset
    let done (x : CsgCmd) : CsgCmd :=
      if x.old == some (2 * t) || x.old == some (2 * t + 1) then { x with old := none } else x
    { b with csg := b.csg.mapVals fun _ x => done x }) b

/-- A slice link comes up (R206). -/
def effSliceUp (b : Block) (sl : Nat) : Block :=
  if decide (b.prm.slices ≤ sl) || b.up.contains sl || !b.dpOn then b else
    let b := { b.sliceReset sl with up := (sl :: b.up).mergeSort (· ≤ ·) }
    let b := (List.range 8).foldl (fun b j => b.dirtySeat (8 * sl + j)) b
    b.flag (pgCSG (sl / 16)) 6

/-- SLICE_LINK_UP. -/
def execSliceLinkUp (sl : BitVec 9) (s : State) : Host.Outcome State Fault Refusal :=
  .next { s with blk := effSliceUp s.blk sl.toNat }

/-- A slice link goes down (R206, R207). -/
def effSliceDown (b : Block) (sl : Nat) : Block :=
  if !b.up.contains sl then b else
    ({ b.sliceReset sl with up := b.up.erase sl }).flag (pgCSG (sl / 16)) 5

/-- SLICE_LINK_DOWN. -/
def execSliceLinkDown (sl : BitVec 9) (s : State) : Host.Outcome State Fault Refusal :=
  .next { s with blk := effSliceDown s.blk sl.toNat }

/-! #### The core's side -/

/-- A thread's operation through its self alias (R212, R214, R215). A write is answered OK when it enters the queue; a full queue
holds the core's access, and so does a warm reset's drain (R398). -/
def Block.selfOp (b : Block) (o : TifOp) (priv : BitVec 2) (a : TifAct) : Block :=
  let t := o.thread.toNat
  let h := b.thread t
  let err (b : Block) : Block := b.setThread t ((b.thread t).answer (decide (a.off % 8 = 4)) { err := true })
  if b.pwr.stage == .restart then err b
  else if b.threads ≤ t then err b
  else if priv.toNat < winPriv o.win then
    let pg := pgCSG (csgOf t)
    err ((b.cnt pg 0x078).flag pg 3)
  else
    let b := b.setThread t { h with held := h.held ++ [{ op := o, act := a }] }
    if b.dpOn && b.pwr.stage != .drain then b.runLane t else b

/-- The response of an ACK reaches the slice (R209): COVERED moves, a covered line is de-asserted, the core has its data,
and what waited behind it goes on (R212). -/
def effAckResponse (b : Block) (t : Nat) : Block :=
  let h := b.thread t
  match h.respCh with
  | r :: rest => match r.ack with
    | none => b
    | some (gs, covered) =>
      let h := ({ h with respCh := rest, acks := h.acks.erase gs } : Thread).answer r.hi { err := r.err, data := r.data.setWidth 64 }
      let b := b.setThread t (h.deliver 16)
      let i := seatIx t gs
      let s := b.seatOf i
      let b := match covered with
        | some v =>
          let c := moveCovered s.covered v
          let line := match s.line with
            | some (l, n) => if covers c n then none else some (l, n)
            | none => none
          b.setSeat i { s with covered := c, line }
        | none => b
      b.runLane t
  | [] => b

/-- ACK_RESPONSE. -/
def execAckResponse (t : ThreadNo) (s : State) : Host.Outcome State Fault Refusal :=
  .next { s with blk := effAckResponse s.blk t.toNat }

end Sys2Proof.Machine
end

