-- ==== Sys2Proof/Machine/Residency.lean ====
section
/-! DEFINITION. Residency (chapters 5, 7): the commands of the CSG pages, loads, evictions, write-backs, the trapeze handoff,
and what memory's acceptance of a spill write or write-back releases. -/

namespace Sys2Proof.Machine

/-! ### The write-back image (Table 7-7) -/

/-- One activation's 6 bytes. -/
def actBits (a : Act) : BitVec 48 :=
  a.pevent.setWidth 48 ||| at' a.vevent 20 ||| at' a.prio 40 ||| flagAt a.banked 46 ||| flagAt a.dropped 47

/-- An activation as its 6 bytes spell it. -/
def actOf (x : BitVec 48) : Act :=
  { pevent := fld x 19 0, vevent := fld x 39 20, prio := fld x 45 40, banked := bit x 46, dropped := bit x 47 }

/-- The 64 bytes of WB for a record: entry 0 of the stack at its bottom, INIT = 1. -/
def wbBytes (x : Ctx) : List Byte :=
  let acts := x.stack.reverse
  let stack := (List.range 8).flatMap fun i => leBytes 6 ((acts[i]?.map fun a => (actBits a).toNat).getD 0)
  let timer : BitVec 64 := (x.tdl &&& ~~~7) ||| flagAt x.tarm 0 ||| flagAt x.tclass 1
  let ctl : BitVec 64 := x.gate.setWidth 64 ||| at' x.pgran 7 ||| flagAt x.joined 10 ||| at' (BitVec.ofNat 4 acts.length) 11 |||
    at' x.ackTimeout 16 ||| at' x.utag 32 ||| at' x.tprio 48 ||| at' x.flags 54 ||| flagAt true 63
  stack ++ leBytes 8 timer.toNat ++ leBytes 8 ctl.toNat

/-- The record WB gives (R223, R227): creation values where INIT is 0; RUNP from the stack. -/
def wbLoad (x : Ctx) (bytes : List Byte) (hi : Word) : Ctx :=
  let ctl : BitVec 64 := leBits 64 ((bytes.drop 0x38).take 8)
  if !bit ctl 63 then x else
    let timer : BitVec 64 := leBits 64 ((bytes.drop 0x30).take 8)
    let depth := min (fld ctl 14 11).toNat 8
    let acts := (List.range depth).map fun i => actOf (leBits 48 ((bytes.drop (6 * i)).take 6))
    let g : BitVec 7 := fld ctl 6 0
    { x.withStack acts.reverse with
      gate := if 64 < g.toNat then 64 else g, pgran := fld ctl 9 7, joined := bit ctl 10, ackTimeout := fld ctl 31 16,
      utag := fld ctl 47 32, tprio := fld ctl 53 48, flags := fld ctl 59 54, tdl := timer &&& ~~~7, tdlHi := hi,
      tarm := bit timer 0, tclass := bit timer 1 }

/-! ### A record leaves the bank (R167, R224) -/

/-- The context of a seat is gone: the seat is emptied and its notification withdrawn. -/
def Block.emptySeat (b : Block) (i : Nat) : Block :=
  let b := b.withdrawSeat i
  b.setSeat i { b.seatOf i with ctx := none }

/-- A context becomes not resident. -/
def Block.eraseRec (b : Block) (c : CtxNo) : Block := { b with ctx := b.ctx.erase c.toNat }

/-- A record starts to leave: its shortlist is pushed front, least urgent first, class U discarded (R167, R224). From now on the
context is not resident; a context of a BUILD has no spill area (R141). The timer leaves the wheel with the record (log 78). -/
def Block.leaves (b : Block) (c : CtxNo) (why : LeaveFor) : Block :=
  match b.rec? c with
  | none => b
  | some x =>
    let u := x.shortlist.countP (·.cls == 2)
    let b := if u = 0 then b else b.cnt (pgRE (ctxBank c)) 0x084 u
    let b := { b.eraseRec c with leave := b.leave.insert c.toNat { x := { x with shortlist := [] }, why } }
    ((x.shortlist.filter (·.cls != 2)).reverse).foldl (fun b e =>
      if x.basic then b.spillDrop c
      else b.addSpill { ctx := c, entry := e, front := true, known := some (x.spillSeg, x.spillPage, x.owner), tag := b.tagOf x.owner }) b

/-- A push of a record that leaves is not accepted yet. -/
def Block.leavePushes (b : Block) (c : CtxNo) : Bool := (b.bank (ctxBank c)).spills.any fun s => s.ctx == c && s.ins.isNone

/-- WB of a record that leaves is written; a context of a BUILD has none where its table is off (R141). One whose VIF has been reset
meanwhile is purged in place of that (R260, R261, Table 9-5; log 81). -/
def Block.writeBack (b : Block) (c : CtxNo) (x : Ctx) : Block :=
  let (seg, off) := b.tableAddr c
  let v := x.owner.toNat - 1
  if x.owner != 0 && (b.vifOf v).due.contains c then
    x.stack.foldl (fun b a => b.deactivated a false) ((b.setVif v { b.vifOf v with due := (b.vifOf v).due.erase c }).unfilter c)
  else if x.basic && !b.tableOn c then b
  else (b.sendWb { kind := .wb c, ctx := c, seg, off, writes := [(inPage off, wbBytes x)], tag := b.tagOf x.owner } opCtxW).1

/-- The seat of a record, if it has one, is emptied. -/
def Block.leaveSeat (b : Block) (c : CtxNo) : Block :=
  match b.rec? c with
  | some x => match x.seat with
    | some i => (b.emptySeat i).setRec c { x with seat := none }
    | none => b
  | none => b

/-- A purge removes a resident context of a VIF (R261). -/
def Block.purgeCtx (b : Block) (c : CtxNo) : Block :=
  match b.rec? c with
  | none => b
  | some x =>
    let b := b.leaveSeat c
    let b := x.stack.foldl (fun b a => b.deactivated a false) b
    (b.eraseRec c).unfilter c

/-- A context whose command has ended is purged if its VIF's purge waits for it (R260). -/
def Block.purgeIfDue (b : Block) (c : CtxNo) : Block :=
  match b.rec? c with
  | some x =>
    let v := x.owner.toNat - 1
    if x.owner != 0 && (b.vifOf v).due.contains c then
      (b.purgeCtx c).setVif v { (b.purgeCtx c).vifOf v with due := ((b.purgeCtx c).vifOf v).due.erase c }
    else b
  | none => b

/-! ### Slots and victims (R166) -/

/-- Slots of a partition in use: of its records, of those that leave, of loads that have taken theirs. -/
def Block.slotsUsed (b : Block) (n : Nat) : List Nat :=
  ((b.ctx.cells.filter fun p => p.1 % 16 == n).map fun p => p.2.slot.toNat) ++
    ((b.leave.cells.filter fun p => p.1 % 16 == n).map fun p => p.2.x.slot.toNat) ++
    ((b.loads.cells.filter fun p => p.1 % 16 == n && p.2.ph == .descs).map fun p => p.2.slot.toNat)

/-- The lowest-numbered free slot. -/
def Block.freeSlot (b : Block) (n : Nat) : Option Nat :=
  let used := b.slotsUsed n
  (List.range 2560).find? fun i => !used.contains i

/-- One record is a better victim than another: never notified first, then the older, then the lower slot. -/
def olderNote (x y : Ctx) : Bool :=
  match x.lastNote, y.lastNote with
  | none, none => decide (x.slot.toNat < y.slot.toNat)
  | none, some _ => true
  | some _, none => false
  | some s, some t => decide (s.toNat < t.toNat) || (s == t && decide (x.slot.toNat < y.slot.toNat))

/-- The eviction victim of a partition. -/
def Block.victim (b : Block) (n : Nat) : Option CtxNo :=
  let ok := b.ctx.cells.filter fun p =>
    p.1 % 16 == n && !p.2.isPinned && !p.2.basic && !b.ctxBusy (BitVec.ofNat 16 p.1)
  (ok.foldl (fun best p => match best with
    | none => some p
    | some q => if olderNote p.2 q.2 then some p else some q) none).map fun p => BitVec.ofNat 16 p.1

/-- The end of an eviction (R167): the wake of reason EVICTED and the counters. R162 counts a wake in RE_WAKE_SENT where it proceeds;
that an EVICTED wake counts there too when WAKE_RING_VALID is 0 and nothing is written is the model's choice (DESIGN CHOICE, log 72). -/
def Block.evicted (b : Block) (c : CtxNo) (x : Ctx) : Block :=
  let n := ctxBank c
  let b := if x.wakeRingV then
      b.reqRecord n { ring := x.wakeRing, rcd := { vevent := 0x00905, prio := fld (b.reg (pgRE n) 0x04C) 5 0, type := 0xA,
                                                   gt := b.gt, w1 := c.setWidth 32 ||| at' (3 : BitVec 4) 16 } }
    else b
  (((b.cnt (pgRE n) 0x088).cnt (pgRE n) 0x090).flag (pgRE n) 4).unfilter c

/-! ### Commands (R222, Table 7-5) -/

def resOk : BitVec 4 := 0
def resBusy : BitVec 4 := 1
def resNotResident : BitVec 4 := 2
def resPinFull : BitVec 4 := 3
def resSeatBusy : BitVec 4 := 4
def resCurrent : BitVec 4 := 5
def resNotCurrent : BitVec 4 := 6
def resTableOff : BitVec 4 := 7
def resFault : BitVec 4 := 8
def resBadArg : BitVec 4 := 9
def resOwner : BitVec 4 := 10
def resBadop : BitVec 4 := 11

/-- A command ends (R222). A refusal with CTX_PIN_FULL is told in the page of the context's partition (R171). -/
def Block.csgEnd (b : Block) (g : Nat) (c : CtxNo) (r : BitVec 4) : Block :=
  let b := b.setCmd g { busy := false, result := r, ctx := c }
  let b := if r = resPinFull then (b.reErr c 4).flag (pgRE (ctxBank c)) 3 else b
  b.raise (pgCSG g) (if r = resOk then 1 else 3)

/-- The first check that fails gives the result. -/
def firstFail : List (Bool × BitVec 4) → Option (BitVec 4)
  | [] => none
  | (bad, r) :: rest => if bad then some r else firstFail rest

/-- A seat is occupied, or promised to a handoff or a load that has passed its checks. -/
def Block.seatTaken (b : Block) (i : Nat) : Bool :=
  (b.seatOf i).ctx.isSome || (b.csg.cells.any fun p => p.2.busy && p.2.target == some i) ||
    (b.loads.cells.any fun p => (p.2.ph == .descs || p.2.ph == .slot) && p.2.seat == some i)

/-- The seat argument: 1 HS, 2 GS. -/
def seatArg (v : Word) : Option Nat :=
  match (fld v 5 4).toNat with
  | 1 => some (2 * (fld v 18 8).toNat)
  | 2 => some (2 * (fld v 18 8).toNat + 1)
  | _ => none

/-- A context enters a seat (Table 7-5 SEAT). -/
def Block.enterSeat (b : Block) (c : CtxNo) (i : Nat) : Block :=
  ((b.setSeat i { b.seatOf i with ctx := some c }).modRec c fun x => { x with seat := some i, dirty := true }).unfilter c

/-- The partition can take no further pin for the context. -/
def Block.pinFull (b : Block) (c : CtxNo) : Bool :=
  (match b.rec? c with
    | some x => !x.pinned
    | none => true) && decide (2304 ≤ b.pinnedIn (ctxBank c))

/-- A host seat asked for a context that the PMF does not own. -/
def ownerBad (seat : Option Nat) (o : OwnerNo) : Bool :=
  match seat with
  | some i => i % 2 == 0 && o != 0
  | none => false

/-- The owner of a resident context. -/
def Block.ownerOf (b : Block) (c : CtxNo) : OwnerNo :=
  match b.rec? c with
  | some x => x.owner
  | none => 0

/-- The seat of a resident context. -/
def Block.seatIn (b : Block) (c : CtxNo) : Option Nat :=
  match b.rec? c with
  | some x => x.seat
  | none => none

/-- SEAT. -/
def Block.csgSeat (b : Block) (g : Nat) (c : CtxNo) (v : Word) : Block :=
  let seat := seatArg v
  let i := seat.getD 0
  match firstFail
    [ (seat.isNone || decide (b.threads ≤ (fld v 18 8).toNat), resBadArg),
      ((b.rec? c).isNone, resNotResident),
      (b.ctxBusy c, resBusy),
      ((b.seatIn c).isSome, resCurrent),
      (ownerBad seat (b.ownerOf c), resOwner),
      (b.seatTaken i, resSeatBusy),
      (b.pinFull c, resPinFull) ] with
  | some r => b.csgEnd g c r
  | none => (b.enterSeat c i).csgEnd g c resOk

/-- UNSEAT. -/
def Block.csgUnseat (b : Block) (g : Nat) (c : CtxNo) : Block :=
  match firstFail
    [ ((b.rec? c).isNone, resNotResident),
      ((b.seatIn c).isNone, resNotCurrent),
      (b.ctxBusy c, resBusy) ] with
  | some r => b.csgEnd g c r
  | none => ((b.leaveSeat c).dirty c).csgEnd g c resOk

/-- UNLOAD (R224): the command ends when WB has been written; reads of what its writes change wait for them (R66). -/
def Block.csgUnload (b : Block) (g : Nat) (c : CtxNo) : Block :=
  match firstFail [((b.rec? c).isNone, resNotResident), (b.ctxBusy c, resBusy)] with
  | some r => b.csgEnd g c r
  | none => ((b.setCmd g { busy := true, ctx := c }).leaveSeat c).leaves c (.unload g)

/-- MOVE (R226). -/
def Block.csgMove (b : Block) (g : Nat) (c : CtxNo) (v : Word) : Block :=
  let seat := seatArg v
  let j := seat.getD 0
  match firstFail
    [ (seat.isNone || decide (b.threads ≤ (fld v 18 8).toNat), resBadArg),
      ((b.rec? c).isNone, resNotResident),
      ((b.seatIn c).isNone, resNotCurrent),
      (b.ctxBusy c, resBusy),
      (b.seatIn c == seat, resBadArg),
      (ownerBad seat (b.ownerOf c), resOwner),
      (b.seatTaken j, resSeatBusy) ] with
  | some r => b.csgEnd g c r
  | none =>
    match b.seatIn c with
    | none => b.csgEnd g c resNotCurrent
    | some i =>
      let out := (b.seatOf i).out
      let b := (b.leaveSeat c).modRec c fun x => { x with moving := true, loc := .none }
      b.setCmd g { busy := true, target := some j, old := if out then some i else none, ctx := c }

/-- The end of a LOAD: of a command, its result; a reload that failed empties the context's seat (R362). -/
def Block.endLoad (b : Block) (c : CtxNo) (l : LoadOp) (r : BitVec 4) : Block :=
  match l.reload with
  | none => b.csgEnd l.page c r
  | some _ =>
    if r = resOk then b
    else
      (match l.seat with
        | some i => b.setSeat i { b.seatOf i with ctx := none }
        | none => b).flag pgPWR 6

/-- A LOAD ends without its context: the inserts held for it go on as for one that is not resident. -/
def Block.loadFail (b : Block) (c : CtxNo) (r : BitVec 4) : Block :=
  match b.loads.find? c.toNat with
  | some l => ({ b with loads := b.loads.erase c.toNat }).endLoad c l r
  | none => b

/-- The table-entry read of a LOAD starts once no write-back of the context is outstanding (R66, R223). -/
def Block.startLoad (b : Block) (c : CtxNo) : Block :=
  match b.loads.find? c.toNat with
  | some l =>
    if l.ph != .start || b.ctxWrites c true then b else
      if !b.tableOn c then b.loadFail c resTableOff else
      let (seg, off) := b.tableAddr c
      match startRead b 2 { seg, off, op := opCtxR, obj := c, cont := .loadEntry c } with
      | (b, .inl ph) => { b with loads := b.loads.insert c.toNat { l with ph := .entry ph } }
      | (b, .inr _) => b.loadFail c resFault
  | none => b

/-- The checks of a LOAD that are made before and after its read. -/
def Block.loadChecks (b : Block) (c : CtxNo) (seat : Option Nat) : Option (BitVec 4) :=
  firstFail
    [ (!b.tableOn c, resTableOff),
      (match seat with
        | some i => b.seatTaken i
        | none => false, resSeatBusy),
      (seat.isSome && b.pinFull c, resPinFull),
      ((b.freeSlot (ctxBank c)).isNone && (b.victim (ctxBank c)).isNone, resPinFull) ]

/-- LOAD. -/
def Block.csgLoad (b : Block) (g : Nat) (c : CtxNo) (v : Word) : Block :=
  let arg := (fld v 5 4).toNat
  if arg = 3 || (arg != 0 && b.threads ≤ (fld v 18 8).toNat) then b.csgEnd g c resBadArg
  else if b.ctxBusy c then b.csgEnd g c resBusy
  else if (b.rec? c).isSome then (if arg = 0 then b.csgEnd g c resOk else b.csgSeat g c v)
  else match b.loadChecks c (seatArg v) with
    | some r => b.csgEnd g c r
    | none =>
      let b := b.setCmd g { busy := true, ctx := c }
      ({ b with loads := b.loads.insert c.toNat { page := g, seat := seatArg v, ph := .start } }).startLoad c

/-- A write of CSG_CMD (R222). -/
def Block.csgCmd (b : Block) (g : Nat) (v : Word) : Block :=
  if (b.cmd g).busy then b.flag (pgCSG g) 2
  else
    let c : CtxNo := fld (b.reg (pgCSG g) 0x040) 15 0
    match (fld v 3 0).toNat with
    | 1 => b.csgLoad g c v
    | 2 => b.csgUnload g c
    | 3 => b.csgSeat g c v
    | 4 => b.csgUnseat g c
    | 5 => b.csgMove g c v
    | _ => b.csgEnd g c resBadop

/-! ### The end of a LOAD (R223) -/

/-- What the 64 descriptor reads say: the spill map, whether a bucket was corrupt or unreadable, the corrupt ones. -/
def descsOf (bad : List Nat) (descs : List MemResp) : BitVec 64 × Bool × List Nat :=
  (List.range 64).foldl (fun r p =>
    if bad.contains p then (r.1, true, r.2.2)
    else match descs.getD p (.ok []) with
      | .ok bytes => match descOf (leBits 128 (bytes.take 16)) with
        | some (_, n) => (if n = 0 then r.1 else setBit r.1 p true, r.2)
        | none => (r.1, true, r.2.2 ++ [p])
      | _ => (r.1, true, r.2.2)) (0, false, [])

/-- A LOAD's descriptors as they were read. -/
def LoadOp.answers (l : LoadOp) : List MemResp :=
  (List.range 64).map fun j => ((l.got.find? (·.1 == j)).map Prod.snd).getD .err

/-- Steps 4 to 6 of a LOAD, up to the inserts that the residency queue holds. -/
def Block.loadFinish (b : Block) (c : CtxNo) (l : LoadOp) : Block :=
  let t := tabEntOf (l.entry.drop 0x40)
  let (map, bad, corrupt) := descsOf l.bad l.answers
  let x0 : Ctx :=
    { slot := l.slot, owner := t.owner, wakeCtx := t.wakeCtx, wakeRing := t.wakeRing, wakeRingV := t.wakeRingV,
      spillSeg := t.seg, spillPage := t.page, spillMap := map, dirty := true, pinned := l.reload.getD false }
  let x := wbLoad x0 l.entry (Config.lostTdlHi c b.gt)
  let x := b.linkTimer (if bad then { x with flags := setBit x.flags 5 true } else x)
  let b := { b with loads := b.loads.insert c.toNat { l with ph := .inserts } }
  let b := (b.setRec c x).unfilter c
  let b := b.writeDescs c x (corrupt.map fun p => (BitVec.ofNat 6 p, descBytes 0 0))
  match l.seat with
  | some i => b.enterSeat c i
  | none => b

/-- Ask for descriptors of a LOAD whose slot is free, each a read of its own, at most 16 in flight, once no spill write of the context
is outstanding (R66, R223); one whose read faults is unreadable (Table 10-5). -/
def Block.readDescs (b : Block) (c : CtxNo) : Nat → Block
  | 0 => b
  | fuel + 1 =>
    match b.loads.find? c.toNat with
    | some l =>
      if l.ph != .descs || 64 ≤ l.next || 16 ≤ l.descs.length || b.ctxWrites c false || (b.spillOf c).isSome then b else
        let t := tabEntOf (l.entry.drop 0x40)
        let j := l.next
        let off := bucketOff t.page (BitVec.ofNat 6 j)
        match startRead b 1 { seg := t.seg, off, op := opSpillR, owner := t.owner, obj := c, cont := .loadDesc c j } with
        | (b, .inl ph) =>
          Block.readDescs { b with loads := b.loads.insert c.toNat { l with next := j + 1, descs := l.descs ++ [(j, ph)] } } c fuel
        | (b, .inr _) => Block.readDescs { b with loads := b.loads.insert c.toNat { l with next := j + 1, bad := l.bad ++ [j] } } c fuel
    | none => b

/-- A LOAD goes on as far as it can without an answer of memory: its entry read, its descriptor reads, its end. -/
def Block.kickLoad (b : Block) (c : CtxNo) : Block :=
  let b := (b.startLoad c).readDescs c 128
  let b := match b.loads.find? c.toNat with
    | some l => if l.ph == LoadPh.descs && l.next == 64 && l.descs.isEmpty then b.loadFinish c l else b
    | none => b
  match b.loads.find? c.toNat with
  | some l =>
    if l.ph == LoadPh.inserts && !((b.bank (ctxBank c)).resq.any (·.ctx == c)) then
      ((({ b with loads := b.loads.erase c.toNat }).maybeRefill c).endLoad c l resOk).purgeIfDue c
    else b
  | none => b

/-- The slot that an eviction frees is a LOAD's (R167, R223 step 2). -/
def Block.slotFree (b : Block) (c : CtxNo) : Block :=
  match b.loads.find? c.toNat with
  | some l => if l.ph == .slot then ({ b with loads := b.loads.insert c.toNat { l with ph := .descs } }).kickLoad c else b
  | none => b

/-- The pushes of a record that leaves are accepted: WB is written, the slot is free (R167, R224). -/
def Block.kickLeave (b : Block) (c : CtxNo) : Block :=
  match b.leave.find? c.toNat with
  | some l =>
    if b.leavePushes c then b else
      let b := ({ b with leave := b.leave.erase c.toNat }).writeBack c l.x
      match l.why with
      | .unload g => b.csgEnd g c resOk
      | .evict by_ => (b.evicted c l.x).slotFree by_
      | .sleep => b
  | none => b

/-- What waits for a context's spill area or table entry goes on: pushes, the refill, a record that leaves, a LOAD. -/
def Block.kickCtx (b : Block) (c : CtxNo) : Block :=
  ((((b.kickSpills (ctxBank c)).maybeRefill c).kickLeave c).kickSpills (ctxBank c)).kickLoad c

/-- Loads and records that leave go on. -/
def Block.kickMoves (b : Block) : Block :=
  ((b.leave.cells.map Prod.fst) ++ b.loads.cells.map Prod.fst).foldl (fun b c => b.kickCtx (BitVec.ofNat 16 c)) b

/-- The table entry of a LOAD has been read: the checks that follow it, then a slot, which an eviction may have to free (R223). -/
def Block.loadEntry (b : Block) (c : CtxNo) (l : LoadOp) (r : MemResp) : Block :=
  match r with
  | .ok bytes =>
    let t := tabEntOf (bytes.drop 0x40)
    match firstFail [(!t.valid, resTableOff), (l.reload.isNone && ownerBad l.seat t.owner, resOwner)] with
    | some e => b.loadFail c e
    | none => match (if l.reload.isSome then none else b.loadChecks c l.seat) with
      | some e => b.loadFail c e
      | none =>
        let n := ctxBank c
        let old := t.owner != 0 && (b.vifOf (t.owner.toNat - 1)).due.contains c
        let b := if old then b.cnt pgVMGR 0x0B8 2 else b
        -- of a VIF that was reset meanwhile no descriptor is read (Table 9-5)
        let l : LoadOp := { l with entry := bytes, tag := b.tagOf t.owner, next := if old then 64 else 0 }
        match b.freeSlot n, b.victim n with
        | some i, _ => ({ b with loads := b.loads.insert c.toNat { l with ph := .descs, slot := BitVec.ofNat 12 i } }).kickLoad c
        | none, some v =>
          let slot := match b.rec? v with
            | some x => x.slot
            | none => 0
          (({ b with loads := b.loads.insert c.toNat { l with ph := .slot, slot } }).leaves v (.evict c)).kickCtx v
        | none, none => b.loadFail c resPinFull
  | _ => b.loadFail c resFault

/-- The descriptor reads of a LOAD that is gone are answered too. -/
def Block.lateDescs (b : Block) (c : CtxNo) : Block :=
  (List.range 64).foldl (fun b j => (b.orphanDone (.loadDesc c j)).getD b) b

/-- Memory answers the descriptor reads of a LOAD that are in flight, and those that start then (R223). -/
def Block.loadAnswers (b : Block) (c : CtxNo) (descs : List MemResp) : Nat → Block
  | 0 => b
  | fuel + 1 =>
    match b.loads.find? c.toNat with
    | some l => match l.descs.find? (·.2.isIssued) with
      | some (j, _) =>
        let old := l.tag.owner != 0 && l.tag.gen != (b.tagOf l.tag.owner).gen
        let b := if old then b.cnt pgVMGR 0x0B8 else b
        let l := { l with descs := l.descs.filter (·.1 != j), got := l.got ++ [(j, if old then .err else descs.getD j (.ok []))] }
        Block.loadAnswers ((({ b with loads := b.loads.insert c.toNat l }).freeLines 1).kickLoad c) c descs fuel
      | none => b
    | none => b

/-- The reloads after Intermission (R362): each bank loads the contexts of its entries one after the other, in entry order; the seat
of each is the one the seat table names. -/
def Block.startReload (b : Block) (q : Nat) : Nat → Block
  | 0 => b
  | fuel + 1 =>
    if b.loads.cells.any fun p => p.2.reload.isSome && p.1 % 16 == q then b else
      match b.pwr.saved.find? fun x => ctxBank x.ctx == q with
      | none => b
      | some x =>
        if (b.leave.find? x.ctx.toNat).isSome then b else
        let b := { b with pwr := { b.pwr with saved := b.pwr.saved.erase x } }
        if b.ctxBusy x.ctx || (b.rec? x.ctx).isSome then Block.startReload b q fuel else
          let seat := (b.seat.cells.find? fun p => p.2.ctx == some x.ctx).map Prod.fst
          let l : LoadOp := { page := 0, seat, ph := .start, reload := some x.pin }
          Block.startReload (({ b with loads := b.loads.insert x.ctx.toNat l }).kickLoad x.ctx) q fuel

/-- Every bank goes on with its reloads. -/
def Block.startReloads (b : Block) : Block :=
  if b.pwr.saved.isEmpty then b else (List.range 16).foldl (fun b q => b.startReload q 2560) b

/-- CTX_LOAD_COMPLETE on the block. -/
def effCtxLoadComplete (b : Block) (c : CtxNo) (entry : MemResp) (descs : List MemResp) : Block :=
  let b := match b.orphanDone (.loadEntry c) with
    | some b => b
    | none => match b.loads.find? c.toNat with
      | some l => match l.ph with
        | .entry ph => if ph.isIssued then (b.freeLines 2).loadEntry c l entry else b
        | _ => b.kickCtx c
      | none => b
  ((b.lateDescs c).loadAnswers c descs 128).startReloads

/-- CTX_LOAD_COMPLETE. -/
def execCtxLoadComplete (c : CtxNo) (entry : MemResp) (descs : List MemResp) (s : State) :
    Host.Outcome State Fault Refusal :=
  .next { s with blk := effCtxLoadComplete s.blk c entry descs }

/-! ### Grants and answers that let a context go on -/

/-- CTXT_ENTRY_READ on the block: bytes 0x40 to 0x4F of the entry. -/
def effCtxtEntryRead (b : Block) (c : CtxNo) (r : MemResp) : Block :=
  match b.orphanDone (.spillEntry c) with
  | some b => b
  | none => match b.spillOf c with
  | some s => match s.ph with
    | .entryRead ph =>
      if !ph.isIssued then b else
        let b := b.freeLines 1
        match r with
        | .ok bytes => (b.entryRead s (tabEntOf bytes)).kickCtx c
        | _ => ((b.dropSpill c).entryFault c).kickCtx c
    | _ => b
  | none => b

/-- CTXT_ENTRY_READ. -/
def execCtxtEntryRead (c : CtxNo) (r : MemResp) (s : State) : Host.Outcome State Fault Refusal :=
  .next { s with blk := effCtxtEntryRead s.blk c r }

/-- SPILL_PUSH on the block: a push that may start does; one whose descriptor has been read is written. -/
def effSpillPush (b : Block) (c : CtxNo) (desc : MemResp) : Block :=
  match b.orphanDone (.spillDesc c) with
  | some b => b
  | none => match b.spillOf c with
  | some s => match s.ph with
    | .queued => b.kickCtx c
    | .descRead ph => if !ph.isIssued then b else ((b.freeLines 1).pushDesc s desc).kickCtx c
    | _ => b
  | none => b

/-- SPILL_PUSH. -/
def execSpillPush (c : CtxNo) (desc : MemResp) (s : State) : Host.Outcome State Fault Refusal :=
  .next { s with blk := effSpillPush s.blk c desc }

/-! ### The end of a handoff (R226) -/

/-- Held inserts of a context go back to the front of their sources' queues. -/
def Block.releaseHold (b : Block) (c : CtxNo) : Block :=
  let q := ctxBank c
  let go := b.hold.filter (·.ins.ctx == c)
  let b := { b with hold := b.hold.filter (·.ins.ctx != c) }
  go.reverse.foldl (fun b h =>
    if h.src < 16 then
      let e := b.engine h.src
      b.setEngine h.src { e with insq := e.insq.upd [] q (h.ins :: ·) }
    else if h.src = 16 then b.setBank q { b.bank q with in16 := .ins h.ins :: (b.bank q).in16 }
    else b.setBank q { b.bank q with car17 := .ins h.ins :: (b.bank q).car17 }) b

/-- HANDOFF_END on the block: nothing is outstanding on the old seat. -/
def effHandoffEnd (b : Block) (g : Nat) : Block :=
  let x := b.cmd g
  match x.target with
  | none => b
  | some j =>
    if !x.busy || x.old.isSome then b else
      let c := x.ctx
      match b.rec? c with
      | some r =>
        let b := b.setCmd g { x with target := none }
        let b := b.setRec c (b.linkTimer { r with moving := false })
        ((((b.enterSeat c j).releaseHold c).csgEnd g c resOk)).purgeIfDue c
      | none => (b.releaseHold c).csgEnd g c resFault

/-- HANDOFF_END. -/
def execHandoffEnd (g : Fin 32) (s : State) : Host.Outcome State Fault Refusal :=
  .next { s with blk := effHandoffEnd s.blk g }

/-! ### Memory accepts a context's write (R66) -/

/-- SPILL_WRITE_ACCEPT on the block: the oldest spill write or write-back of the context is accepted; what waited for it may
start. -/
def effSpillWriteAccept (b : Block) (c : CtxNo) : Block :=
  let w := c.toNat % 4
  let k := b.writer w
  let mine (m : MemWrite) : Bool := m.kind == .spill c || m.kind == .wb c
  match k.out.find? mine with
  | none => b
  | some m =>
    let b := b.setWriter w { k with out := acceptFirst mine k.out }
    let b := if m.kind == .spill c then
        match b.spillOf c with
        | some s => match s.ph with
          | .written n => if n ≤ 1 then b.dropSpill c else b.modSpill c fun s => { s with ph := .written (n - 1) }
          | _ => b
        | none => b
      else b
    (b.kickCtx c).startReloads

/-- SPILL_WRITE_ACCEPT. -/
def execSpillWriteAccept (c : CtxNo) (s : State) : Host.Outcome State Fault Refusal :=
  .next { s with blk := effSpillWriteAccept s.blk c }

end Sys2Proof.Machine
end

