-- ==== Sys2Proof/Machine/Rings.lean ====
section
/-! DEFINITION. Event rings (chapter 8): intake, admission, coalescing (R192), the writes of records and index lines,
consumer indexes, faults and ring commands. -/

namespace Sys2Proof.Machine

/-! ### Fields of a ring -/

/-- The compiled fields under which a ring's records are written: a changed ring that has not settled keeps its old ones
(R131). -/
def Block.cfgOf (b : Block) (r : RingNo) : RingCfg := (b.last.changed.find? r.toNat).getD (b.ringCfg r)

/-- The entries a ring holds; an unused ring (ORDER 0) holds none (log 41). -/
def RingCfg.entries (c : RingCfg) : Nat := if c.order = 0 then 0 else 2 ^ c.order.toNat

/-- The compiled entry of a ring met an uncorrectable error (Table 15-3): the active bank in bit 23. -/
def Block.badRing (b : Block) (r : RingNo) : Bool :=
  b.ras.badRings.contains (r.setWidth 24 ||| flagAt b.last.active 23)

/-- One of the block's own records (R237). -/
def Rec.isOwn (r : Rec) : Bool := decide (8 ≤ r.type.toNat)

/-- SHARE and CREDIT of an owner (R250, R251). -/
def Block.shareOf (b : Block) (o : Nat) : Word := b.fab.share.get 0x04000100 o

/-- Trackers of a writer in use. -/
def Writer.used (w : Writer) : Nat := w.recs.countP (·.trk)

/-- Records of an owner in a writer's staging. -/
def Writer.occ (w : Writer) (o : OwnerNo) : Nat := w.recs.countP fun x => x.trk && x.owner == o

/-- Records of a ring in staging, admitted or not. -/
def Block.staged (b : Block) (r : RingNo) : List Staged := (b.writer (ringWriter r)).recs.filter (·.ring == r)

/-- An index write of a ring waits for its translation or is in flight. -/
def Block.indexBusy (b : Block) (r : RingNo) : Bool :=
  (b.idxFly.find? r.toNat).isSome || (b.writer (ringWriter r)).idxWait.any (·.ring == r)

/-- A record of a ring is in staging, or one of its writes in flight (R247). -/
def Block.ringBusy (b : Block) (r : RingNo) : Bool := !(b.staged r).isEmpty || b.indexBusy r

/-! ### Intake (R240, R239) -/

/-- A record joins the staging of its ring's owner; TRK_FULL when it takes the last tracker. -/
def Block.stage (b : Block) (w : Nat) (x : Staged) : Block :=
  let k := b.writer w
  let b := b.setWriter w { k with recs := k.recs ++ [x] }
  if (b.writer w).used = 1024 then b.flag pgERW 5 else b

/-- The record at the head of an engine's queue for a writer is handed over. Its owner and generation are those of its ring's OWNER
now; a record that is admitted after a bank switch keeps them. R131 does not say whose it is then (DESIGN CHOICE, log 79). -/
def Block.intakeOne (b : Block) (w n : Nat) : Block :=
  match (b.engine n).recq.get [] w with
  | [] => b
  | q :: rest =>
    if 1024 ≤ (b.writer w).used then b else
      let g := b.engine n
      let b := b.setEngine n { g with recq := g.recq.set [] w rest }
      let c := b.ringCfg q.ring
      let b := match q.places with
        | some e => b.place e
        | none => b
      if (q.rcd.isOwn && c.order == 0) || !b.ownerActive c.owner then b.readPay q.rcd.pay
      else b.stage w { ring := q.ring, owner := c.owner, rcd := q.rcd, tok := q.tok,
                           tag := { b.tagOf c.owner with drain := q.tag.drain && q.tag.owner == c.owner } }

/-- A request at a ring-writer intake is eligible (Table 1-5): an engine holds a record for the writer, which has a tracker. -/
def Block.intakeElig (b : Block) (w n : Nat) : Bool :=
  b.dpOn && !((b.engine n).recq.get [] w).isEmpty && decide ((b.writer w).used < 1024)

/-- RECORD_INTAKE on the block: up to two descriptors of engine n, if the arbiter picks it. -/
def effRecordIntake (b : Block) (w n : Nat) : Block :=
  if b.pick (.intake w) (b.intakeElig w) = some n then ((b.intakeOne w n).intakeOne w n).granted (.intake w) n else b

/-- RECORD_INTAKE. -/
def execRecordIntake (w : Fin 4) (n : Fin 16) (s : State) : Host.Outcome State Fault Refusal :=
  .next { s with blk := effRecordIntake s.blk w n }

/-! ### Coalescing (R192, R193) -/

/-- The class that a ring's COAL_LINK names: of a changed ring that has not settled, the one of the bank it was opened under, while that
bank is kept (R130, R131, R194). -/
def Block.linkOf (b : Block) (r : RingNo) : Rte :=
  match b.last.changed.find? r.toNat with
  | some c =>
    if b.last.inactive = .previous then (if b.last.active then b.last.a else b.last.b).rteAt b.threads c.link else b.rte c.link
  | none => b.link r

/-- A flush (R193, R243): the publication target becomes PI, and an index write of an earlier target that is not granted gives way to
it; a RING_ONLY link inserts the ring-ready event. -/
def Block.flush (b : Block) (r : RingNo) (prio : Prio) : Block :=
  let x := b.ringOf r
  let w := ringWriter r
  let b := b.setWriter w { b.writer w with idxWait := (b.writer w).idxWait.filter (·.ring != r) }
  let b := b.setRing r { x with tgtPend := true, tgtDelta := (x.pi - x.pub).setWidth 21, tgtGt := b.gt }
  let k := b.linkOf r
  if k.kind = 0 then
    b.ask17 { ctx := k.target, userTag := k.userTag, urgent := k.urgent, entry := bankedEntry 0x00907 prio k.dclass }
  else b

/-- The ways a window closes with a flush: the counter each has. -/
def flushExp : Nat := 0x054
def flushCnt : Nat := 0x058
def flushByp : Nat := 0x05C

/-- A window closes (R192). -/
def Block.closeWindow (b : Block) (r : RingNo) (why : Nat) : Block :=
  match b.car.windows.find? r.toNat with
  | none => b
  | some w => (({ b with car := { b.car with windows := b.car.windows.erase r.toNat } }).cnt pgCAR why).flush r w.best

/-- A record was admitted for a ring (R192). On the way to Intermission no window opens (R194, R357). -/
def Block.recordAdmitted (b : Block) (r : RingNo) (prio : Prio) : Block :=
  let p := b.link r
  if !b.regBit pgCAR 0x050 2 || p.coalWindow == 0 || b.pwr.stage == .entry then b.flush r prio
  else
    let fresh : Window :=
      let d := b.gt + 64 * p.coalWindow.setWidth 64
      let k := keyOf b.car.cur d.toNat
      { window := p.coalWindow, count := p.coalCount, bypPrio := p.bypPrio, bypEn := p.bypEn, deadline := d, key := k,
        far := decide (slotOf b.car.cur b.gt.toNat + 4096 ≤ k), n := 0, best := 63 }
    let go (w : Window) : Block :=
      let w := { w with n := w.n + 1, best := bvMin w.best prio }
      let b := { b with car := { b.car with windows := b.car.windows.insert r.toNat w } }
      if w.bypEn && decide (prio.toNat ≤ w.bypPrio.toNat) then b.closeWindow r flushByp
      else if w.count != 0 && decide (w.count.toNat ≤ w.n) then b.closeWindow r flushCnt
      else b
    match b.car.windows.find? r.toNat with
    | some w => go w
    | none => go fresh

/-! ### Admission (R240) -/

/-- The overflow event (R244). -/
def Block.overflowEvent (b : Block) (r : RingNo) : Block :=
  let c := b.reg pgERW 0x040
  if !bit c 6 then b else
    let k := b.link r
    b.ask16 { ctx := k.target, entry := bankedEntry 0x00902 (fld c 5 0) (if k.dclass = 2 then 1 else k.dclass) }

/-- A record that left staging is dropped (R240); a fault record or a RAS record lost is counted by its own rule (R293,
R405). -/
def Block.dropRec (b : Block) (x : Staged) : Block :=
  let rg := b.ringOf x.ring
  let b := (b.cnt pgERW 0x088).pmuEv 0x12 (ringWriter x.ring)
  let b := b.readPay x.rcd.pay
  let b := if x.flt then (b.cnt pgXU 0x0C8).flag pgXU 1 else b
  let b := if x.ras then (b.cnt pgRAS 0x070).flag pgRAS 3 else b
  let rg := { rg with ovf := satAdd rg.ovf 1 }
  if rg.ovfEp then b.setRing x.ring { rg with epDrops := satAdd rg.epDrops 1 }
  else ((b.setRing x.ring { rg with ovfEp := true, epDrops := 1, epGt := b.gt }).flag pgERW 0).overflowEvent x.ring

/-- A list with its first item that passes replaced by several. -/
def spliceFirst {α : Type} (p : α → Bool) (f : α → List α) : List α → List α
  | [] => []
  | x :: r => if p x then f x ++ r else x :: spliceFirst p f r

/-- The RESUME record of a ring (Table 8-3). -/
def Block.resumeRec (b : Block) (r : Ring) : Rec :=
  { vevent := 0x00902, prio := fld (b.reg pgERW 0x040) 5 0, type := 9, w1 := r.epDrops, gt := r.epGt }

/-- A PAD record (Table 8-3). -/
def padRec : Rec := { vevent := 0xFFFFF, prio := 0, type := 0xF }

/-- The next queued record of a ring, which admission takes. -/
def Staged.isQueued (r : RingNo) (x : Staged) : Bool := x.ring == r && x.ph == .queued

/-- The entries a record takes. -/
def Rec.size (r : Rec) : Nat := if r.pf then 4 else 1

/-- What an admission allocates: RESUME, padding, the record. -/
def Block.allocate (b : Block) (x : Staged) (resume : Bool) (pad : Nat) : Block :=
  let w := ringWriter x.ring
  let rg := b.ringOf x.ring
  let base := if resume then rg.pi + 1 else rg.pi
  let (b, seq) := b.newTok
  let own (i : Word) (rc : Rec) : Staged :=
    { x with rcd := rc, tok := none, idx := i, ph := .staged, seq, trk := false, flt := false, ras := false }
  let pads := (List.range pad).map fun i => own (base + BitVec.ofNat 32 i) padRec
  let new := (if resume then [own rg.pi (b.resumeRec rg)] else []) ++ pads ++
    [{ x with idx := base + BitVec.ofNat 32 pad, ph := .staged, seq }]
  let k := b.writer w
  let b := b.setWriter w { k with recs := spliceFirst (Staged.isQueued x.ring) (fun _ => new) k.recs }
  let rg := { rg with pi := base + BitVec.ofNat 32 (pad + x.rcd.size) }
  (b.setRing x.ring (if resume then { rg with ovfEp := false, epDrops := 0, epGt := 0 } else rg)).pmuEv 0x11 w

/-- The next queued record of a ring is granted its descriptor port. -/
def Block.admitRec (b : Block) (r : RingNo) : Block :=
  let w := ringWriter r
  match (b.writer w).recs.find? (Staged.isQueued r) with
  | none => b
  | some x =>
    if x.tok.isSome || (b.last.changed.find? r.toNat).isSome then b else
      let c := b.ringCfg r
      let rg := b.ringOf r
      let occ := (b.writer w).occ x.owner
      let k := b.writer w
      let out (b : Block) : Block := b.setWriter w { k with recs := eraseFirst (Staged.isQueued r) k.recs }
      if rg.faulted || b.payBad x.rcd.pay then (out b).dropRec x
      else if (fld (b.shareOf x.owner.toNat) 26 16).toNat < occ then ((out b).flag pgERW 1).dropRec x
      else
        let start := rg.pi.toNat + (if rg.ovfEp then 1 else 0)
        let pad := if x.rcd.size = 4 then (4 - start % 4) % 4 else 0
        let need := (if rg.ovfEp then 1 else 0) + pad + x.rcd.size
        if c.entries < need + (rg.pi - rg.ci).toNat then (out b).dropRec x
        else (b.allocate x rg.ovfEp pad).recordAdmitted r x.rcd.prio

/-! #### The ring descriptor table port (Table 1-5) -/

/-- A ring's descriptor has been read back after a wake, or no restore is under way (R362). -/
def Block.ringHere (b : Block) (r : RingNo) : Bool :=
  let l := r.toNat / 2
  !b.pwr.ringsLeft || ((decide (l < b.pwr.ringNext) || b.pwr.ringEarly.contains l) && (b.pwr.back.find? l).isNone)

/-- A record or CI write for a ring that has not been read back moves its line to the front (R362). -/
def Block.frontLine (b : Block) (r : RingNo) : Block :=
  let p := b.pwr
  let l := r.toNat / 2
  if !p.ringsLeft || l < p.ringNext || p.ringEarly.contains l || p.ringFront.contains l then b
  else { b with pwr := { p with ringFront := p.ringFront ++ [l] } }

/-- The record that ring writer w presents: of the records at the heads of their rings, the first in intake order that waits for no
insert (R239), for no settling of its ring (R131) and for no descriptor (R362). -/
def Block.admitHead (b : Block) (w : Nat) : Option Staged :=
  let q := (b.writer w).recs.filter (·.ph == .queued)
  q.find? fun x => (q.find? (·.ring == x.ring)) == some x && x.tok.isNone && (b.last.changed.find? x.ring.toNat).isNone && b.ringHere x.ring

/-- The CI write that the register fabric presents at writer w's port. -/
def Block.ciAsk (b : Block) (w : Nat) : Bool :=
  match b.fab.ask with
  | .ring r => ringWriter r == w && b.ringHere r
  | _ => false

/-- The window that the Carousel presents at writer w's port: of those whose key the last processed boundary has reached, the earliest
(R191, R192). -/
def Block.dueWindow (b : Block) (w : Nat) : Option RingNo :=
  let due := b.car.windows.cells.filter fun p => p.1 % 4 == w && decide (p.2.key ≤ b.car.n)
  (due.foldl (fun best p => match best with
    | some (r, k) => if p.2.key < k then some (p.1, p.2.key) else some (r, k)
    | none => some (p.1, p.2.key)) none).map fun p => BitVec.ofNat 14 p.1

/-- A request at a ring descriptor table port is eligible (Table 1-5): the ring writer 0, the register fabric 1, the Carousel 2, the
scrubber 3. -/
def Block.ringElig (b : Block) (w i : Nat) : Bool :=
  b.dpOn && (match i with
    | 0 => (b.admitHead w).isSome
    | 1 => b.ciAsk w
    | 2 => (b.dueWindow w).isSome
    | _ => i == 3 && decide (0 < b.ras.scrub.get 0 (Res.ringTable w).key))

/-- The request that the arbiter of a ring descriptor table port grants (R38). -/
def Block.ringPick (b : Block) (w : Nat) : Option Nat := b.pick (.ringTable w) (b.ringElig w)

/-- RECORD_ADMIT on the block: the record of ring r, if it is the writer's head and the arbiter picks it. After a wake a record whose
ring has not been read back moves that ring's line to the front and waits (R362). -/
def effRecordAdmit (b : Block) (w : Nat) (r : RingNo) : Block :=
  if b.ringPick w = some 0 && (b.admitHead w).map (·.ring) == some r then (b.admitRec r).granted (.ringTable w) 0
  else if b.dpOn && ringWriter r == w && !b.ringHere r && (b.writer w).recs.any (Staged.isQueued r) then b.frontLine r else b

/-- RECORD_ADMIT. -/
def execRecordAdmit (w : Fin 4) (r : RingNo) (s : State) : Host.Outcome State Fault Refusal :=
  .next { s with blk := effRecordAdmit s.blk w r }

/-! ### Faulted rings (R246) -/

/-- PI goes back to the first index not written, what is in staging and not issued is dropped, the target is lowered
(R246, R400). -/
def Block.ringBack (b : Block) (r : RingNo) : Block :=
  let w := ringWriter r
  let k := b.writer w
  let mine (x : Staged) : Bool := x.ring == r && x.ph != .issued
  let rg := b.ringOf r
  let pi := match k.recs.find? fun x => mine x && x.ph != .queued with
    | some x => x.idx
    | none => rg.pi
  let delta := if rg.tgtPend && decide ((pi - rg.pub).toNat < rg.tgtDelta.toNat) then (pi - rg.pub).setWidth 21 else rg.tgtDelta
  let gone := (k.recs.filter mine).filter (·.trk)
  let b := b.setWriter w { k with recs := k.recs.filter fun x => !mine x }
  gone.foldl Block.dropRec (b.setRing r { rg with pi, tgtDelta := delta })

/-- The ring is marked FAULTED. -/
def Block.ringFault (b : Block) (r : RingNo) : Block :=
  ((b.setRing r { b.ringOf r with faulted := true }).flag pgERW 2).ringBack r

/-! ### Writing records (R242) -/

/-- The bytes of a record (Tables 8-1 to 8-3, R235). -/
def Block.recBytes (b : Block) (x : Rec) : List Byte :=
  let w0 : Word := x.vevent.setWidth 32 ||| at' x.prio 20 ||| flagAt x.pf 26 ||| flagAt x.merged 27 ||| at' x.type 28
  let head := leBytes 4 w0.toNat ++ leBytes 4 x.w1.toNat ++ leBytes 8 x.gt.toNat
  let body := (b.payBytes x.pay).take (fld x.w1 29 24).toNat
  if x.pf then head ++ body ++ List.replicate (48 - body.length) 0 else head

/-- The offset of an index of a ring (R230, R231). -/
def RingCfg.offOf (c : RingCfg) (i : Word) : BitVec 64 :=
  (c.base.setWidth 64 <<< 12) + 16 * BitVec.ofNat 64 (i.toNat % 2 ^ c.order.toNat)

/-- The offset of a ring's index line (R230). -/
def RingCfg.lineOff (c : RingCfg) : BitVec 64 := (c.base.setWidth 64 <<< 12) + BitVec.ofNat 64 (16 * 2 ^ c.order.toNat)

/-- Change the phase of the records of a ring at the indexes of a group. -/
def Block.setPhases (b : Block) (r : RingNo) (g : List Staged) (f : Staged → RecPh) : Block :=
  let w := ringWriter r
  let k := b.writer w
  b.setWriter w { k with recs := k.recs.map fun x =>
    if x.ring == r && x.ph != .queued && x.ph != .issued && g.any (·.idx == x.idx) then { x with ph := f x } else x }

/-- The owner's tokens of a granted write. -/
def Block.spendOwn (b : Block) (w : Nat) (o : OwnerNo) (n : Nat) : Block :=
  let k := b.writer w
  b.setWriter w { k with ownTok := k.ownTok.set 1024 o.toNat (k.ownTok.get 1024 o.toNat - 8 * n) }

/-- A write of a group at its address is granted: the payloads have been read (R20), the page is logged (R269), and the port goes on. -/
def Block.issueGroup (b : Block) (r : RingNo) (g : List Staged) (pa : BitVec 64) (dev : Bool) : Block :=
  match g with
  | [] => b
  | x :: _ =>
    let w := ringWriter r
    let bytes := g.flatMap fun y => b.recBytes y.rcd
    let b := b.setPhases r g fun _ => .issued
    let b := (b.spendOwn w x.owner bytes.length).granted (.wmem w) 0
    let b := b.issueWrite w { kind := .records r g.length, pa, bytes, dev, tag := x.tag } (b.cfgOf r).seg
    (g.foldl (fun b y => b.readPay y.rcd.pay) b).grantPort w 64

/-- A ring write's offset starts the prefetch of the ring's next page (R287). -/
def Block.ringPrefetch (b : Block) (c : RingCfg) (off : BitVec 64) : Block :=
  let inPage := off.toNat % 4096
  let pages := 16 * 2 ^ c.order.toNat / 4096
  let page := off.toNat / 4096 - c.base.toNat
  if inPage < 0x800 || pages < 2 then b
  else prefetch b c.seg ((c.base.setWidth 64 + BitVec.ofNat 64 ((page + 1) % pages)) <<< 12)

/-- The address of a group is known: its records keep their own addresses, with the mark of their segment's CLASS at the translation
(R279), until the port grants the write. -/
def Block.groupAt (b : Block) (r : RingNo) (g : List Staged) (pa : BitVec 64) (dev : Bool) : Block :=
  match g with
  | [] => b
  | x :: _ => b.setPhases r g fun y => .ready (pa + 16 * (y.idx - x.idx).setWidth 64) dev

/-- Records of a ring that are admitted and not issued, in index order. -/
def Block.unissued (b : Block) (r : RingNo) : List Staged := (b.staged r).filter (Staged.unissued r)

/-- The next write of a ring that has no address is translated; no later one is, while a walk for the ring is under way (R242). -/
def Block.translateNext (b : Block) (r : RingNo) : Block :=
  let u := b.unissued r
  if u.any (·.ph == .walk) then b else
    match u.find? (·.ph == .staged) with
    | none => b
    | some x =>
      let c := b.cfgOf r
      let off := c.offOf x.idx
      let q : XReq := { seg := c.seg, off, op := opRing, user := c.user, owner := x.owner, obj := r.setWidth 16,
                        cont := .ring (ringWriter r) r }
      let g := lineGroup (b.segm c.seg).dev (u.filter (·.ph == .staged))
      match xlate (b.ringPrefetch c off) q with
      | (b, .ok pa dev) => b.groupAt r g pa dev
      | (b, .wait) => b.setPhases r g fun _ => .walk
      | (b, .fault _ _) => b.ringFault r

/-- Requester 0 of a writer's memory port is granted a write of this ring: of records, or of its index line. -/
def Block.headIs (b : Block) (r : RingNo) (index : Bool) : Bool :=
  b.wmemPick (ringWriter r) == some 0 &&
    (match (b.writer (ringWriter r)).headWrite with
      | some h => h.ring == r && h.index == index
      | none => false)

/-- RING_WRITE_ISSUE on the block: the next write of the ring is translated, and the ring's write is issued if it is the one that the
port grants (R242, R250). -/
def effRingWriteIssue (b : Block) (r : RingNo) : Block :=
  if !b.dpOn then b else
    let b := b.translateNext r
    if b.headIs r false then
      match b.unissued r with
      | x :: rest => match x.ph with
        | .ready pa dev => b.issueGroup r (lineGroup dev (x :: rest)) pa dev
        | _ => b
      | [] => b
    else b

/-- RING_WRITE_ISSUE. -/
def execRingWriteIssue (r : RingNo) (s : State) : Host.Outcome State Fault Refusal :=
  .next { s with blk := effRingWriteIssue s.blk r }

/-- The first `n` issued records of a ring leave staging. -/
def dropIssued (r : RingNo) : Nat → List Staged → List Staged
  | 0, l => l
  | _, [] => []
  | n + 1, x :: l => if x.ring == r && x.ph == .issued then dropIssued r n l else x :: dropIssued r (n + 1) l

/-- RING_WRITE_ACCEPT on the block: the oldest record write of the ring is accepted (R242). -/
def effRingWriteAccept (b : Block) (r : RingNo) : Block :=
  let w := ringWriter r
  let k := b.writer w
  let mine (m : MemWrite) : Bool := match m.kind with
    | .records q _ => q == r
    | _ => false
  match k.out.find? mine with
  | some m => match m.kind with
    | .records _ n =>
      (b.setWriter w { k with out := acceptFirst mine k.out, recs := dropIssued r n k.recs }).cnt48 pgERW 0x080 0x084 n
    | _ => b
  | none => b

/-- RING_WRITE_ACCEPT. -/
def execRingWriteAccept (r : RingNo) (s : State) : Host.Outcome State Fault Refusal :=
  .next { s with blk := effRingWriteAccept s.blk r }

/-! ### Publication (R243) -/

/-- Every entry below the ring's target has been accepted. -/
def Block.targetReached (b : Block) (r : RingNo) : Bool :=
  let x := b.ringOf r
  x.tgtPend && (b.staged r).all fun y =>
    y.ph == .queued || decide (x.tgtDelta.toNat ≤ (y.idx - x.pub).toNat)

/-- The index write of a ring is granted at its address. -/
def Block.issueIndex (b : Block) (r : RingNo) (pa : BitVec 64) (dev : Bool) : Block :=
  let w := ringWriter r
  let c := b.cfgOf r
  let x := b.ringOf r
  let pub := x.pub + x.tgtDelta.setWidth 32
  let bytes := leBytes 4 pub.toNat ++ leBytes 4 x.ovf.toNat ++ leBytes 8 x.tgtGt.toNat
  let k := b.writer w
  let m : MemWrite := { kind := .index r pub, pa, bytes, dev, tag := b.tagOf c.owner }
  let b := (b.setWriter w { k.spend 16 with idxWait := k.idxWait.filter (·.ring != r) }).granted (.wmem w) 0
  let b := { (b.spendOwn w c.owner 16) with idxFly := b.idxFly.insert r.toNat m }
  let b := b.setRing r { x with tgtPend := false, tgtDelta := 0 }
  ((b.pmuEv 0x13 w 1).logPage w c.owner c.seg pa).grantPort w 64

/-- An index write faulted: its target is discarded (R246). -/
def Block.indexFault (b : Block) (r : RingNo) : Block :=
  let w := ringWriter r
  let k := b.writer w
  let b := b.setWriter w { k with idxWait := k.idxWait.filter (·.ring != r) }
  (b.setRing r { b.ringOf r with tgtPend := false, tgtDelta := 0 }).ringFault r

/-- The index write of a ring whose target is reached asks for its address (R243). -/
def Block.askIndex (b : Block) (r : RingNo) : Block :=
  let w := ringWriter r
  if (b.writer w).idxWait.any (·.ring == r) then b else
    let c := b.cfgOf r
    let q : XReq := { seg := c.seg, off := c.lineOff, op := opIndex, user := c.user, owner := c.owner,
                      obj := r.setWidth 16, cont := .index w r }
    let (b, seq) := b.newTok
    let wait (b : Block) (pa : Option (BitVec 64 × Bool)) : Block :=
      b.setWriter w { b.writer w with idxWait := (b.writer w).idxWait ++ [{ ring := r, owner := c.owner, seq, pa }] }
    match xlate b q with
    | (b, .ok pa dev) => wait b (some (pa, dev))
    | (b, .wait) => wait b none
    | (b, .fault _ _) => b.indexFault r

/-- INDEX_WRITE on the block: the index write asks for its address, and is issued if it is the one that the port grants. -/
def effIndexWrite (b : Block) (r : RingNo) : Block :=
  let marked := (b.vif.cells.any fun p => p.2.marked.contains r)
  if !b.dpOn || !b.targetReached r || (b.idxFly.find? r.toNat).isSome || marked then b else
    let b := b.askIndex r
    if b.headIs r true then
      match (b.writer (ringWriter r)).idxWait.find? (·.ring == r) with
      | some i => match i.pa with
        | some (pa, dev) => b.issueIndex r pa dev
        | none => b
      | none => b
    else b

/-- INDEX_WRITE. -/
def execIndexWrite (r : RingNo) (s : State) : Host.Outcome State Fault Refusal :=
  .next { s with blk := effIndexWrite s.blk r }

/-- INDEX_WRITE_ACCEPT on the block: PUB takes the value; a later target is counted from it. -/
def effIndexWriteAccept (b : Block) (r : RingNo) : Block :=
  match b.idxFly.find? r.toNat with
  | some m => match m.kind with
    | .index _ pub =>
      let b := { b with idxFly := b.idxFly.erase r.toNat }
      let x := b.ringOf r
      let target := x.pub + x.tgtDelta.setWidth 32
      if m.tag.gen != (b.tagOf m.tag.owner).gen then b
      else b.setRing r { x with pub, tgtDelta := if x.tgtPend then (target - pub).setWidth 21 else 0 }
    | _ => b
  | none => b

/-- INDEX_WRITE_ACCEPT. -/
def execIndexWriteAccept (r : RingNo) (s : State) : Host.Outcome State Fault Refusal :=
  .next { s with blk := effIndexWriteAccept s.blk r }

/-! ### Consumer indexes and ring commands (R245, R247, R131) -/

/-- A CI write of a ring; answers whether it was refused. -/
def Block.writeCi (b : Block) (r : RingNo) (x : Word) : Block × Bool :=
  let g := b.ringOf r
  if (g.pub - g.ci).toNat < (x - g.ci).toNat then ((b.cnt pgERW 0x08C).flag pgERW 3, true)
  else (b.setRing r { g with ci := x }, false)

/-- The live fields as RESET leaves them; a ring whose compiled entry is bad stays FAULTED (Table 15-3). -/
def Block.resetRing (b : Block) (r : RingNo) : Block := b.setRing r { faulted := b.badRing r }

/-- ERW_RING_CMD on a ring (R247). -/
def Block.ringCmd (b : Block) (op : Nat) (r : RingNo) : Block :=
  let result (b : Block) (v : BitVec 2) : Block := b.setReg pgERW 0x064 (v.setWidth 32 ||| at' r 16)
  if op = 1 then result (b.setRing r { b.ringOf r with faulted := b.badRing r }) 0
  else if op = 2 then
    if b.ringBusy r then (result b 1).flag pgERW 4
    else result (b.resetRing r) 0
  else b

/-- RING_SETTLE on the block (R131): once every record of the old ring is written, an open window is flushed (R194); once that is
published, the ring is reset; the last one sets SETTLED. -/
def effRingSettle (b : Block) (r : RingNo) : Block :=
  if (b.last.changed.find? r.toNat).isNone || b.indexBusy r || (b.ringOf r).tgtPend ||
      (b.staged r).any (·.ph != .queued) then b
  else if (b.car.windows.find? r.toNat).isSome then b.closeWindow r flushExp
  else
    let changed := b.last.changed.erase r.toNat
    let b := { b with last := { b.last with changed, settled := changed.cells.isEmpty } }
    let b := b.resetRing r
    if changed.cells.isEmpty then b.flag pgLAST 7 else b

/-- RING_SETTLE. -/
def execRingSettle (r : RingNo) (s : State) : Host.Outcome State Fault Refusal :=
  .next { s with blk := effRingSettle s.blk r }

end Sys2Proof.Machine
end

