-- ==== Sys2Proof/Machine/Vifs.lean ====
section
/-! DEFINITION. Virtual interrupt functions (chapter 9): the commands of the VMGR page, purge and quiescence, drains,
harvests, what the VIF pages do. -/

namespace Sys2Proof.Machine

/-! ### Results (VMGR_CMD_RES) -/

def vmOk : BitVec 4 := 0
def vmBusy : BitVec 4 := 1
def vmNoVif : BitVec 4 := 2
def vmInUse : BitVec 4 := 3
def vmNotActive : BitVec 4 := 4
def vmBadArg : BitVec 4 := 5
def vmChBusy : BitVec 4 := 6
def vmNoLog : BitVec 4 := 7
def vmAlready : BitVec 4 := 8
def vmOwner : BitVec 4 := 9
def vmBadop : BitVec 4 := 15

/-- A command ends (R259): its result, CMD_DONE, and CMD_ERR where the result is not OK. -/
def Block.vmEnd (b : Block) (v : Nat) (r : BitVec 4) : Block :=
  let b := { b with vm := { b.vm with busy := false, result := r, vif := BitVec.ofNat 12 v } }
  b.raise pgVMGR (if r = vmOk then 1 else 3)

/-- The owner code of a VIF (R255). -/
def ownerCode (v : Nat) : OwnerNo := BitVec.ofNat 13 (v + 1)

/-- The tag belongs to the present generation of nobody: its VIF has another one now (R258). -/
def Block.oldTag (b : Block) (v : Nat) (t : Tag) : Bool := t.owner == ownerCode v && t.gen != (b.vifOf v).gen

/-- The rings whose active-bank OWNER is a VIF. -/
def Block.ringsOf (b : Block) (v : Nat) : List RingNo :=
  match b.act.basic with
  | some _ => []
  | none => (b.act.ring.cells.filter fun p => p.2.owner == ownerCode v).map fun p => BitVec.ofNat 14 p.1

/-! ### Operations in trackers (R262, R265) -/

/-- Writes of a writer that carry RESUME or PAD records only, whose tags pass: no tracker stands for them (R240). -/
def padWrites (p : Tag → Bool) (recs : List Staged) : List MemWrite → Nat
  | [] => 0
  | m :: rest => match m.kind with
    | .records r n =>
      let g := (recs.filter fun x => x.ring == r && x.ph == .issued).take n
      (if p m.tag && g.all (fun x => !x.trk) then 1 else 0) + padWrites p (dropIssued r n recs) rest
    | _ => padWrites p recs rest

/-- A write of record entries. -/
def MemWrite.isRec (m : MemWrite) : Bool := match m.kind with
  | .records _ _ => true
  | _ => false

/-- Operations of trackers whose tags pass: records, other writes on the memory ports, index writes, pushes, refills, descriptor
reads of loads, reads whose operation is gone, walks of purged operations, delivery, forwards. -/
def Block.countOps (b : Block) (p : Tag → Bool) (stale : XReq → Bool) : Nat :=
  (b.wr.cells.map fun w => w.2.recs.countP (fun x => x.trk && p x.tag) + w.2.out.countP (fun m => !m.isRec && p m.tag) +
    padWrites p w.2.recs w.2.out).sum +
  b.idxFly.countP (fun _ m => p m.tag) +
  (b.cb.cells.map fun k => k.2.spills.countP fun s => p s.tag && (match s.ph with
    | .written _ => false
    | _ => true)).sum +
  b.ctx.countP (fun _ x => match x.refill with
    | some r => p r.tag
    | none => false) +
  (b.loads.cells.map fun l => if p l.2.tag then l.2.descs.countP fun d => d.2.isIssued else 0).sum +
  b.xl.orphans.countP (fun o => p o.2.1) +
  b.xl.walkers.countP (fun _ w => w.waiting.any stale) +
  b.thr.countP (fun _ h => h.trk && p h.tag) +
  (b.jp.cells.map fun j => j.2.trk.countP fun t => p t.2).sum

/-- Inserts that wait anywhere: at engines, in a bank's intakes and residency queue, in hold buffers, at the spill engine. -/
def Block.insAll (b : Block) : List Ins :=
  (b.eng.cells.flatMap fun e => e.2.insq.cells.flatMap fun q => q.2) ++
    (b.cb.cells.flatMap fun k => (k.2.in16 ++ k.2.car17).filterMap (fun o => match o with
      | .ins i => some i
      | _ => none) ++ k.2.resq ++ k.2.spills.filterMap Spill.ins) ++ b.hold.map HeldIns.ins

/-- The owner of an insert's target is a VIF, as far as the block knows it (R148). -/
def Block.mayBe (b : Block) (o : OwnerNo) (i : Ins) : Bool :=
  match b.rec? i.ctx with
  | some x => x.owner == o
  | none => match (b.spillOf i.ctx).bind Spill.known with
    | some (_, _, w) => w == o
    | none => true

/-- Table-entry reads in flight for an insert that may be the VIF's: its owner is known only from the answer (R148). -/
def Block.entryReads (b : Block) (p : Ins → Bool) : Nat :=
  (b.cb.cells.map fun k => k.2.spills.countP fun s => (match s.ph with
    | .entryRead ph => ph.isIssued
    | _ => false) && (match s.ins with
    | some i => p i
    | none => false)).sum

/-- VIF_QUIESCE.OLD_OPS. A table-entry read that was in flight at the reset counts until its answer shows whose it is (log 80). -/
def Block.oldOps (b : Block) (v : Nat) : Nat :=
  b.countOps (b.oldTag v) (fun q => q.cont == .stale && q.owner == ownerCode v) + b.entryReads fun i => i.old.contains (ownerCode v)

/-- Change every insert that waits. -/
def Block.mapIns (b : Block) (f : Ins → Ins) : Block :=
  let op (o : BankOp) : BankOp := match o with
    | .ins i => .ins (f i)
    | o => o
  { b with
    eng := b.eng.mapVals fun _ e => { e with insq := e.insq.mapVals fun _ l => l.map f }
    cb := b.cb.mapVals fun _ k => { k with in16 := k.in16.map op, car17 := k.car17.map op, resq := k.resq.map f,
                                           spills := k.spills.map fun s => { s with ins := s.ins.map f } }
    hold := b.hold.map fun h => { h with ins := f h.ins } }

/-- Change the tags of every operation of a VIF. -/
def Block.markOps (b : Block) (v : Nat) (f : Tag → Tag) : Block :=
  let t (x : Tag) : Tag := if x.owner = ownerCode v then f x else x
  let lane (l : List LaneFrame) : List LaneFrame := l.map fun x => { x with tag := t x.tag }
  { b with
    wr := b.wr.mapVals fun _ w => { w with recs := w.recs.map fun x => { x with tag := t x.tag },
                                           out := w.out.map fun m => { m with tag := t m.tag },
                                           ready := w.ready.map fun q => { q with m := { q.m with tag := t q.m.tag } },
                                           wbq := w.wbq.map fun q => { q with tag := t q.tag } }
    eng := b.eng.mapVals fun _ e => { e with
      lanes := e.lanes.mapVals fun _ l => { vc0 := lane l.vc0, pin := lane l.pin, vc1 := lane l.vc1 }
      recq := e.recq.mapVals fun _ l => l.map fun q =>
        if (b.ringCfg q.ring).owner = ownerCode v then { q with tag := f (b.tagOf (ownerCode v)) } else q }
    idxFly := b.idxFly.mapVals fun _ m => { m with tag := t m.tag }
    cb := b.cb.mapVals fun _ k => { k with spills := k.spills.map fun s => { s with tag := t s.tag } }
    ctx := b.ctx.mapVals fun _ x => { x with refill := x.refill.map fun r => { r with tag := t r.tag } }
    loads := b.loads.mapVals fun _ l => { l with tag := t l.tag }
    thr := b.thr.mapVals fun _ h => { h with tag := t h.tag }
    jp := b.jp.mapVals fun _ j => { j with trk := j.trk.map fun k => (k.1, t k.2) }
    xl := { b.xl with orphans := b.xl.orphans.map (fun o => (o.1, t o.2.1, o.2.2)),
                      waitq := b.xl.waitq.map (fun q => { q with tag := t q.tag }),
                      walkers := b.xl.walkers.mapVals fun _ w => { w with waiting := w.waiting.map fun q => { q with tag := t q.tag } } } }

/-- Mark the writes of a VIF that have been granted, and the entries that its dirty log holds (R270). -/
def Block.markGranted (b : Block) (v : Nat) : Block :=
  let t (x : Tag) : Tag := if x.owner = ownerCode v then { x with harv := true } else x
  let log (q : XReq) : XReq := match q.cont with
    | .log _ _ _ => { q with tag := t q.tag }
    | _ => q
  { b with
    wr := b.wr.mapVals fun _ w => { w with out := w.out.map fun m => { m with tag := t m.tag },
                                           ready := w.ready.map fun q => if q.m.isLog then { q with m := { q.m with tag := t q.m.tag } } else q }
    idxFly := b.idxFly.mapVals fun _ m => { m with tag := t m.tag }
    xl := { b.xl with waitq := b.xl.waitq.map log,
                      walkers := b.xl.walkers.mapVals fun _ w => { w with waiting := w.waiting.map log } } }

/-- A log write that still waits for its translation or for its port, whose tag passes. -/
def Block.logWaits (b : Block) (p : BitVec 6 → Tag → Bool) : Bool :=
  let isLog (q : XReq) : Bool := match q.cont with
    | .log _ c _ => p c q.tag
    | _ => false
  b.xl.waitq.any isLog || (b.xl.walkers.cells.any fun w => w.2.waiting.any isLog) ||
    b.wr.cells.any fun w => w.2.ready.any fun q => match q.m.kind with
      | .log c => p c q.m.tag
      | _ => false

/-- Memory has accepted the dirty-log writes that pass: what a command says whose event waits for them (log 47). -/
def Block.logsTaken (b : Block) (p : MemWrite → Bool) : Block :=
  { b with wr := b.wr.mapVals fun _ w => { w with out := w.out.filter fun m => !(m.isLog && p m) } }

/-! ### The purge (R260, R261, Table 9-5) -/

/-- An unissued insert into a context of the VIF is removed. -/
def Block.dropIns (b : Block) (i : Ins) : Block :=
  let b := (b.resolveRec i.recTok false).cnt pgVMGR 0x0B4
  match i.flight with
  | some e => b.leftQueue e
  | none => b

/-- The lists of a numbered collection with some items removed. -/
def keepIn {α : Type} [DecidableEq α] (m : Map (List α)) (p : α → Bool) : Map (List α) :=
  ⟨(m.cells.map fun c => (c.1, c.2.filter p)).filter fun c => !c.2.isEmpty⟩

/-- Every unissued insert into the given contexts is removed, wherever it waits. -/
def Block.purgeIns (b : Block) (mine : CtxNo → Bool) : Block :=
  let hit (i : Ins) : Bool := mine i.ctx
  let gone := (b.eng.cells.flatMap fun e => e.2.insq.cells.flatMap fun q => q.2.filter hit) ++
    (b.cb.cells.flatMap fun k => ((k.2.in16 ++ k.2.car17).filterMap (fun o => match o with
      | .ins i => some i
      | _ => none) ++ k.2.resq).filter hit) ++ (b.hold.map HeldIns.ins).filter hit
  let keep (l : List BankOp) : List BankOp := l.filter fun o => match o with
    | .ins i => !hit i
    | _ => true
  let b := { b with
    eng := b.eng.mapVals fun _ e => { e with insq := keepIn e.insq fun i => !hit i }
    cb := b.cb.mapVals fun _ k => { k with in16 := keep k.in16, car17 := keep k.car17, resq := k.resq.filter fun i => !hit i }
    hold := b.hold.filter fun h => !hit h.ins }
  let b := gone.foldl Block.dropIns b
  (b.eng.cells.map Prod.fst).foldl (fun b n => b.drainMc n 200) b

/-- Records of the VIF that are not issued are freed, in staging and in the engines' queues. -/
def Block.purgeRecs (b : Block) (v : Nat) : Block :=
  let o := ownerCode v
  let hit (x : Staged) : Bool := x.owner == o && x.ph != .issued
  let hitQ (q : RecReq) : Bool := (b.ringCfg q.ring).owner == o
  let gone := (b.wr.cells.flatMap fun w => w.2.recs.filter hit).filter (·.trk)
  let goneQ := b.eng.cells.flatMap fun e => e.2.recq.cells.flatMap fun l => l.2.filter hitQ
  let b := { b with
    wr := b.wr.mapVals fun _ w => { w with recs := w.recs.filter fun x => !hit x }
    eng := b.eng.mapVals fun _ e => { e with recq := keepIn e.recq fun q => !hitQ q } }
  let b := gone.foldl (fun b x => (b.readPay x.rcd.pay).cnt pgVMGR 0x0B4) b
  goneQ.foldl (fun b q =>
    let b := (b.readPay q.rcd.pay).cnt pgVMGR 0x0B4
    match q.places with
    | some e => b.place e
    | none => b) b

/-- Pushes and write-backs of the VIF that are not issued are discarded; an issued descriptor read goes on without its push. -/
def Block.purgeSpills (b : Block) (v : Nat) : Block :=
  let o := ownerCode v
  let out (c : CtxNo) : Bool := (b.writer (c.toNat % 4)).out.any (·.kind == .spill c)
  let hit (s : Spill) : Bool := match s.known with
    | some (_, _, w) => w == o && (match s.ph with
      | .written n => n == 2 && !out s.ctx
      | _ => true)
    | none => false
  let gone := b.cb.cells.flatMap fun k => k.2.spills.filter hit
  let half (c : CtxNo) : Bool := (b.bank (ctxBank c)).spills.any fun s => s.ctx == c && !hit s && (match s.ph with
    | .written _ => true
    | _ => false)
  let keep (q : PortWrite) : Bool := q.m.tag.owner != o || (match q.m.kind with
    | .spill c => half c
    | .log _ => false
    | .wb _ => false
    | _ => true)
  let b := { b with
    cb := b.cb.mapVals fun _ k => { k with spills := k.spills.filter fun s => !hit s }
    wr := b.wr.mapVals fun _ w => { w with wbq := w.wbq.filter (fun q => q.tag.owner != o), ready := w.ready.filter keep } }
  gone.foldl (fun b s =>
    let b := b.cnt pgVMGR 0x0B4
    match s.ph with
    | .descRead ph => b.orphan (.spillDesc s.ctx) ph s.tag
    | _ => b) b

/-- The descriptor reads of a LOAD of the VIF that are not issued are not made (Table 9-5); what its issued ones answer is
discarded. -/
def Block.purgeLoads (b : Block) (v : Nat) : Block :=
  let o := ownerCode v
  { b with
    xl := { b.xl with trkWait := b.xl.trkWait.filter fun c => match c with
      | .loadDesc c _ => (match b.loads.find? c.toNat with
        | some l => l.tag.owner != o
        | none => true)
      | _ => true }
    loads := b.loads.mapVals fun _ l =>
      if l.tag.owner = o then
        { l with next := 64, descs := l.descs.filter (fun d => d.2.isIssued),
                 bad := (List.range 64).filter fun j => decide (l.next ≤ j) || l.descs.any fun d => d.1 == j && !d.2.isIssued }
      else l }

/-- Translations of purged operations: not started where no walk runs, discarded where one does. -/
def Block.purgeXlate (b : Block) (v : Nat) : Block :=
  let hit (q : XReq) : Bool := q.owner == ownerCode v && (match q.cont with
    | .ring _ _ | .index _ _ | .spillDesc _ | .refill _ | .loadDesc _ _ | .wb _ | .log _ _ _ => true
    | _ => false)
  { b with xl := { b.xl with
      waitq := b.xl.waitq.filter fun q => !hit q
      walkers := b.xl.walkers.mapVals fun _ w => { w with waiting := w.waiting.map fun q => if hit q then { q with cont := .stale } else q } } }

/-- A lane without some frames; a frame that becomes its head by that waits from now on (R305). -/
def laneKeep (b : Block) (keep : LaneFrame → Bool) (l : List LaneFrame) : List LaneFrame :=
  match l, l.filter keep with
  | f :: _, g :: rest => if keep f then g :: rest else { g with since := b.clk.dclk, dry := 0 } :: rest
  | _, r => r

/-- Frames that pass stay in the lanes, and engines that waited for room go on (R316); answers the frames that are gone. -/
def Block.keepLanes (b : Block) (keep : LaneFrame → Bool) : Block × List LaneFrame :=
  let all (l : Lanes) : List LaneFrame := l.vc0 ++ l.pin ++ l.vc1
  let gone := b.eng.cells.flatMap fun e => e.2.lanes.cells.flatMap fun l => (all l.2).filter fun f => !keep f
  let b := { b with
    eng := b.eng.mapVals fun _ e => { e with lanes := e.lanes.mapVals fun _ l =>
      { vc0 := laneKeep b keep l.vc0, pin := laneKeep b keep l.pin, vc1 := laneKeep b keep l.vc1 } } }
  ((b.eng.cells.map Prod.fst).foldl (fun b n => b.drainMc n 200) b, gone)

/-- Forwards of VIF-owned events that are not issued are dropped. -/
def Block.purgeLanes (b : Block) (v : Nat) : Block :=
  let r := b.keepLanes fun f => f.tag.owner != ownerCode v
  r.2.foldl (fun b f =>
    let b := b.readPay f.pay
    match f.local? with
    | some e => b.place e
    | none => b) r.1

/-- A resident context is purged with its refill (R261). -/
def Block.purgeResident (b : Block) (c : CtxNo) : Block :=
  match b.rec? c with
  | some x =>
    let b := match x.refill with
      | some r => b.orphan (.refill c) r.phase r.tag
      | none => b
    b.purgeCtx c
  | none => b

/-- Requests whose queue has another head than before are new ones (R36, R37). -/
def Block.freshAges (b old : Block) : Block :=
  let bank (b : Block) (i : Nat) : Option Ins := b.bankHead (i / 64 - 32) (i % 64)
  let rec? (b : Block) (i : Nat) : Option RecReq := ((b.engine (i % 64)).recq.get [] (i / 64 - 52)).head?
  let lane (b : Block) (i : Nat) : List (Option LaneFrame) :=
    let l := (b.engine (i % 64)).lanes.get {} (i / 64 - 66)
    [l.vc0.head?, l.pin.head?, l.vc1.head?]
  { b with ages := b.ages.filter fun i _ =>
      if 32 ≤ i / 64 ∧ i / 64 < 48 then bank b i == bank old i
      else if 52 ≤ i / 64 ∧ i / 64 < 56 then rec? b i == rec? old i
      else if 66 ≤ i / 64 ∧ i % 64 < 16 then lane b i == lane old i
      else true }

/-- Dirty logging of a VIF stops (R268). -/
def Block.stopLog (b : Block) (v : Nat) : Block :=
  let x := b.vifOf v
  if !x.dlEn then b else
    let ch := x.dlCh.toNat
    (b.setVif v { x with dlEn := false }).setDlCh ch { b.dlCh ch with stopping := true }

/-- A RESET or DESTROY at its grant G (R257, R260). -/
def Block.vifPurge (b0 : Block) (v : Nat) (st : VifState) : Block :=
  let b := b0.stopLog v
  let marked := b.ringsOf v
  let o := ownerCode v
  let mineRes := b.ctx.cells.filter fun p => p.2.owner == o
  let moving := (mineRes.filter fun p => p.2.moving).map fun p => BitVec.ofNat 16 p.1
  let loading : List CtxNo := b.loads.cells.map fun p => BitVec.ofNat 16 p.1
  let leaving : List CtxNo := (b.leave.cells.filter fun p => p.2.x.owner == o).map fun p => BitVec.ofNat 16 p.1
  let x := b.vifOf v
  let b := b.setVif v { x with state := st, gen := x.gen + 1, done := false, purging := true, draining := false, drainRings := [],
                               marked, due := moving ++ loading ++ leaving }
  let mine (c : CtxNo) : Bool :=
    (mineRes.any fun p => p.1 == c.toNat) || leaving.contains c || (match b.loads.find? c.toNat with
      | some l => l.tag.owner == o
      | none => false)
  -- an insert whose target's owner the block does not know yet is told at its entry read
  let b := b.mapIns fun i => if (b.rec? i.ctx).isNone && !mine i.ctx then { i with old := i.old ++ [o] } else i
  let b := (((((b.purgeIns mine).purgeRecs v).purgeSpills v).purgeLoads v).purgeXlate v).purgeLanes v
  let b := { b with wr := b.wr.mapVals fun _ w => { w with idxWait := w.idxWait.filter fun i => !marked.contains i.ring } }
  let b := marked.foldl (fun b r =>
    let g := b.ringOf r
    b.setRing r { g with tgtPend := false, tgtDelta := 0 }) b
  let b := ((mineRes.filter fun p => !p.2.moving).map fun p => (BitVec.ofNat 16 p.1 : CtxNo)).foldl Block.purgeResident b
  (b.kickMoves).freshAges b0

/-- PURGE_END on the block: no context of the VIF is busy any more. -/
def effPurgeEnd (b : Block) : Block :=
  let v := b.vm.vif.toNat
  let x := b.vifOf v
  if !b.vm.busy || !x.purging || x.due.any b.ctxBusy then b
  else (b.setVif v { x with purging := false, due := [] }).vmEnd v vmOk

/-- PURGE_END. -/
def execPurgeEnd (s : State) : Host.Outcome State Fault Refusal := .next { s with blk := effPurgeEnd s.blk }

/-- The reset of a marked ring at quiescence: its window closes without a flush (R263). -/
def Block.resetMarked (b : Block) (r : RingNo) : Block :=
  ({ b with car := { b.car with windows := b.car.windows.erase r.toNat } }).resetRing r

/-- QUIESCENCE on the block (R257, R262, R263). -/
def effQuiescence (b0 : Block) (v : VifNo) : Block :=
  let n := v.toNat
  let b := b0.logsTaken fun m => b0.oldTag n m.tag
  let x := b.vifOf n
  if !(x.state == .resetting || x.state == .releasing) || x.purging || b.oldOps n != 0 then b0
  else
    let b := x.marked.foldl Block.resetMarked b
    let b := b.setVif n { x with done := true, marked := [], state := if x.state == .resetting then .active else x.state }
    let b := (b.vifCause n 1).flag pgVMGR 3
    if x.state == .releasing then b.setVif n { gen := x.gen, ciErr := x.ciErr } else b

/-- QUIESCENCE. -/
def execQuiescence (v : VifNo) (s : State) : Host.Outcome State Fault Refusal := .next { s with blk := effQuiescence s.blk v }

/-! ### Drain, harvest, channels (R265, R268, R270) -/

/-- A ring of a drain has been published up to its flush, or its target is gone. -/
def Block.drainDone (b : Block) (d : RingNo × Word) : Bool :=
  let g := b.ringOf d.1
  decide ((g.pub - d.2).toNat < 2 ^ 31) || !(g.tgtPend || b.indexBusy d.1)

/-- DRAIN at its grant: every operation of the VIF is marked, and inserts that are for its contexts or may be (R265). -/
def Block.startDrain (b : Block) (v : Nat) : Block :=
  let o := ownerCode v
  let rs := (b.ringsOf v).filter fun r => (b.car.windows.find? r.toNat).isSome
  let b := (b.markOps v fun t => { t with drain := true }).mapIns fun i =>
    if b.mayBe o i then { i with drain := o :: i.drain.erase o } else i
  let b := rs.foldl (fun b r => b.closeWindow r flushExp) b
  b.setVif v { b.vifOf v with draining := true, drainRings := rs.map fun r => (r, (b.ringOf r).pi) }

/-- Something that a drain has marked has not reached a tracker yet, or waits for one: an insert, a record on its way to its writer, a
frame in a lane, a write for a context. -/
def Block.drainWaits (b : Block) (v : Nat) : Bool :=
  let o := ownerCode v
  let mine (t : Tag) : Bool := t.owner == o && t.drain
  let lane (l : List LaneFrame) : Bool := l.any fun f => mine f.tag
  (b.insAll.any fun i => i.drain.contains o && b.mayBe o i) ||
    (b.eng.cells.any fun e => (e.2.recq.cells.any fun q => q.2.any fun r => mine r.tag) ||
      e.2.lanes.cells.any fun l => lane l.2.vc0 || lane l.2.pin || lane l.2.vc1) ||
    (b.wr.cells.any fun w => w.2.recs.any (fun x => mine x.tag) || w.2.wbq.any (fun q => mine q.tag) || w.2.ready.any fun q => mine q.m.tag) ||
    (b.loads.cells.any fun l => mine l.2.tag)

/-- DRAINED on the block. -/
def effDrained (b0 : Block) (v : VifNo) : Block :=
  let n := v.toNat
  let mine (t : Tag) : Bool := t.owner == ownerCode n && t.drain
  let b := b0.logsTaken fun m => mine m.tag
  let x := b.vifOf n
  if !x.draining || b.countOps mine (fun _ => false) != 0 || b.drainWaits n || b.logWaits (fun _ t => mine t) || !x.drainRings.all b.drainDone
  then b0
  else (b.setVif n { x with draining := false, drainRings := [] }).vifCause n 2

/-- DRAINED. -/
def execDrained (v : VifNo) (s : State) : Host.Outcome State Fault Refusal := .next { s with blk := effDrained s.blk v }

/-- HARVEST at its grant: SNAP takes PI, the channel's filter entries stop suppressing. -/
def Block.startHarvest (b : Block) (v : Nat) : Block :=
  let ch := (b.vifOf v).dlCh.toNat
  let d := b.dlCh ch
  let b := b.setDlCh ch { d with snap := d.pi, harvest := true }
  let b := b.markGranted v
  { b with vm := { b.vm with filter := keepIn b.vm.filter fun k => k.1 != BitVec.ofNat 12 v } }

/-- SNAP on the block: every write granted before H and every log entry below SNAP has been accepted. -/
def effSnap (b0 : Block) (ch : BitVec 6) : Block :=
  let d := b0.dlCh ch.toNat
  let v := d.vif.toNat
  let mine (t : Tag) : Bool := t.owner == ownerCode v && t.harv
  let b := b0.logsTaken fun m => mine m.tag
  let out := b.wr.cells.any fun w => w.2.out.any fun m => mine m.tag
  if !d.harvest || out || b.idxFly.cells.any (fun m => mine m.2.tag) || b.logWaits (fun _ t => mine t) then b0
  else (b.setDlCh ch.toNat { d with harvest := false }).vifCause v 3

/-- SNAP. -/
def execSnap (ch : BitVec 6) (s : State) : Host.Outcome State Fault Refusal := .next { s with blk := effSnap s.blk ch }

/-- DL_CHANNEL_FREE on the block. -/
def effDlChannelFree (b : Block) (ch : BitVec 6) : Block :=
  let d := b.dlCh ch.toNat
  if !d.stopping || b.logWaits (fun c _ => c == ch) then b
  else (b.logsTaken fun m => m.kind == .log ch).setDlCh ch.toNat { d with stopping := false, inUse := false }

/-- DL_CHANNEL_FREE. -/
def execDlChannelFree (ch : BitVec 6) (s : State) : Host.Outcome State Fault Refusal :=
  .next { s with blk := effDlChannelFree s.blk ch }

/-- A write of VMGR_DL_CI (R271). -/
def Block.writeDlCi (b : Block) (ch : Nat) (x : Word) : Block :=
  let d := b.dlCh ch
  if (d.pi - d.ci).toNat < (x - d.ci).toNat then b.flag pgVMGR 6 else b.setDlCh ch { d with ci := x }

/-! ### Commands (Table 9-4) -/

/-- The lowest-numbered FREE VIF. -/
def Block.freeVif (b : Block) : Option Nat := (List.range 4096).find? fun v => (b.vifOf v).state == .free

/-- CREATE. -/
def Block.vifCreate (b : Block) (v : Nat) (any : Bool) : Block :=
  match b.freeVif with
  | none => b.vmEnd v vmNoVif
  | some f =>
    let v := if any then f else v
    if (b.vifOf v).state != .free then b.vmEnd v vmInUse
    else (b.setVif v { state := .active, gen := (b.vifOf v).gen + 1, done := (b.vifOf v).done }).vmEnd v vmOk

/-- RESET and DESTROY. -/
def Block.vifEnd (b : Block) (v : Nat) (st : VifState) : Block :=
  match (b.vifOf v).state with
  | .resetting | .releasing => b.vmEnd v vmBusy
  | .free => b.vmEnd v vmNotActive
  | .active => { (b.vifPurge v st) with vm := { (b.vifPurge v st).vm with busy := true, vif := BitVec.ofNat 12 v } }

/-- A VIF whose configuration can be set. -/
def Block.vifSet (b : Block) (v : Nat) : Bool := (b.vifOf v).state == .active || (b.vifOf v).state == .resetting

/-- SET_CTX. -/
def Block.setCtxRange (b : Block) (v : Nat) (a0 a1 : Word) : Block :=
  let base := (fld a0 15 0).toNat
  let n := (fld a1 12 0).toNat
  if !b.vifSet v then b.vmEnd v vmNotActive
  else if 4096 < n || 65536 < base + n then b.vmEnd v vmBadArg
  else (b.setVif v { b.vifOf v with ctxBase := fld a0 15 0, ctxCount := fld a1 12 0 }).vmEnd v vmOk

/-- SET_RING. -/
def Block.setRingRange (b : Block) (v : Nat) (a0 a1 : Word) : Block :=
  let base := (fld a0 13 0).toNat
  let n := (fld a1 4 0).toNat
  if !b.vifSet v then b.vmEnd v vmNotActive
  else if 16 < n || 16384 < base + n then b.vmEnd v vmBadArg
  else if (List.range n).any fun j => (b.ringCfg (BitVec.ofNat 14 (base + j))).owner != ownerCode v then b.vmEnd v vmOwner
  else (b.setVif v { b.vifOf v with ringBase := fld a0 13 0, ringCount := fld a1 4 0 }).vmEnd v vmOk

/-- SET_NOTIFY. -/
def Block.setNotifyTarget (b : Block) (v : Nat) (a0 a1 : Word) : Block :=
  if !b.vifSet v then b.vmEnd v vmNotActive
  else (b.setVif v { b.vifOf v with noteCtx := fld a0 15 0, notePrio := fld a1 5 0, noteEn := bit a1 8 }).vmEnd v vmOk

/-- DIRTY_START. -/
def Block.dirtyStart (b : Block) (v : Nat) (a0 : Word) : Block :=
  let ch := (fld a0 5 0).toNat
  let x := b.vifOf v
  let d := b.dlCh ch
  if x.state != .active then b.vmEnd v vmNotActive
  else if x.dlEn then b.vmEnd v vmAlready
  else if d.inUse then b.vmEnd v vmChBusy
  else
    let d : DlCh := { d with inUse := true, vif := BitVec.ofNat 12 v, seg := fld d.cfg 5 0, order := fld d.cfg 12 8,
                             base := (fld d.baseHi 15 0) ++ (fld d.baseLo 31 12) ++ (0 : BitVec 12), thresh := fld d.threshReg 20 0,
                             pi := 0, ci := 0, snap := 0, ovf := false, harvest := false, stopping := false }
    let b := { b with vm := { b.vm with filter := keepIn b.vm.filter fun k => k.1 != BitVec.ofNat 12 v } }
    ((b.setDlCh ch d).setVif v { x with dlEn := true, dlCh := fld a0 5 0 }).vmEnd v vmOk

/-- RING_IDX. -/
def Block.ringIdx (b : Block) (v : Nat) (a0 pi ci : Word) : Block :=
  let x := b.vifOf v
  let j := (fld a0 3 0).toNat
  let r := x.ringBase + BitVec.ofNat 14 j
  let c := b.ringCfg r
  if x.state != .active then b.vmEnd v vmNotActive
  else if x.ringCount.toNat ≤ j || c.owner != ownerCode v then b.vmEnd v vmOwner
  else if c.entries < (pi - ci).toNat then b.vmEnd v vmBadArg
  else if !(b.staged r).isEmpty || (b.car.windows.find? r.toNat).isSome || (b.ringOf r).faulted then b.vmEnd v vmBusy
  else
    let w := ringWriter r
    let b := b.setWriter w { b.writer w with idxWait := (b.writer w).idxWait.filter (·.ring != r) }
    (b.setRing r { b.ringOf r with pi, pub := pi, ci, tgtPend := false, tgtDelta := 0 }).vmEnd v vmOk

/-- A write of VMGR_CMD (R259). -/
def Block.vmgrCmd (b : Block) (op : Nat) : Block :=
  if b.vm.busy then b.flag pgVMGR 2
  else
    let t := b.reg pgVMGR 0x040
    let v := (fld t 11 0).toNat
    let a0 := b.reg pgVMGR 0x044
    let a1 := b.reg pgVMGR 0x048
    let a2 := b.reg pgVMGR 0x04C
    let x := b.vifOf v
    match op with
    | 1 => b.vifCreate v (bit t 12)
    | 2 => b.vifEnd v .resetting
    | 3 => b.vifEnd v .releasing
    | 4 => b.setCtxRange v a0 a1
    | 5 => b.setRingRange v a0 a1
    | 6 => b.setNotifyTarget v a0 a1
    | 7 => b.dirtyStart v a0
    | 8 =>
      if x.state != .active then b.vmEnd v vmNotActive
      else if !x.dlEn then b.vmEnd v vmNoLog
      else (b.stopLog v).vmEnd v vmOk
    | 9 =>
      if x.state != .active then b.vmEnd v vmNotActive
      else if !x.dlEn then b.vmEnd v vmNoLog
      else if (b.dlCh x.dlCh.toNat).harvest then b.vmEnd v vmBusy
      else (b.startHarvest v).vmEnd v vmOk
    | 10 =>
      if x.state != .active then b.vmEnd v vmNotActive
      else if x.draining then b.vmEnd v vmBusy
      else (b.startDrain v).vmEnd v vmOk
    | 11 => b.ringIdx v a0 a1 a2
    | _ => b.vmEnd v vmBadop

/-! ### The VIF page (R267) -/

/-- The ring of slot j of a VIF page, if the slot is usable. -/
def Block.slotRing (b : Block) (v j : Nat) : Option RingNo :=
  let x := b.vifOf v
  let r := x.ringBase + BitVec.ofNat 14 j
  if j < x.ringCount.toNat ∧ (b.ringCfg r).owner = ownerCode v then some r else none

/-- A write of VIF_RING_CI of slot j. -/
def Block.vifCi (b : Block) (v j : Nat) (d : Word) : Block :=
  let refused (b : Block) : Block := b.setVif v { b.vifOf v with ciErr := satAdd (b.vifOf v).ciErr 1 }
  match b.slotRing v j with
  | some r =>
    let (b, bad) := b.writeCi r d
    if bad then refused b else b
  | none => refused ((b.cnt pgERW 0x08C).flag pgERW 3)

/-- A write of VIF_HVDB. -/
def Block.hvdb (b : Block) (v : Nat) (d : Word) : Block :=
  (b.setVif v { b.vifOf v with msg := fld d 15 0 }).vifCause v 0

/-- A write of a VIF page register by offset; a VIF that is not ACTIVE ignores it. -/
def Block.vifPageWrite (b : Block) (v off : Nat) (d : Word) : Block :=
  if (b.vifOf v).state != .active then b
  else if off = 0x00C then b.hvdb v d
  else if 0x100 ≤ off ∧ off < 0x200 ∧ off % 16 = 0 then b.vifCi v ((off - 0x100) / 16) d
  else b

/-- VIF_CTXR and VIF_RINGR. -/
def Vif.ctxr (x : Vif) : Word := x.ctxBase.setWidth 32 ||| at' x.ctxCount 16
def Vif.ringr (x : Vif) : Word := x.ringBase.setWidth 32 ||| at' x.ringCount 16

/-- The code of a state (Table 9-2). -/
def VifState.code : VifState → BitVec 2
  | .free => 0
  | .active => 1
  | .resetting => 2
  | .releasing => 3

/-- A read of a VIF page register. -/
def Block.vifPageRead (b : Block) (v off : Nat) : Word :=
  let x := b.vifOf v
  if off = 0 then BitVec.ofNat 32 v ||| at' x.gen 12 ||| at' x.state.code 24
  else if x.state != .active then 0
  else if off = 4 then x.ctxr
  else if off = 8 then x.ringr
  else if off = 0x10 then x.ciErr.setWidth 32
  else if 0x100 ≤ off ∧ off < 0x200 then
    let j := (off - 0x100) / 16
    let r := x.ringBase + BitVec.ofNat 14 j
    let g := b.ringOf r
    let usable := (b.slotRing v j).isSome
    if off % 16 = 0xC then
      (b.ringCfg r).order.setWidth 32 ||| flagAt g.faulted 5 ||| flagAt g.ovfEp 6 ||| flagAt usable 7
    else if !usable then 0
    else if off % 16 = 0 then g.ci else if off % 16 = 4 then g.pub else if off % 16 = 8 then g.ovf else 0
  else 0

end Sys2Proof.Machine
end

