-- ==== Sys2Proof/Machine/LastImg.lean ====
section
/-! DEFINITION. The Last (chapter 4): the checks of an image, its copy into a bank, the image state machine, the basic build
and the switch. -/

namespace Sys2Proof.Machine

/-! ### An image's bytes (R113 to R116) -/

/-- The bytes of an image by offset. -/
abbrev Img := Nat → Byte

/-- Bytes as a read lists them; an offset that is not listed reads 0. -/
def imgOf (l : List (Nat × Byte)) : Img := fun i => (Map.look l i).getD 0

/-- `n` bytes from an offset. -/
def Img.bytes (g : Img) (off n : Nat) : List Byte := (List.range n).map fun i => g (off + i)

/-- A little-endian number of `n` bytes. -/
def Img.num (g : Img) (off n : Nat) : Nat := leNat (g.bytes off n)

/-- TOTAL_LEN and DIR_COUNT (Table 4-1). -/
def Img.total (g : Img) : Nat := g.num 0x10 8
def Img.dirCount (g : Img) : Nat := g.num 0x18 1 % 16
def Img.inst (g : Img) : BitVec 16 := BitVec.ofNat 16 (g.num 0x20 2)
def Img.srcOrder (g : Img) : Nat := g.num 0x28 1 % 32

/-- A directory entry: ID, LEN, OFFSET (R116). -/
structure DirEnt where
  id : Nat
  len : Nat
  off : Nat
  deriving DecidableEq, Repr

/-- The section directory. -/
def Img.dir (g : Img) : List DirEnt :=
  (List.range g.dirCount).map fun i =>
    { id := g.num (0x40 + 16 * i) 1, len := g.num (0x44 + 16 * i) 4, off := g.num (0x48 + 16 * i) 8 }

/-- The offset of a section. -/
def Img.sect (g : Img) (id : Nat) : Nat := ((g.dir.find? (·.id == id)).map DirEnt.off).getD 0

/-- Section lengths (Table 4-2); SIG has any multiple of 64. -/
def sectLen (g : Img) (d : DirEnt) : Bool :=
  match d.id with
  | 1 => d.len == 64 * 2 ^ g.srcOrder
  | 2 => d.len == 16777216
  | 3 => d.len == 131072
  | 4 => d.len == 262144
  | 5 => d.len == 16384
  | 6 => d.len == 576
  | 7 => d.len == 262144
  | _ => d.len % 64 == 0

/-- Two ranges of bytes share none. -/
def apart (a m c n : Nat) : Bool := decide (a + m ≤ c) || decide (c + n ≤ a) || m == 0 || n == 0

/-- No two sections overlap. -/
def sectsApart : List DirEnt → Bool
  | [] => true
  | d :: r => (r.all fun e => apart d.off d.len e.off e.len) && sectsApart r

/-- A failed check: REASON, LAST_ERR_OFF (none where the spec names no line), LAST_ERR_ARG. -/
structure ImgErr where
  reason : BitVec 5
  off : Option Nat := none
  arg : BitVec 16 := 0xFFFF
  deriving DecidableEq, Repr

/-- The first directory entry with an ID outside 1 to 8, or one that an earlier entry has (R116). -/
def badId (ids : List Nat) : Option Nat :=
  (List.range ids.length).find? fun i =>
    let d := ids.getD i 0
    d == 0 || decide (8 < d) || (ids.take i).contains d

/-- A directory entry whose section is misaligned, has a length other than Table 4-2, ends after TOTAL_LEN, or overlaps the
header or the directory (R113, reason 6). -/
def Img.badSect (g : Img) (d : DirEnt) : Bool :=
  d.off % 64 != 0 || !sectLen g d || decide (g.total < d.off + d.len) || !apart 0 (64 + 16 * g.dirCount) d.off d.len

/-- The image line of directory entry i. -/
def dirLine (i : Nat) : Nat := (0x40 + 16 * i) / 64

/-- Checks 1 to 4 (Table 4-9), on line 0. -/
def Img.headErr (g : Img) (inst : BitVec 16) : Option ImgErr :=
  let n := g.dirCount
  let low := (64 + 16 * n + 63) / 64 * 64
  if g.num 0 4 ≠ 0x5453414C ∨ g.num 4 2 ≠ 1 ∨ g.num 0xC 1 % 2 = 1 ∨ g.total % 64 ≠ 0 ∨ 2 ^ 32 < g.total ∨ g.total < low ∨
      (n ≠ 7 ∧ n ≠ 8) then some { reason := 1, off := some 0 }
  else if g.inst ≠ inst then some { reason := 2, off := some 0 }
  else if 36864 < g.num 0x24 2 then some { reason := 3, off := some 0 }
  else if g.srcOrder < 8 ∨ 24 < g.srcOrder then some { reason := 4, off := some 0 }
  else none

/-- Checks 5 and 6, on the directory. The failing item is the first directory entry that fails by itself; an ID that is missing and two
sections that overlap name no one entry (DEDUCED, log 42). -/
def Img.dirErr (g : Img) : Option ImgErr :=
  let ids := g.dir.map DirEnt.id
  match badId ids with
  | some i => some { reason := 5, off := some (dirLine i) }
  | none =>
    if !((List.range 7).all fun i => ids.contains (i + 1)) then some { reason := 5 }
    else match g.dir.findIdx? g.badSect with
      | some i => some { reason := 6, off := some (dirLine i) }
      | none => if sectsApart g.dir then none else some { reason := 6 }

/-! ### Field checks (reasons 7 to 13) -/

/-- Class k of an image. -/
def Img.rte (g : Img) (k : Nat) : Rte := rteOf (leBits 256 (g.bytes (g.sect 3 + 32 * k) 32))

/-- Compiled fields of ring r. -/
def Img.ring (g : Img) (r : Nat) : RingCfg := ringCfgOf (leBits 128 (g.bytes (g.sect 7 + 16 * r) 16))

/-- COUNT of MCS set s. -/
def Img.setCount (g : Img) (s : Nat) : Nat := (g (g.sect 4 + 256 * s)).toNat % 128

/-- SLOT entry. -/
def Img.slot (g : Img) (k j : Nat) : Byte := g (g.sect 5 + 64 * k + j)

/-- INR entry i: group entries 0 to 255, then member entries (log 43). -/
def Img.inr (g : Img) (i : Nat) : InrEnt := inrOf (g (g.sect 6 + 0x40 + i))

/-- A field check of one entry: the image offset at which it stands, and its failure. -/
def Img.rteErr (g : Img) (k : Nat) : Option (Nat × ImgErr) :=
  let r := g.rte k
  let at_ := g.sect 3 + 32 * k
  let e (n : BitVec 5) : Option (Nat × ImgErr) := some (at_, { reason := n, off := some (at_ / 64), arg := BitVec.ofNat 16 k })
  if 4 < r.kind.toNat || r.dclass == 3 || (r.kind == 4 && (r.inst == g.inst || !hasState r.revent)) then e 7
  else if k = 0 && (r.kind != 0 || r.ringValid) then e 8
  else none

def Img.mcsErr (g : Img) (s : Nat) : Option (Nat × ImgErr) :=
  let at_ := g.sect 4 + 256 * s
  if 64 < g.setCount s then some (at_, { reason := 9, off := some (at_ / 64), arg := BitVec.ofNat 16 s }) else none

def Img.ringErr (g : Img) (r : Nat) : Option (Nat × ImgErr) :=
  let at_ := g.sect 7 + 16 * r
  let o := (g.ring r).order.toNat
  if o ≠ 0 ∧ (o < 4 ∨ 20 < o) then some (at_, { reason := 10, off := some (at_ / 64), arg := BitVec.ofNat 16 r }) else none

def Img.inrErr (g : Img) (i : Nat) : Option (Nat × ImgErr) :=
  let at_ := g.sect 6 + 0x40 + i
  let x := g.inr i
  let h := g (g.sect 6)
  let own := if i < 256 then i == (fld g.inst 15 8).toNat else i - 256 == (fld g.inst 7 0).toNat
  let e (n : BitVec 5) : Option (Nat × ImgErr) := some (at_, { reason := n, off := some (at_ / 64), arg := BitVec.ofNat 16 i })
  if !x.valid then none
  else if !bit h x.port.toNat then e 11
  else if own then e 12
  else if x.below != bit h (4 + x.port.toNat) then e 13
  else none

/-- The failure that stands first in the image. -/
def firstErr (l : List (Nat × ImgErr)) : Option (Nat × ImgErr) :=
  l.foldl (fun best e => match best with
    | none => some e
    | some x => if e.1 < x.1 then some e else some x) none

/-- The first field failure in address order (R132). -/
def Img.fieldErr (g : Img) : Option (Nat × ImgErr) :=
  firstErr ((List.range 4096).filterMap g.rteErr ++ (List.range 1024).filterMap g.mcsErr ++
    (List.range 16384).filterMap g.ringErr ++ (List.range 512).filterMap g.inrErr)

/-! ### Cross-checks (reasons 14 to 18) and the CRC -/

/-- A class that fails a cross-check. -/
def Img.clsErr (g : Img) (n : BitVec 5) (k : Nat) : ImgErr :=
  { reason := n, off := some ((g.sect 3 + 32 * k) / 64), arg := BitVec.ofNat 16 k }

/-- The coalescing fields of a class are those of another. -/
def sameCoal (r s : Rte) : Bool :=
  r.coalWindow == s.coalWindow && r.coalCount == s.coalCount && r.bypPrio == s.bypPrio && r.bypEn == s.bypEn

/-- Ring r fails reason 17. -/
def Img.coalBad (g : Img) (r : Nat) : Bool :=
  let who := (List.range 4096).filter fun k => (g.rte k).ringValid && (g.rte k).ring.toNat == r
  let c := g.ring r
  (match who with
    | [] => false
    | k :: rest => rest.any fun j => !sameCoal (g.rte k) (g.rte j)) ||
  (c.order != 0 && !who.contains c.link.toNat)

/-- Whether a REMOTE class resolves to an invalid INR entry (R124). -/
def Img.inrBad (g : Img) (d : BitVec 16) : Bool :=
  let i := if fld d 15 8 = fld g.inst 15 8 then 256 + (fld d 7 0).toNat else (fld d 15 8).toNat
  !(g.inr i).valid

/-- The cross-checks in their order. -/
def Img.crossErr (g : Img) : Option ImgErr :=
  let cls (n : BitVec 5) (p : Rte → Bool) : Option ImgErr :=
    ((List.range 4096).find? fun k => p (g.rte k)).map (g.clsErr n)
  (cls 14 fun r => r.kind == 2 && g.setCount r.set.toNat == 0).orElse fun _ =>
  (cls 15 fun r => r.kind == 3 && (List.range 64).any fun j => g.slot r.group.toNat j == 0xFF).orElse fun _ =>
  (cls 16 fun r => r.ringValid && (g.ring r.ring.toNat).order == 0).orElse fun _ =>
  (((List.range 16384).find? g.coalBad).map fun r =>
    ({ reason := 17, off := some ((g.sect 7 + 16 * r) / 64), arg := BitVec.ofNat 16 r } : ImgErr)).orElse fun _ =>
  cls 18 fun r => r.kind == 4 && g.inrBad r.inst

/-- CRC-32C of the whole image with its CRC field taken as 0 (Table 4-1). -/
def Img.crc (g : Img) : Word := crc32c ((List.range g.total).map fun i => if 0x1C ≤ i ∧ i < 0x20 then 0 else g i)

/-- The first check that fails as the bytes arrive, with the line whose arrival shows it: the header's, the directory's last, the
entry's (R132). -/
def Img.early (g : Img) (inst : BitVec 16) : Option (Nat × ImgErr) :=
  ((g.headErr inst).map fun e => (0, e)).orElse fun _ => (g.dirErr.map fun e => (dirLine (g.dirCount - 1), e)).orElse fun _ =>
    g.fieldErr.map fun p => (p.1 / 64, p.2)

/-- The lines of pass 1: the image's, or those up to the first failure (R132). -/
def Img.lines1 (g : Img) (inst : BitVec 16) : Nat :=
  match g.early inst with
  | some (l, _) => l + 1
  | none => g.total / 64

/-- The check of pass 1 that fails, where its lines have been read up to `stop`, the line whose read failed. -/
def Img.check (g : Img) (inst : BitVec 16) (stop : Option Nat) : Option ImgErr :=
  match stop with
  | some s => some { reason := 20, off := some s }
  | none => ((g.early inst).map Prod.snd).orElse fun _ => g.crossErr.orElse fun _ =>
      if (BitVec.ofNat 32 (g.num 0x1C 4) : Word) = g.crc then none else some { reason := 19 }

/-! ### The copy (R117, R127) -/

/-- The on-die sections in address order: offset and length. -/
def Img.onDie (g : Img) : List (Nat × Nat) :=
  ([(g.sect 3, 131072), (g.sect 5, 16384), (g.sect 6, 576), (g.sect 7, 262144)]).mergeSort fun a c => decide (a.1 ≤ c.1)

/-- The partial CRC: over the bytes of the on-die sections. -/
def Img.partCrc (g h : Img) : Word := crc32c (g.onDie.flatMap fun s => h.bytes s.1 s.2)

/-- The i-th line of pass 2: the lines of the on-die sections, in address order (R127). -/
def lineOf2 : List (Nat × Nat) → Nat → Nat
  | [], _ => 0
  | (off, len) :: r, i => if i < len / 64 then off / 64 + i else lineOf2 r (i - len / 64)

/-- Lines from the i-th of pass 2 on that follow it in its section. -/
def runOf2 : List (Nat × Nat) → Nat → Nat
  | [], _ => 1
  | (_, len) :: r, i => if i < len / 64 then len / 64 - i else runOf2 r (i - len / 64)

/-- The lines of pass 2. -/
def Img.lines2 : Nat := 6409

/-- Values by number, those that an unlisted number holds left out. -/
def collect {α : Type} [DecidableEq α] (n : Nat) (d : α) (f : Nat → α) : Map α :=
  ⟨(List.range n).filterMap fun i => if f i = d then none else some (i, f i)⟩

/-- The bank that a copy makes: header and base pointers from pass 1, sections as pass 2 read them. -/
def Img.bank (g : Img) (a : SegAddr) (two : Img) : Bank :=
  let h (i : Nat) : Byte := two (g.sect 6 + i)
  let base (id : Nat) : SegAddr := { a with off := a.off + BitVec.ofNat 64 (g.sect id) }
  { basic := none, version := BitVec.ofNat 32 (g.num 8 4), inst := g.inst, pinCount := BitVec.ofNat 16 (g.num 0x24 2),
    srcOrder := BitVec.ofNat 5 g.srcOrder, srcBase := base 1, evaBase := base 2, mcsBase := base 4,
    rte := collect 4096 {} fun k => rteOf (leBits 256 (two.bytes (g.sect 3 + 32 * k) 32)),
    slot := collect 16384 0xFF fun i => two (g.sect 5 + i),
    inrGroup := collect 256 {} fun i => inrOf (h (0x40 + i)), inrMember := collect 256 {} fun i => inrOf (h (0x140 + i)),
    portEn := fld (h 0) 3 0, portDown := fld (h 0) 7 4,
    ring := collect 16384 {} fun r => ringCfgOf (leBits 128 (two.bytes (g.sect 7 + 16 * r) 16)) }

/-! ### The image state machine (R128) -/

/-- The inactive bank takes a content and a state; its VERSION register follows. -/
def Block.setInactive (b : Block) (k : Bank) (st : Inactive) : Block :=
  let l := b.last
  let r := { b.ras with badRings := b.ras.badRings.filter fun x => bit x 23 == l.active,
                        badClasses := b.ras.badClasses.filter fun x => bit x 23 == l.active }
  let b := { b with ras := r }
  if l.active then { b with last := { l with a := k, verA := k.version, inactive := st } }
  else { b with last := { l with b := k, verB := k.version, inactive := st } }

/-- The inactive bank. -/
def Block.other (b : Block) : Bank := if b.last.active then b.last.a else b.last.b

/-- A bank is written: its VERIFIED bit clears (R384). -/
def Block.unverify (b : Block) : Block :=
  { b with rm := if b.last.active then { b.rm with verA := false } else { b.rm with verB := false } }

/-- A load or a build ends in failure (Table 4-8): reads in flight are answered to nobody. -/
def Block.loadErr (b : Block) (e : ImgErr) : Block :=
  let ver := BitVec.ofNat 32 ((imgOf b.last.load.pass1).num 8 4)
  let errOff := match e.off with
    | some l => BitVec.ofNat 32 l
    | none => Config.errOffOpen e.reason ver
  let b := match b.last.load.phase with
    | some ph => b.orphan .loader ph {}
    | none => b
  let l := { b.last with activity := .idle, reason := e.reason, errOff, errArg := e.arg, load := { addr := b.last.load.addr, rm := b.last.load.rm } }
  { b with last := l, xl := { b.xl with
      waitq := b.xl.waitq.filter fun q : XReq => q.cont != Cont.loader
      walkers := b.xl.walkers.mapVals fun _ w => { w with waiting := w.waiting.map fun q : XReq =>
        if q.cont = Cont.loader then { q with cont := .stale } else q } } }.flag pgLAST 1

/-- The Ringmaster builds nothing while it restarts, and in recovery only the image of R143 (Table 14-1, R383). -/
def Block.rmBusy (b : Block) : Bool := !b.rm.ready || b.rm.recovery

/-- The refusal of a command: BADOP, LEVEL, BUSY, PENDING, then the state (R128). Between cycles B and S the switch counts
as done for ABORT and as pending for the rest. -/
def Block.lastRefusal (b : Block) (op : Nat) : Option (BitVec 3) :=
  let l := b.last
  let expert := (b.hdr pgLAST).level
  let loading := l.activity == .pass1 || l.activity == .pass2
  let pend := l.activity == .commitPend || l.activity == .rollbackPend
  if op = 0 ∨ 5 < op then some 7
  else if (op = 1 && !expert) || (op = 5 && expert) then some 5
  else if (op != 4 && loading) || (op = 5 && b.rmBusy) then some 1
  else if op != 4 && pend then some 2
  else if op = 2 && l.inactive != .staged then some 3
  else if op = 3 && l.inactive != .previous then some 4
  else if op = 4 && (l.activity == .idle || l.paused) then some 6
  else none

/-- The BASIC registers as they stand (R140). -/
def Block.basicImg (b : Block) : BasicImg :=
  { ctl := b.reg pgLAST 0x100, msg := b.reg pgLAST 0x104, coal := b.reg pgLAST 0x108, ring0 := b.reg pgLAST 0x10C,
    ring0Lo := b.reg pgLAST 0x110, ring0Hi := b.reg pgLAST 0x114,
    lc := (List.range 16).map fun c => b.reg pgLAST (0x140 + 4 * c) }

/-- ABORT of a load, a build or a pending switch. -/
def Block.lastAbort (b : Block) : Block :=
  match b.last.activity with
  | .pass1 => b.loadErr { reason := 23 }
  | .pass2 => (b.setInactive {} .empty).loadErr { reason := 23 }
  | _ => { b with last := { b.last with activity := .idle } }

/-! #### The loader's reads (R127, R287) -/

/-- The image as pass 1 has read it; in pass 1 itself, as memory answers it. -/
def Block.loadImg (b : Block) : Img :=
  if b.last.activity = .pass1 then (match b.last.load.data with
    | some r => imgOf r.bytes
    | none => imgOf [])
  else imgOf b.last.load.pass1

/-- The image line that the pass reads i-th. -/
def Block.loadLine (b : Block) (i : Nat) : Nat := if b.last.activity = Activity.pass1 then i else lineOf2 b.loadImg.onDie i

/-- The lines that the pass reads in all; of pass 1, as far as its first line has shown that. -/
def Block.loadLines (b : Block) : Nat :=
  if b.last.activity = .pass1 then (if b.last.load.data.isSome then b.loadImg.lines1 b.inst else 1) else Img.lines2

/-- A line of the image could not be read: FAULT in pass 1, FAULT2 in pass 2. -/
def Block.loadStop (b : Block) (line : Nat) : Block :=
  if b.last.activity = .pass1 then b.loadErr { reason := 20, off := some line }
  else (b.setInactive {} .empty).loadErr { reason := 22, off := some line }

/-- Ask for the next lines of the pass: at most 32, of one page, each a read of its own; the read of a page's first line starts the walk
of the image's next page (R287). -/
def Block.loadNext (b : Block) : Block :=
  let l := b.last.load
  let line := b.loadLine l.pos
  let off := l.addr.off + BitVec.ofNat 64 (64 * line)
  let run := if b.last.activity = Activity.pass1 then b.loadLines - l.pos else runOf2 b.loadImg.onDie l.pos
  let window := min 32 (min run (64 - off.toNat / 64 % 64))
  let b := { b with last := { b.last with load := { l with window } } }
  let next := (off >>> 12 <<< 12) + 4096
  let more := line = 0 || decide ((next - l.addr.off).toNat < b.loadImg.total)
  let b := if (off.toNat % 4096 = 0 || line = 0) && more then prefetch b l.addr.seg next else b
  match startRead b window { seg := l.addr.seg, off, op := opLoad, cont := .loader } with
  | (b, .inl ph) => { b with last := { b.last with load := { b.last.load with phase := some ph } } }
  | (b, .inr _) => b.loadStop line

/-- A pass begins (R127): LAST_PROG clears. -/
def Block.loadPass (b : Block) (a : Activity) (l : Load) : Block :=
  ({ b with last := { b.last with activity := a, prog := 0, load := { l with pos := 0, phase := none, data := none } } }).loadNext

/-- The lines of a pass have all been read: pass 1 ends with its checks, pass 2 with the comparison of the CRCs and the copy. -/
def Block.loadEnd (b : Block) (r : ImgRead) : Block :=
  let l := b.last.load
  if b.last.activity = .pass1 then
    let g := imgOf r.bytes
    let b := { b with last := { b.last with load := { l with pass1 := r.bytes } } }
    match g.check b.inst none with
    | some e => b.loadErr e
    | none => ((b.setInactive {} .empty).unverify).loadPass .pass2 { l with pass1 := r.bytes, partCrc := g.partCrc g }
  else
    let g := imgOf l.pass1
    let two := imgOf r.bytes
    if g.partCrc two ≠ l.partCrc then (b.setInactive {} .empty).loadErr { reason := 21 }
    else
      let b := b.setInactive (g.bank l.addr two) .staged
      { b with last := { b.last with activity := .idle } }.flag pgLAST 0

/-- The line, of those asked for, that memory answers with an error. -/
def Block.badLine (b : Block) (r : ImgRead) : Option Nat :=
  r.stop.filter fun s => decide (b.loadLine b.last.load.pos ≤ s) && decide (s < b.loadLine b.last.load.pos + b.last.load.window)

/-- The lines asked for have been read: what follows is the next lines, the end of the pass, or its end at a line in error. -/
def Block.loadTaken (b0 : Block) (r : ImgRead) : Block :=
  let bad := b0.badLine r
  let l := b0.last.load
  let n := match bad with
    | some s => l.pos + (s - b0.loadLine l.pos)
    | none => l.pos + l.window
  let b := b0.freeLines l.window
  let b := { b with last := { b.last with prog := BitVec.ofNat 32 n, load := { b.last.load with pos := n, phase := none } } }
  match bad with
  | some s => b.loadStop s
  | none => if b.loadLines ≤ n then b.loadEnd r else b.loadNext

/-- The loader goes on with what memory answers (R127): lines that are issued are read, the next ones are asked for, and the pass ends
after its last line or at one that memory answered with an error. -/
def Block.loadRun (b : Block) : Nat → Block
  | 0 => b
  | fuel + 1 =>
    match b.last.load.data, b.last.load.phase with
    | some r, some ph => if ph.isIssued then Block.loadRun (b.loadTaken r) fuel else b
    | _, _ => b

/-- The lines that a pass may take, by what its first line says. -/
def readFuel (r : ImgRead) : Nat := (imgOf r.bytes).total / 64 + 8192

/-- LAST_CMD (R127, R128, R140); `rm`: issued by the Ringmaster (R384, R385). -/
def Block.lastCmd (b : Block) (op : Nat) (rm : Bool) : Block :=
  match b.lastRefusal op with
  | some e => { b with last := { b.last with cmdErr := e } }.flag pgLAST 3
  | none =>
    let l := b.last
    match op with
    | 1 =>
      let addr : SegAddr := { seg := fld (b.reg pgLAST 0x044) 5 0, off := b.reg pgLAST 0x04C ++ b.reg pgLAST 0x048 }
      let b := b.loadPass .pass1 { addr, rm }
      -- while the Ringmaster restarts a load in PASS1 ends with ABORTED (Table 14-1); in recovery too (log 89)
      if b.last.activity == .pass1 && !b.rm.onDuty then b.loadErr { reason := 23 } else b
    | 2 => { b with last := { l with activity := .commitPend } }
    | 3 => { b with last := { l with activity := .rollbackPend } }
    | 4 => b.lastAbort
    | _ =>
      let b := { b with last := { l with activity := .pass2, prog := 0, load := { build := true, rm } } }
      (b.setInactive { basic := some b.basicImg } .empty).unverify

/-- What memory answers to the reads of a pass reaches the loader. -/
def Block.loadData (b : Block) (r : ImgRead) : Block :=
  let l := b.last.load
  let r := l.data.getD r
  ({ b with last := { b.last with load := { l with data := some r } } }).loadRun (readFuel r)

/-- LOAD_PASS1_DONE on the block. -/
def effLoadPass1Done (b : Block) (r : ImgRead) : Block :=
  match b.orphanDone .loader with
  | some b => b
  | none => if b.last.activity != .pass1 || b.rmFrozen then b else b.loadData r

/-- LOAD_PASS1_DONE. -/
def execLoadPass1Done (img : ImgRead) (s : State) : Host.Outcome State Fault Refusal :=
  .next { s with blk := effLoadPass1Done s.blk img }

/-- LOAD_PASS2_DONE on the block. -/
def effLoadPass2Done (b : Block) (r : ImgRead) : Block :=
  match b.orphanDone .loader with
  | some b => b
  | none => if b.last.activity != .pass2 || b.last.load.build then b else b.loadData r

/-- LOAD_PASS2_DONE. -/
def execLoadPass2Done (img : ImgRead) (s : State) : Host.Outcome State Fault Refusal :=
  .next { s with blk := effLoadPass2Done s.blk img }

/-! ### The end of a BUILD (R140, R141) -/

/-- The threads a basic image names. -/
def Block.basicThreads (b : Block) (m : BasicImg) : List Nat :=
  let msg := if bit m.ctl 1 then [(fld m.msg 10 0).toNat % b.threads] else []
  let wired := if bit m.ctl 0 then
      (List.range 16).flatMap fun c => (List.range 128).map fun i => basicThread m b.threads c i
    else []
  (msg ++ wired).eraseDups

/-- An eviction for a context of a build is under way. -/
def Block.evictsFor (b : Block) (c : CtxNo) : Bool := b.leave.cells.any fun p => p.2.why == .evict c

/-- One context of a build, as it stands (R141): seated, made resident in a free slot, or left out where there is none; an eviction may
have to free the slot first. -/
def Block.buildCtx (b : Block) (t : Nat) : Block :=
  let c : CtxNo := BitVec.ofNat 16 t
  let n := ctxBank c
  let seat (b : Block) : Block := if b.seatTaken (2 * t) then b else b.enterSeat c (2 * t)
  match b.rec? c with
  | some x => if x.seat.isSome then b else seat b
  | none =>
    match b.freeSlot n with
    | some k => seat ((b.setRec c { slot := BitVec.ofNat 12 k, basic := true, dirty := true }).unfilter c)
    | none =>
      if !b.tableOn c || b.evictsFor c then b
      else match b.victim n with
        | some v => (b.leaves v (.evict c)).kickCtx v
        | none => b

/-- BUILD_DONE on the block; the Ringmaster waits for a busy context, and for the slots that its evictions free. -/
def effBuildDone (b : Block) : Block :=
  match b.other.basic with
  | some m =>
    let ts := b.basicThreads m
    if b.last.activity != .pass2 || !b.last.load.build || b.rmBusy || b.rmFrozen || (ts.any fun t => b.ctxBusy (BitVec.ofNat 16 t)) then b
    else
      let b := ts.foldl Block.buildCtx b
      if ts.any fun t => (b.rec? (BitVec.ofNat 16 t)).isNone && b.tableOn (BitVec.ofNat 16 t) &&
          (b.evictsFor (BitVec.ofNat 16 t) || (b.freeSlot (ctxBank (BitVec.ofNat 16 t))).isSome) then b
      else { b with last := { b.last with activity := .commitPend, inactive := .staged, load := {} } }.flag pgLAST 0
  | none => b

/-- BUILD_DONE. -/
def execBuildDone (s : State) : Host.Outcome State Fault Refusal := .next { s with blk := effBuildDone s.blk }

/-! ### The switch (R129 to R131) -/

/-- The rings whose fields differ between the banks, with their old fields. -/
def Block.changedRings (b : Block) : Map RingCfg :=
  let old := b.act
  let new := b.other
  let keys := ((0 :: (old.ring.cells.map Prod.fst ++ new.ring.cells.map Prod.fst)).mergeSort (· ≤ ·)).eraseDups
  let fields (c : RingCfg) : RingCfg := { c with link := 0 }
  ⟨keys.filterMap fun r =>
    let o := old.ringAt (BitVec.ofNat 14 r)
    if fields o = fields (new.ringAt (BitVec.ofNat 14 r)) then none else some (r, o)⟩

/-- A station at cycle S: its cache empties; what has not been admitted is looked up again, a source's events in order; the
reads under way serve nothing (R129). -/
def Station.flip (s : Station) : Station :=
  let outs : List Resumed := s.outq.cells.flatMap fun q => q.2.map fun p => { item := p.1, attr := none, holds := false }
  let fresh (r : Resumed) : Resumed := { r with attr := none }
  let held : List Resumed := s.parked.map fun p => { item := p.item, attr := none, holds := true }
  let redo (r : Resumed) : Resumed :=
    if r.item.kind == .message then { r with item := { r.item with pevent := 0 } } else r
  let go := (outs ++ (s.resumedMsg ++ s.resumedWired).map fresh ++ held).map redo
  let byTok (a c : Resumed) : Bool := decide (a.item.tok ≤ c.item.tok)
  let dead (f : Fill) : Option Fill := match f.phase with
    | .issued _ _ _ => some { f with stale := true, dead := true }
    | _ => none
  { cacheEmpty s with
    resumedMsg := (go.filter (·.item.kind == .message)).mergeSort byTok, resumedWired := go.filter (·.item.kind != .message),
    parked := [], outq := .empty, fills := s.fills.filterMap dead, refreshes := s.refreshes.filterMap dead }

/-- Station reads that wait for a translation are not made. -/
def Block.dropStationReads (b : Block) : Block :=
  let hit (q : XReq) : Bool := match q.cont with
    | .fill _ _ | .refresh _ _ => true
    | _ => false
  let hitC : Cont → Bool
    | .fill _ _ | .refresh _ _ => true
    | _ => false
  { b with xl := { b.xl with
      waitq := b.xl.waitq.filter fun q => !hit q
      trkWait := b.xl.trkWait.filter fun c => !hitC c
      walkers := b.xl.walkers.mapVals fun _ w => { w with waiting := w.waiting.map fun q => if hit q then { q with cont := .prefetch } else q } } }

/-- BANK_FLIP on the block: cycle S. -/
def effBankFlip (b : Block) : Block :=
  if !b.last.paused || b.eng.cells.any (fun e => !e.2.inq.isEmpty) then b else
    let ch := b.changedRings
    let b := (List.range 8).foldl (fun b k => b.setStation k (b.station k).flip) b
    let b := b.dropStationReads
    let keep := ch.cells.foldl (fun (m : Map RingCfg) p => if (m.find? p.1).isSome then m else m.insert p.1 p.2) b.last.changed
    let l := { b.last with active := !b.last.active, inactive := .previous, activity := .idle, paused := false,
                           swGt := b.gt, refValid := false, changed := keep, settled := keep.cells.isEmpty }
    let b := { b with last := l }.raise pgLAST (if keep.cells.isEmpty then 0x84 else 0x04)
    -- a compiled entry of this bank that met an uncorrectable error faults its ring (Table 15-3)
    (b.ras.badRings.filter fun x => bit x 23 == b.last.active).foldl (fun b x => b.ringFault (fld x 13 0)) b

/-- BANK_FLIP. -/
def execBankFlip (s : State) : Host.Outcome State Fault Refusal := .next { s with blk := effBankFlip s.blk }

end Sys2Proof.Machine
end

