-- ==== Sys2Proof/Machine/Carousel.lean ====
section
/-! DEFINITION. The Carousel (chapter 6): slots, the period, the slot table, the wheel with its windows and timers, steps of
GT. What a processed boundary does as a whole is in the boundary file. -/

namespace Sys2Proof.Machine

/-- The slot number of the sampled GT (R184). -/
def Block.slotNow (b : Block) : Nat := slotOf b.car.cur b.gt.toNat

/-- The slot position of the last processed boundary (CAR_POS). -/
def Carousel.pos (c : Carousel) : Nat := c.n % 4096

/-! ### Steps (R177, R187) -/

/-- The first GT at or after `t` that is a multiple of 4,096 × `next`. -/
def takeGt (t next : Nat) : Nat := (t + 4096 * next - 1) / (4096 * next) * (4096 * next)

/-- A scheduled period is due (R186). A step forward over its multiple does not make it due: GT never has the values in between, and the
period is taken at the first multiple that GT reaches. The spec does not say this of a step (DESIGN CHOICE, log 84). -/
def Block.periodDue (b : Block) : Bool := b.car.pend && decide (b.car.takeAt.toNat ≤ b.gt.toNat)

/-- GT takes a value by a step: the boundary after it flushes every window, the revolution is incomplete. A scheduled period is taken at
the first of its multiples that GT now reaches (log 84); one that is due already stays due. -/
def Block.stepGt (b : Block) (ns : Gt) (frac : BitVec 48) : Block :=
  let next := (b.regFld pgCAR 0x040 12 0).toNat
  let takeAt : Gt := if b.periodDue then ns else BitVec.ofNat 64 (takeGt ns.toNat next)
  { b with tu := { b.tu with ns, frac },
           car := { b.car with stepped := true, incomplete := true, takeAt := if b.car.pend then takeAt else b.car.takeAt } }

/-! ### The wheel (R191) -/

/-- Change every window. -/
def Block.mapWindows (b : Block) (f : Window → Window) : Block :=
  { b with car := { b.car with windows := b.car.windows.mapVals fun _ w => f w } }

/-- A window is linked anew at slot `n` under a period. -/
def Window.relink (cur : BitVec 13) (n : Nat) (w : Window) : Window :=
  let key := keyOf cur w.deadline.toNat
  { w with key, far := decide (n + 4096 ≤ key) }

/-- Every timer that is on the wheel is linked anew. -/
def Block.relinkTimers (b : Block) : Block :=
  { b with ctx := b.ctx.mapVals fun _ x => if x.moving then x else b.linkTimer x }

/-- Every open window and armed timer takes the place it has now. -/
def Block.relinkAll (b : Block) : Block :=
  (b.mapWindows (Window.relink b.car.cur b.slotNow)).relinkTimers

/-- The far list is scanned at slot `n`. -/
def Block.scanFar (b : Block) (n : Nat) : Block :=
  let b := b.mapWindows fun w => if w.key < n + 4096 then { w with far := false } else w
  { b with ctx := b.ctx.mapVals fun _ x => match x.loc with
      | .far k => if k < n + 4096 then { x with loc := .bucket k } else x
      | _ => x }

/-- An item with a deadline at or below GT `t`, the start of a slot, is in its bucket and not handled. -/
def Block.wheelLate (b : Block) (t : Nat) : Bool :=
  (b.car.windows.cells.any fun p => decide (p.2.deadline.toNat ≤ t)) || b.ctx.cells.any fun p => match p.2.loc with
    | .bucket _ => decide (p.2.tdl.toNat ≤ t)
    | _ => false

/-- An overrun ends: CAR_MAXLAG takes its length (R191). -/
def Block.lagClose (b : Block) : Block :=
  match b.car.lagAt with
  | some (t, _) =>
    let len := min (b.clk.dclk - t) 0xFFFFFF
    let b := { b with car := { b.car with lagAt := none } }
    if (b.reg pgCAR 0x06C).toNat < len then b.setReg pgCAR 0x06C (BitVec.ofNat 32 len) else b
  | none => b

/-- The overrun ends when nothing of the bucket is left. -/
def Block.lagEnd (b : Block) : Block :=
  match b.car.lagAt with
  | some (_, t) => if b.wheelLate t then b else b.lagClose
  | none => b

/-- The next boundary comes while the bucket of the last one is not finished: LAG (R191). Items are told by their deadlines, since a
period that is taken changes the keys. -/
def Block.lagCheck (b : Block) : Block :=
  let t := b.car.n * b.car.cur.toNat
  if b.wheelLate t then
    let b := if b.car.lagAt.isNone then { b with car := { b.car with lagAt := some (b.clk.dclk, t) } } else b
    b.flag pgCAR 3
  else b

/-- WINDOW_EXPIRY on the block: a window whose key is reached closes with EXPIRY, if the arbiter of its writer's descriptor port picks
the Carousel, which presents the earliest (R191, R192, R194). -/
def effWindowExpiry (b : Block) (r : RingNo) : Block :=
  let w := ringWriter r
  if b.ringPick w = some 2 && b.dueWindow w == some r then
    (((b.closeWindow r flushExp).pmuEv 0x19 0).granted (.ringTable w) 2).lagEnd
  else b

/-- WINDOW_EXPIRY. -/
def execWindowExpiry (r : RingNo) (s : State) : Host.Outcome State Fault Refusal :=
  .next { s with blk := effWindowExpiry s.blk r }

/-- Every open window is flushed and counted as EXPIRY (R187, R192, R194). -/
def Block.flushWindows (b : Block) : Block :=
  b.car.windows.cells.foldl (fun b p => b.closeWindow (BitVec.ofNat 14 p.1) flushExp) b

/-! ### Timers (R195 to R197) -/

/-- Timers in the fine stage. -/
def Block.fineCount (b : Block) : Nat := b.ctx.countP fun _ x => x.loc == .fine

/-- TIMER_FINE_LOAD on the block: from its bucket, in the slot before its key, while a comparator is free. -/
def effTimerFineLoad (b : Block) (c : CtxNo) : Block :=
  match b.rec? c with
  | some x => match x.loc with
    | .bucket k =>
      if !b.dpOn || b.car.n + 1 < k || 256 ≤ b.fineCount then b
      else ((b.setRec c { x with loc := .fine }).pmuEv 0x19 0).lagEnd
    | _ => b
  | none => b

/-- TIMER_FINE_LOAD. -/
def execTimerFineLoad (c : CtxNo) (s : State) : Host.Outcome State Fault Refusal :=
  .next { s with blk := effTimerFineLoad s.blk c }

/-- A timer fires: TARM clears, the insert is asked for. -/
def Block.fireTimer (b : Block) (c : CtxNo) (x : Ctx) : Block :=
  let b := b.setRec c { x with tarm := false, loc := .none }
  (b.ask17 { ctx := c, entry := bankedEntry 0x00901 x.tprio (if x.tclass then 1 else 0) }).cnt pgCAR 0x060

/-- DCLK cycles in a number of nanoseconds. -/
def Block.dclkIn (b : Block) (ns : Nat) : Nat := ns * b.dclkMhz / 1000

/-- TIMER_FIRE on the block. -/
def effTimerFire (b : Block) (c : CtxNo) : Block :=
  match b.rec? c with
  | some x =>
    if !b.dpOn || !x.tarm || x.loc != .fine || b.gt.toNat < x.tdl.toNat || !b.regBit pgCAR 0x050 1 then b
    else
      let late := decide (64 < b.dclkIn (b.gt.toNat - x.tdl.toNat))
      let b := b.fireTimer c x
      if late then b.cnt pgCAR 0x064 else b
  | none => b

/-- TIMER_FIRE. -/
def execTimerFire (c : CtxNo) (s : State) : Host.Outcome State Fault Refusal :=
  .next { s with blk := effTimerFire s.blk c }

/-- At the first boundary after a step (R187): the windows flush, timers whose deadlines have passed fire, the others take
their places. -/
def Block.stepSeen (b : Block) : Block :=
  let b := b.flushWindows
  let due := if b.regBit pgCAR 0x050 1 then
      b.ctx.cells.filter fun p => p.2.tarm && !p.2.moving && decide (p.2.tdl.toNat ≤ b.gt.toNat)
    else []
  let b := due.foldl (fun b p => b.fireTimer (BitVec.ofNat 16 p.1) p.2) b
  b.relinkTimers.lagClose.flag pgCAR 1

/-! ### The period (R186) -/

/-- A write of CAR_PERIOD.NEXT, stored clamped. -/
def Block.schedule (b : Block) : Block :=
  let v := (fld (b.reg pgCAR 0x040) 12 0).toNat
  let next := max 64 (min 4096 v)
  { (b.setReg pgCAR 0x040 (BitVec.ofNat 32 next)) with
    car := { b.car with pend := true, takeAt := BitVec.ofNat 64 (takeGt b.gt.toNat next) } }

/-! ### The slot table (R189, R190) -/

/-- The word that CAR_SLOT_DATA reads: the shadow word while a write to it is held. -/
def Block.slotWord (b : Block) (p : Nat) : Word := (b.car.shadow.find? p).getD (b.car.slots.get 0 p)

/-- The word that the index selects. -/
def Block.slotIdx (b : Block) : Nat := (fld (b.reg pgCAR 0x048) 11 0).toNat

/-- AUTOINC after an access of CAR_SLOT_DATA. -/
def Block.slotNext (b : Block) : Block :=
  let v := b.reg pgCAR 0x048
  if bit v 16 then b.setReg pgCAR 0x048 (blend 0xFFF v ((fld v 11 0 + 1).setWidth 32)) else b

/-- A write of CAR_SLOT_DATA: live, or held in the shadow table. -/
def Block.writeSlot (b : Block) (held : Bool) (v : Word) : Block :=
  let p := b.slotIdx
  let c := b.car
  let car := if held then { c with shadow := c.shadow.insert p v }
    else { c with slots := c.slots.set 0 p v, shadow := c.shadow.erase p }
  let ras := { b.ras with badSlots := b.ras.badSlots.filter (· != p) }
  ({ b with car, ras }).slotNext

/-- Held words are copied at a revolution boundary. -/
def Block.slotCopy (b : Block) : Block :=
  { b with car := { b.car with slots := b.car.shadow.cells.foldl (fun m p => m.set 0 p.1 p.2) b.car.slots, shadow := .empty } }

/-- The word of the position reached is latched (R189). A word that met an uncorrectable error makes no insert
(Table 15-3). An invalid DCLASS is counted only in a word that would raise an event, with VALID and SLOT_EV_EN: the spec does not say
which words it means (DESIGN CHOICE, log 83). -/
def Block.latchSlot (b : Block) : Block :=
  let p := b.car.pos
  let w := b.car.slots.get 0 p
  if !bit w 31 || b.ras.badSlots.contains p || !b.regBit pgCAR 0x050 0 then b
  else if 2 ≤ (fld w 23 22).toNat then (b.cnt pgCAR 0x068).flag pgCAR 2
  else b.ask17 { ctx := fld w 15 0, entry := bankedEntry 0x00908 (fld w 21 16) (fld w 23 22) }

end Sys2Proof.Machine
end

