-- ==== Sys2Proof/Machine/TimeUnit.lean ====
section
/-! DEFINITION. The time unit (R173 to R183, R314): the rate and the phase of GT, its states, the PPS capture, the tick, the
follower. -/

namespace Sys2Proof.Machine

/-! ### Rate (R173, R174) -/

/-- A quotient rounded to the nearest whole number. -/
def nearest (a d : Int) : Int := (2 * a + d) / (2 * d)

/-- INC for an adjustment of `adj` × 2^-16 ppb, in 2^-48 ns. -/
def incOf (adj : BitVec 40) : Int := 2 ^ 48 + nearest (adj.toInt * 2 ^ 32) (10 ^ 9)

/-- ±1,000 ppm. -/
def adjLimit : Int := 0xF42400000

/-- An adjustment within its limits. -/
def adjClamp (v : Int) : Int := max (-adjLimit) (min adjLimit v)

/-- NS and the fraction as one number of 2^-48 ns. -/
def TimeUnit.full (t : TimeUnit) : Int := t.ns.toNat * 2 ^ 48 + t.frac.toNat

/-- That number back in its two parts. -/
def TimeUnit.withFull (t : TimeUnit) (v : Int) : TimeUnit :=
  { t with ns := BitVec.ofInt 64 (v / 2 ^ 48), frac := BitVec.ofInt 48 v }

/-- GT advances by a number of 2^-48 ns. -/
def Block.advance (b : Block) (d : Int) : Block := { b with tu := b.tu.withFull (b.tu.full + d) }

/-! ### VALID and HOLDOVER (R176, R178, R181) -/

/-- TU_CTL. -/
def Block.tuRef (b : Block) : Bool := b.regBit pgTU 0x040 0
def Block.tuFollow (b : Block) : Bool := b.regFld pgTU 0x040 2 1 == 1
def Block.tuPort (b : Block) : Nat := (b.regFld pgTU 0x040 4 3).toNat

/-- A phase or rate write makes GT valid if its reference is sound (R176). -/
def Block.makeValid (b : Block) : Block :=
  if b.clk.lockT && b.clk.tRefUsed == b.tuRef && !b.tu.holdover && !b.tu.noref && !b.tu.onBkp then
    { b with tu := { b.tu with valid := true } }
  else b

/-- VALID falls; a follower counts its revolutions anew (R181). -/
def Block.loseValid (b : Block) : Block :=
  if b.tu.valid then { b with tu := { b.tu with valid := false, goodRevs := 0 } }.flag pgTU 2 else b

/-- HOLDOVER is set and VALID cleared, for want of a crystal or of VDD_AON (R178 to R180): no TIME frame ends it. -/
def Block.enterHoldover (b : Block) : Block :=
  let b := { b with tu := { b.tu with silent := false } }
  let b := if b.tu.holdover then b else { b with tu := { b.tu with holdover := true } }.flag pgTU 1
  b.loseValid

/-- HOLDOVER clears. -/
def Block.leaveHoldover (b : Block) : Block := { b with tu := { b.tu with holdover := false, silent := false } }

/-! ### Writes that act (R174 to R176, R181) -/

/-- A write of TU_FREQ_ADJ_LO: the held high byte and the low word together. -/
def Block.setFreqAdj (b : Block) : Block :=
  let raw : BitVec 40 := (b.regFld pgTU 0x058 7 0) ++ b.reg pgTU 0x054
  let v := adjClamp raw.toInt
  let b := { b with tu := { b.tu with adj := BitVec.ofInt 40 v } }
  (if v = raw.toInt then b else b.flag pgTU 5).makeValid

/-- A write of TU_STEP_LO: the signed step in 2^-16 ns is added. -/
def Block.stepTime (b : Block) : Block :=
  let step : BitVec 48 := (b.regFld pgTU 0x060 15 0) ++ b.reg pgTU 0x05C
  let t := b.tu.withFull (b.tu.full + step.toInt * 2 ^ 32)
  ((b.stepGt t.ns t.frac).flag pgTU 3).makeValid

/-- A write of TU_SET_LO: NS is loaded. -/
def Block.setTime (b : Block) : Block :=
  let b := b.stepGt (b.reg pgTU 0x068 ++ b.reg pgTU 0x064) 0
  ({ b with tu := { b.tu with gtStopped := false } }.flag pgTU 4).makeValid

/-! ### PPS and tick (R182, R183) -/

/-- GT runs on the TPLL or, in Intermission, on the crystal: from its start on, and again from a return to VDD_AON (R176, R180). -/
def Block.gtRuns (b : Block) : Bool := b.tu.runs && !b.tu.onBkp

/-- PPS_EDGE on the block. -/
def effPpsEdge (b : Block) : Block :=
  if !b.gtRuns then b
  else { b with tu := { b.tu with ppsCap := b.tu.ns - 2, ppsCnt := b.tu.ppsCnt + 1 } }.flag pgTU 0

/-- PPS_EDGE. -/
def execPpsEdge (s : State) : Host.Outcome State Fault Refusal := .next { s with blk := effPpsEdge s.blk }

/-- The period of the tick in ns. -/
def Block.tickPeriod (b : Block) : Nat :=
  match (b.regFld pgTU 0x080 2 1).toNat with
  | 0 => 10 ^ 9
  | 1 => 4096 * b.car.cur.toNat
  | _ => b.car.cur.toNat

/-- TICK_PULSE on the block: GT has reached a boundary (one TPLL cycle advances it by at most 2). -/
def effTickPulse (b : Block) : Block :=
  let p := b.tickPeriod
  if !b.gtRuns || !b.regBit pgTU 0x080 0 || b.tu.tickEnd.isSome || 1 < b.tu.ns.toNat % p then b
  else
    let width := min (((b.regFld pgTU 0x080 15 8).toNat + 1) * 8) (p / 2)
    { b with tu := { b.tu with tickEnd := some (b.clk.ns + width) } }

/-- TICK_PULSE. -/
def execTickPulse (s : State) : Host.Outcome State Fault Refusal := .next { s with blk := effTickPulse s.blk }

/-- The tick has the pin MON_OUT (CPC_STAT.MON_PREEMPTED). -/
def Block.monPreempted (b : Block) : Bool := b.regBit pgTU 0x080 0 || b.tu.tickEnd.isSome

/-! ### The follower (R181, R314) -/

/-- FOLLOW_HOLDOVER on the block: a HOLDOVER that missing frames alone set is marked, for a frame ends it. -/
def effFollowHoldover (b : Block) : Block :=
  if b.tuFollow && decide (8 ≤ b.tu.badRevs) then
    (if b.tu.holdover then b.loseValid
     else { b.enterHoldover with tu := { b.enterHoldover.tu with silent := true } })
  else b

/-- FOLLOW_HOLDOVER. -/
def execFollowHoldover (s : State) : Host.Outcome State Fault Refusal := .next { s with blk := effFollowHoldover s.blk }

/-- A valid TIME frame came on the followed port (R181): it ends a HOLDOVER that missing frames alone set; one that R178 to R180 set
stays until software acts. -/
def Block.heardFrame (b : Block) : Block :=
  let b := { b with tu := { b.tu with gotFrame := true } }
  if b.tu.silent then b.leaveHoldover else b

/-- It steers GT by its theta (R314). The next revolution is the 4,096 × SLOT_NS TPLL cycles that follow the frame; what an earlier
correction has not removed yet is removed in them too (DESIGN CHOICE, log 85). -/
def Block.steer (b : Block) (theta : Int) : Block :=
  if 1000 ≤ theta.natAbs then
    let t := b.tu.withFull (b.tu.full - theta * 2 ^ 48)
    let b := b.stepGt t.ns t.frac
    { b with tu := { b.tu with integ := 0, remove := 0, removeLeft := 0 } }.flag pgJL 6
  else
    let i := b.tu.integ + theta * 2 ^ 12
    let rev := 4096 * b.car.cur.toNat
    let total := (theta * 2 ^ 15 + i) * 2 ^ 32 + b.tu.remove * b.tu.removeLeft
    { b with tu := { b.tu with integ := i, remove := total / rev, removeLeft := rev } }

/-- What the follower removes from GT in this TPLL cycle (R314). -/
def TimeUnit.removing (t : TimeUnit) : Int := if t.removeLeft = 0 then 0 else t.remove

/-- A revolution ends for the follower: it counts revolutions with and without frames; 16 in a row make GT valid. -/
def Block.followRev (b : Block) : Block :=
  let t := b.tu
  if !b.tuFollow then { b with tu := { t with goodRevs := 0, badRevs := 0, gotFrame := false, remove := 0, removeLeft := 0 } }
  else if t.gotFrame then
    { b with tu := { t with goodRevs := t.goodRevs + 1, badRevs := 0, gotFrame := false,
                            valid := t.valid || decide (16 ≤ t.goodRevs + 1) } }
  else { b with tu := { t with goodRevs := 0, badRevs := t.badRevs + 1 } }

end Sys2Proof.Machine
end

