-- ==== Sys2Proof/Machine/Juwa.lean ====
section
/-! DEFINITION. The Juwa ports (chapter 11): frames, receive FIFOs, lanes, credits and escapes, link state, time frames. -/

namespace Sys2Proof.Machine

/-! ### Frames as beats (R300 to R302) -/

/-- What arrives at a port. -/
inductive RxFrame where
  | event (f : Frame)
  | credit (c0 : BitVec 8) (c1 : BitVec 7)
  | time (valid echo : Bool) (tx etx erx : Gt)
  | hello (sender : BitVec 16) (g0 : BitVec 8) (g1 : BitVec 7)
  | sleep
  | sleepAck
  | wake
  /-- Discarded; a VC where an EVENT frame took a slot. -/
  | bad (slot : Option Bool)
  deriving DecidableEq, Repr

/-- LEN of an EVENT frame: its payload beats. -/
def lenOf (plen : BitVec 6) : Nat := (plen.toNat + 15) / 16

/-- An EVENT frame as its beats spell it (Table 11-2). -/
def eventOf (x : BitVec 128) (rest : List (BitVec 128)) : Frame :=
  let plen : BitVec 6 := fld x 97 92
  { vc := bit x 4, pin := bit x 7, dest := fld x 23 8, origin := fld x 39 24, oeng := fld x 43 40, hops := fld x 47 44,
    revent := fld x 83 64, merge := fld x 91 84, plen, trunc := bit x 98,
    bytes := (rest.flatMap fun y => leBytes 16 y.toNat).take plen.toNat }

/-- The beats of an EVENT frame. -/
def eventBeats (f : Frame) : List (BitVec 128) :=
  let n := lenOf f.plen
  let x : BitVec 128 := 1 ||| flagAt f.vc 4 ||| at' (BitVec.ofNat 2 n) 5 ||| flagAt f.pin 7 ||| at' f.dest 8 ||| at' f.origin 24 |||
    at' f.oeng 40 ||| at' f.hops 44 ||| at' f.revent 64 ||| at' f.merge 84 ||| at' f.plen 92 ||| flagAt f.trunc 98
  x :: (List.range n).map fun i => leBits 128 ((f.bytes.drop (16 * i)).take 16)

/-- A frame as its beats spell it. -/
def frameRx (beats : List (BitVec 128)) : RxFrame :=
  match beats with
  | [] => .bad none
  | x :: rest =>
    let len := (fld x 6 5).toNat
    let whole := decide (rest.length = len)
    match (fld x 3 0).toNat with
    | 1 =>
      let f := eventOf x rest
      if whole && len == lenOf f.plen && hasState f.revent then .event f else .bad (some f.vc)
    | 2 => if whole && len == 0 then .credit (fld x 15 8) (fld x 22 16) else .bad none
    | 3 => match rest with
      | [y] => if len = 1 then .time (bit x 8) (bit x 9) (fld x 127 64) (fld y 63 0) (fld y 127 64) else .bad none
      | _ => .bad none
    | 4 =>
      if !whole || len != 0 then .bad none
      else match (fld x 11 8).toNat with
        | 1 => .hello (fld x 31 16) (fld x 39 32) (fld x 46 40)
        | 2 => .sleep
        | 3 => .sleepAck
        | 4 => .wake
        | _ => .bad none
    | _ => .bad none

/-- A CREDIT frame. -/
def creditBeat (c0 c1 : Nat) : BitVec 128 := 2 ||| at' (BitVec.ofNat 8 c0) 8 ||| at' (BitVec.ofNat 7 c1) 16

/-- A CTL frame of this instance. -/
def Block.ctlBeat (b : Block) (op : BitVec 4) : BitVec 128 :=
  4 ||| at' op 8 ||| at' b.inst 16 ||| (if op = 1 then at' (192 : BitVec 8) 32 ||| at' (64 : BitVec 7) 40 else 0)

/-- A frame leaves a port. -/
def Block.tx (b : Block) (p : Nat) (beats : List (BitVec 128)) : Block := b.setPort p { b.port p with txOut := beats }

/-! ### Receiving (R300, R303, R304) -/

/-- A port takes frames: it runs, is enabled, and this instance has its number (R297). -/
def Block.portOn (b : Block) (p : Nat) : Bool := b.dpOn && b.fab.instSet && b.regBit pgJL (0x080 + 0x20 * p) 0

/-- A receive slot is freed: its credit is to be returned (R307). -/
def Block.freeSlotOf (b : Block) (p : Nat) (vc : Bool) : Block :=
  let j := b.port p
  let since := if j.ret0 + j.ret1 = 0 then b.clk.dclk else j.retSince
  b.setPort p (if vc then { j with ret1 := j.ret1 + 1, retSince := since } else { j with ret0 := j.ret0 + 1, retSince := since })

/-- JL_LASTERR. -/
def Block.jlErr (b : Block) (dest : BitVec 16) (cause : BitVec 4) (p : Nat) : Block :=
  b.setReg pgJL 0x054 (dest.setWidth 32 ||| at' cause 16 ||| at' (BitVec.ofNat 2 p) 20)

/-- A discarded frame (R300). -/
def Block.badFrame (b : Block) (p : Nat) (slot : Option Bool) : Block :=
  let b := ((b.cnt pgJL 0x04C).jlErr 0 4 p).flag pgJL 4
  match slot with
  | some vc => b.freeSlotOf p vc
  | none => b

/-- An EVENT frame joins its receive FIFO. -/
def Block.rxIn (b : Block) (p : Nat) (f : Frame) : Block :=
  let j := b.port p
  if (if f.vc then 64 else 192) ≤ (if f.vc then j.rx1 else j.rx0).length then b
  else (b.setPort p (if f.vc then { j with rx1 := j.rx1 ++ [f] } else { j with rx0 := j.rx0 ++ [f] })).cnt48 pgJL (0x098 + 0x20 * p)
    (0x09C + 0x20 * p)

/-- The head of a receive FIFO leaves; its slot is free. -/
def Block.rxPop (b : Block) (p : Nat) (vc : Bool) : Block :=
  let j := b.port p
  (b.setPort p (if vc then { j with rx1 := j.rx1.drop 1 } else { j with rx0 := j.rx0.drop 1 })).freeSlotOf p vc

/-- A remote payload is released (R303). -/
def Block.payDrop (b : Block) : Block := (b.cnt pgJL 0x050).flag pgJL 7

/-- The payload of a local frame moves into a payload entry of the port. -/
def Block.framePay (b : Block) (p : Nat) (f : Frame) : Block × Option Nat :=
  if f.plen = 0 then (b, none)
  else match b.claimPay (1024 + 64 * p) 64 f.bytes with
    | some (b, i) => (b, some i)
    | none => (b.payDrop, none)

/-- A local frame is granted at its bank's port: it merges, is held, or goes to the station as a re-entry (R303, R24, R21). -/
def Block.admitFrame (b : Block) (p : Nat) (f : Frame) : Block :=
  let e := f.revent
  let q := evBank e
  let pe := b.pendOf e
  let src : Source := if wiredRange e then .line (e.setWidth 11) else .self e
  let noPay (b : Block) : Block := if f.plen = 0 then b else b.payDrop
  let held (b : Block) : Block := noPay (b.cnt (pgRE q) 0x070)
  if pe.p then
    let b := b.pmuEv 0x08 q
    match pe.fl with
    | none => held b
    | some x =>
      if x.scan && pe.m then held b
      else
        let x := { x with merge := satAdd x.merge (1 + f.merge.toNat) }
        if f.plen = 0 || pe.m then noPay (b.setPend e { pe with fl := some x })
        else match b.framePay p f with
          | (b, none) => b.setPend e { pe with fl := some x }
          | (b, some pay) =>
            let attr := x.attr.getD { vevent := 0, prio := 0, type := 0, cls := 0, owner := 0 }
            let a : Arrival := { ev := e, attr, src, pay := some pay, plen := f.plen, trunc := f.trunc, gt := x.gt, recOnly := true }
            if x.looking then b.setPend e { pe with fl := some { x with payl := true, pays := x.pays ++ [a] } }
            else (b.setPend e { pe with fl := some { x with payl := true } }).toEngine a
  else if pe.m then noPay ((b.setPend e { pe with p := true }).pmuEv 0x09 q)
  else
    let (b, pay) := b.framePay p f
    let k := q % 8
    let s := b.station k
    let i : Item := { kind := .reentry, src, pevent := e, pay, plen := if pay.isSome then f.plen else 0, trunc := f.trunc }
    (b.setPend e { pe with p := true, fl := some { merge := f.merge, looking := true, payl := pay.isSome } }).setStation k
      { s with reentry := s.reentry ++ [i] }

/-- A transit frame enters a lane of its origin engine's number; none: the lane is full. -/
def Block.transit (b : Block) (p : Nat) (f : Frame) : Option Block :=
  match b.outPort f.dest with
  | .inr (cause, port) => some (b.jlDrop f.dest cause (if cause = 1 then port else BitVec.ofNat 2 p))
  | .inl out =>
    if f.hops = 15 then some (b.jlDrop f.dest 3 (BitVec.ofNat 2 p))
    else
      let n := f.oeng.toNat
      let g := b.engine n
      let l := g.lane out.toNat
      let x : LaneFrame := { fr := { f with hops := f.hops + 1 } }
      let go (l : Lanes) : Option Block := some (b.setEngine n { g with lanes := g.lanes.set {} out.toNat l })
      if f.vc then (if l.vc1.isEmpty then go { l with vc1 := laneIn b l.vc1 x } else none)
      else if f.pin then (if l.pin.length < 4 then go { l with pin := laneIn b l.pin x } else none)
      else if l.vc0.length < 4 then go { l with vc0 := laneIn b l.vc0 x } else none

/-- A receive FIFO takes the frame at its head: a local one if the arbiter of its bank's port picks the Juwa port (R303, R443), one in
transit if its lane has room. -/
def Block.rxTake (b : Block) (p : Nat) (vc : Bool) : Block :=
  match b.rxHead p vc with
  | none => b
  | some f =>
    let q := evBank f.revent
    if f.dest = b.inst then
      (if b.pendPick q = some (8 + p) && b.rxAsks p vc q then ((b.admitFrame p f).granted (.pendBank q) (8 + p)).rxPop p vc else b)
    else match b.transit p f with
      | some b => b.rxPop p vc
      | none => b

/-- EVENT_FRAME on the block: a frame that arrives joins its FIFO; the head of the FIFO the command names is taken. -/
def effEventFrame (b : Block) (p : Nat) (vc : Bool) (arr : List (BitVec 128)) : Block :=
  if !b.portOn p || !(b.port p).up then b else
    let b := if arr.isEmpty then b
      else match frameRx arr with
        | .event f => b.rxIn p f
        | .bad slot => b.badFrame p slot
        | _ => b
    b.rxTake p vc

/-- EVENT_FRAME. -/
def execEventFrame (p : Fin 4) (vc1 : Bool) (arr : List (BitVec 128)) (s : State) : Host.Outcome State Fault Refusal :=
  .next { s with blk := effEventFrame s.blk p vc1 arr }

/-! ### Credits (R306 to R308) -/

/-- The oldest trackers of a VC are released. -/
def dropTrk (vc : Bool) : Nat → List (Bool × Tag) → List (Bool × Tag)
  | 0, l => l
  | n + 1, l => dropTrk vc n (eraseFirst (·.1 == vc) l)

/-- CREDIT_FRAME on the block. -/
def effCreditFrame (b : Block) (p : Nat) (beats : List (BitVec 128)) : Block :=
  if !b.portOn p || !(b.port p).up then b
  else match frameRx beats with
    | .credit c0 c1 =>
      let j := b.port p
      b.setPort p { j with cred0 := satAdd j.cred0 c0.toNat, cred1 := satAdd j.cred1 c1.toNat,
                           trk := dropTrk true c1.toNat (dropTrk false c0.toNat j.trk) }
    | .bad slot => b.badFrame p slot
    | _ => b

/-- CREDIT_FRAME. -/
def execCreditFrame (p : Fin 4) (beats : List (BitVec 128)) (s : State) : Host.Outcome State Fault Refusal :=
  .next { s with blk := effCreditFrame s.blk p beats }

/-- ESCAPE on the block (R308): a VC0 head that has lacked credit for ESC_CYC DCLK cycles, none of them with a credit in between
(DEDUCED, log 86). -/
def effEscape (b : Block) (p n : Nat) : Block :=
  let g := b.engine n
  let l := g.lane p
  match l.vc0 with
  | x :: rest =>
    if !b.dpOn || x.escaped || (b.port p).cred0 != 0 || !(b.port p).up || x.dry < (b.regFld pgJL 0x040 15 0).toNat then b
    else b.setEngine n { g with lanes := g.lanes.set {} p { l with vc0 := { x with escaped := true } :: rest } }
  | [] => b

/-- A DCLK cycle of a lane of VC0: its head lacks credit, or does not (R308). -/
def Lanes.dried (l : Lanes) (lacks : Bool) : Lanes :=
  match l.vc0 with
  | x :: r => { l with vc0 := { x with dry := if lacks then x.dry + 1 else 0 } :: r }
  | [] => l

/-- A DCLK cycle of every VC0 lane. -/
def Block.dryLanes (b : Block) : Block :=
  { b with eng := b.eng.mapVals fun _ e => { e with lanes := e.lanes.mapVals fun p l => l.dried ((b.port p).cred0 == 0) } }

/-- ESCAPE. -/
def execEscape (p : Fin 4) (n : Fin 16) (s : State) : Host.Outcome State Fault Refusal :=
  .next { s with blk := effEscape s.blk p n }

/-! ### Transmitting (R305, R306) -/

/-- The three lanes. -/
inductive LaneId where
  | vc1
  | pin
  | vc0
  deriving DecidableEq, Repr

/-- The lane's frames. -/
def Lanes.get (l : Lanes) : LaneId → List LaneFrame
  | .vc1 => l.vc1
  | .pin => l.pin
  | .vc0 => l.vc0

/-- The VC on which a lane's head may leave, if a credit allows it. -/
def JPort.laneVc (j : JPort) (l : LaneId) (x : LaneFrame) : Option Bool :=
  match l with
  | .vc1 => if j.cred1 = 0 then none else some true
  | .pin => if j.cred0 = 0 then none else some false
  | .vc0 => if j.cred0 != 0 then some false else if x.escaped && j.cred1 != 0 then some true else none

/-- The eligible heads of an engine towards a port: VC1 lane, pinned lane, VC0 lane. -/
def Block.heads (b : Block) (p n : Nat) : List (LaneId × LaneFrame × Bool) :=
  let l := (b.engine n).lane p
  [LaneId.vc1, LaneId.pin, LaneId.vc0].filterMap fun i =>
    match l.get i with
    | x :: _ => ((b.port p).laneVc i x).map fun vc => (i, x, vc)
    | [] => none

/-- The head that has waited longest; among equals the first. -/
def oldestHead (l : List (LaneId × LaneFrame × Bool)) : Option (LaneId × LaneFrame × Bool) :=
  l.foldl (fun best h => match best with
    | none => some h
    | some x => if h.2.1.since < x.2.1.since then some h else some x) none

/-- A lane without its head: the next frame waits as head from now on. -/
def laneOut (b : Block) (l : List LaneFrame) : List LaneFrame :=
  match l.drop 1 with
  | x :: r => { x with since := b.clk.dclk } :: r
  | [] => []

/-- A head leaves its lane. -/
def Block.lanePop (b : Block) (p n : Nat) (i : LaneId) : Block :=
  let g := b.engine n
  let l := g.lane p
  let l' : Lanes := match i with
    | .vc1 => { l with vc1 := laneOut b l.vc1 }
    | .pin => { l with pin := laneOut b l.pin }
    | .vc0 => { l with vc0 := laneOut b l.vc0 }
  let b := b.setEngine n { g with lanes := g.lanes.set {} p l' }
  b.drainMc n 200

/-- Credits are to be returned (R307). -/
def Block.creditDue (b : Block) (j : JPort) : Bool :=
  let batch := (b.regFld pgJL 0x040 23 16).toNat
  decide (0 < j.ret0 + j.ret1) && (decide (batch ≤ j.ret0) || decide (batch ≤ j.ret1) || decide (j.retSince + 64 ≤ b.clk.dclk))

/-- A request at a Juwa transmit port is eligible (Table 1-5): the route engines' heads 0 to 15, while the peer is awake; the time unit
16; credit return 17; wake and control 18. -/
def Block.txElig (b : Block) (p i : Nat) : Bool :=
  let j := b.port p
  b.dpOn && (if i < 16 then j.up && !j.peerAsleep && !(b.heads p i).isEmpty
    else if i = 16 then j.up && j.time
    else if i = 17 then j.up && b.creditDue j
    else i == 18 && !j.ctl.isEmpty)

/-- The request that the arbiter of a Juwa transmit port grants (R38). -/
def Block.txPick (b : Block) (p : Nat) : Option Nat := b.pick (.juwaTx p) (b.txElig p)

/-- A TIME frame (R313): TX is the GT at which it leaves. -/
def Block.timeBeats (b : Block) (j : JPort) : List (BitVec 128) :=
  let x : BitVec 128 := 3 ||| at' (1 : BitVec 2) 5 ||| flagAt b.tu.valid 8 ||| flagAt j.echo.isSome 9 ||| at' b.inst 16 ||| at' b.tu.ns 64
  let e := j.echo.getD (0, 0)
  [x, at' e.1 0 ||| at' e.2 64]

/-- The frames of requesters 16 and 18 leave while the arbiter picks them; `fuel` bounds them. -/
def Block.sendWaiting (b : Block) (p : Nat) : Nat → Block
  | 0 => b
  | fuel + 1 =>
    let j := b.port p
    match b.txPick p, j.ctl with
    | some 16, _ => Block.sendWaiting (((b.setPort p { j with time := false }).tx p (b.timeBeats j)).granted (.juwaTx p) 16) p fuel
    | some 18, op :: rest => Block.sendWaiting (((b.setPort p { j with ctl := rest }).tx p [b.ctlBeat op]).granted (.juwaTx p) 18) p fuel
    | _, _ => b

/-- A control frame is presented (requester 18). -/
def Block.sendCtl (b : Block) (p : Nat) (op : BitVec 4) : Block :=
  (b.setPort p { b.port p with ctl := (b.port p).ctl ++ [op] }).sendWaiting p 8

/-- CREDIT_RETURN on the block: the credits due are returned, if the arbiter picks them (R307). -/
def effCreditReturn (b : Block) (p : Nat) : Block :=
  let j := b.port p
  if b.txPick p = some 17 then
    (((b.setPort p { j with ret0 := 0, ret1 := 0 }).tx p [creditBeat j.ret0 j.ret1]).granted (.juwaTx p) 17).sendWaiting p 8
  else b

/-- CREDIT_RETURN. -/
def execCreditReturn (p : Fin 4) (s : State) : Host.Outcome State Fault Refusal :=
  .next { s with blk := effCreditReturn s.blk p }

/-- The head that an engine presents leaves (R305, R306): one credit, one tracker; an origin frame takes its arrival's merge count and
payload and places it. -/
def Block.sendHead (b : Block) (p n : Nat) : Block :=
  let j := b.port p
  match oldestHead (b.heads p n) with
  | none => b
  | some (i, x, vc) =>
    let b := b.setPort p { j with cred0 := if vc then j.cred0 else j.cred0 - 1, cred1 := if vc then j.cred1 - 1 else j.cred1,
                                  trk := j.trk ++ [(vc, x.tag)] }
    let fr : Frame := match x.local? with
      | some e =>
        -- a payload that met an uncorrectable error is not sent (R403)
        let plen := if b.payBad x.pay then 0 else x.fr.plen
        { x.fr with vc, plen, merge := b.mergeOf e, bytes := (b.payBytes x.pay).take plen.toNat }
      | none => { x.fr with vc }
    let b := match x.local? with
      | some e => (b.place e).readPay x.pay
      | none => b
    let b := (((b.lanePop p n i).tx p (eventBeats fr)).cnt48 pgJL (0x090 + 0x20 * p) (0x094 + 0x20 * p)).pmuEv 0x17 p
    if vc && i == .vc0 then ((b.cnt pgJL 0x044).flag pgJL 2).pmuEv 0x18 p else b

/-- JUWA_TRANSMIT on the block: the head of engine n, if the arbiter picks it. -/
def effJuwaTransmit (b : Block) (p n : Nat) : Block :=
  if n < 16 && b.txPick p = some n then ((b.sendHead p n).granted (.juwaTx p) n).sendWaiting p 8 else b

/-- JUWA_TRANSMIT. -/
def execJuwaTransmit (p : Fin 4) (n : Fin 16) (s : State) : Host.Outcome State Fault Refusal :=
  .next { s with blk := effJuwaTransmit s.blk p n }

/-! ### Link state (R310 to R312) -/

/-- A port whose link is ready comes up once a HELLO has been sent and received: LINK_UP (R310). -/
def Block.comeUp (b : Block) (p : Nat) : Block :=
  let j := b.port p
  if j.up || !j.ready || !j.helloSent || !j.helloGot then b else (b.setPort p { j with up := true }).flag pgJL 0

/-- HELLO on the block. -/
def effHello (b : Block) (p : Nat) (beats : List (BitVec 128)) : Block :=
  if !b.portOn p then b
  else match frameRx beats with
    | .hello sender g0 g1 =>
      let j := b.port p
      if sender = b.inst then b.flag pgJL 5
      else (b.setPort p { j with peer := sender, helloGot := true, peerAsleep := false, cred0 := g0, cred1 := g1, trk := [] }).comeUp p
    | .bad slot => b.badFrame p slot
    | _ => b

/-- HELLO. -/
def execHello (p : Fin 4) (beats : List (BitVec 128)) (s : State) : Host.Outcome State Fault Refusal :=
  .next { s with blk := effHello s.blk p beats }

/-- HELLO_SEND on the block: nothing leaves while the link is not ready. -/
def effHelloSend (b : Block) (p : Nat) : Block :=
  let j := b.port p
  if !b.portOn p || j.up || !j.ready || (j.helloSent && decide (b.clk.dclk < j.lastHello + 4096)) then b
  else ((b.setPort p { j with helloSent := true, lastHello := b.clk.dclk }).sendCtl p 1).comeUp p

/-- HELLO_SEND. -/
def execHelloSend (p : Fin 4) (s : State) : Host.Outcome State Fault Refusal :=
  .next { s with blk := effHelloSend s.blk p }

/-- PORT_UP on the block: the licensee's link reports ready, and the port comes up if the other conditions of R310 hold. -/
def effPortUp (b : Block) (p : Nat) : Block :=
  let b := b.setPort p { b.port p with ready := true }
  if b.portOn p then b.comeUp p else b

/-- PORT_UP. -/
def execPortUp (p : Fin 4) (s : State) : Host.Outcome State Fault Refusal := .next { s with blk := effPortUp s.blk p }

/-- The frames of a port's lanes in every engine. -/
def Block.portLanes (b : Block) (p : Nat) : List LaneFrame :=
  b.eng.cells.flatMap fun e => (e.2.lane p).vc0 ++ (e.2.lane p).pin ++ (e.2.lane p).vc1

/-- A frame lost with its link: counted; an origin arrival is placed. -/
def Block.linkLoss (p : Nat) (b : Block) (x : LaneFrame) : Block :=
  let b := b.jlDrop x.fr.dest 5 (BitVec.ofNat 2 p)
  match x.local? with
  | some e => (b.place e).readPay x.pay
  | none => b

/-- A port goes down (R310). -/
def Block.goDown (b : Block) (p : Nat) : Block :=
  let j := b.port p
  let fresh : JPort := { ready := j.ready, peer := j.peer, peerValid := j.peerValid, theta := j.theta, delay := j.delay, txOut := j.txOut }
  if !j.up then b.setPort p { fresh with lastHello := j.lastHello }
  else
    let gone := b.portLanes p ++ (j.rx0 ++ j.rx1).map fun f => ({ fr := f } : LaneFrame)
    let b := { b with eng := b.eng.mapVals fun _ e => { e with lanes := e.lanes.set {} p {} } }
    let b := gone.foldl (Block.linkLoss p) (b.setPort p fresh)
    let b := (b.eng.cells.map Prod.fst).foldl (fun b n => b.drainMc n 200) b
    b.flag pgJL 1

/-- PORT_DOWN on the block: the link is not ready any more; HELLOs exchanged before count no longer (R310). -/
def effPortDown (b : Block) (p : Nat) : Block :=
  let b := b.goDown p
  b.setPort p { b.port p with ready := false }

/-- PORT_DOWN. -/
def execPortDown (p : Fin 4) (s : State) : Host.Outcome State Fault Refusal := .next { s with blk := effPortDown s.blk p }

/-- SLEEP on the block: no event frame is presented any more, so the answer is presented at once. -/
def effSleep (b : Block) (p : Nat) (beats : List (BitVec 128)) : Block :=
  if !b.portOn p || !(b.port p).up then b
  else match frameRx beats with
    | .sleep => (b.setPort p { b.port p with peerAsleep := true }).sendCtl p 3
    | .bad slot => b.badFrame p slot
    | _ => b

/-- SLEEP. -/
def execSleep (p : Fin 4) (beats : List (BitVec 128)) (s : State) : Host.Outcome State Fault Refusal :=
  .next { s with blk := effSleep s.blk p beats }

/-- On the way to Intermission a port whose lanes are empty sends SLEEP (R311). -/
def Block.sendSleep (b : Block) (p : Nat) : Block :=
  let j := b.port p
  if b.pwr.stage != .entry || !j.up || j.sleepSent || !(b.portLanes p).isEmpty then b
  else (b.setPort p { j with sleepSent := true }).sendCtl p 2

/-- SLEEP_ACK on the block. -/
def effSleepAck (b : Block) (p : Nat) (beats : List (BitVec 128)) : Block :=
  if !b.portOn p || !(b.port p).up then b
  else match frameRx beats with
    | .sleepAck =>
      let b := b.sendSleep p
      if (b.port p).sleepSent then b.setPort p { b.port p with ackGot := true } else b
    | .bad slot => b.badFrame p slot
    | _ => b

/-- SLEEP_ACK. -/
def execSleepAck (p : Fin 4) (beats : List (BitVec 128)) (s : State) : Host.Outcome State Fault Refusal :=
  .next { s with blk := effSleepAck s.blk p beats }

/-- WAKE_SEND on the block: a head lacks nothing but the peer. -/
def effWakeSend (b : Block) (p : Nat) : Block :=
  let j := b.port p
  let waits := (List.range 16).any fun n => !(b.heads p n).isEmpty
  if !b.dpOn || !j.up || !j.peerAsleep || !waits || (j.lastWake != 0 && decide (b.gt.toNat < j.lastWake.toNat + 16000)) then b
  else (b.setPort p { j with lastWake := b.gt }).sendCtl p 4

/-- WAKE_SEND. -/
def execWakeSend (p : Fin 4) (s : State) : Host.Outcome State Fault Refusal :=
  .next { s with blk := effWakeSend s.blk p }

/-! ### Time frames (R313, R314) -/

/-- A TIME frame is presented at an up port whose peer is awake (R312, R313). -/
def Block.sendTime (b : Block) (p : Nat) : Block :=
  let j := b.port p
  if !j.up || j.peerAsleep then b else (b.setPort p { j with time := true }).sendWaiting p 8

/-- A difference of two GTs. -/
def gtDiff (x y : Gt) : Int := (x - y).toInt

/-- TIME_FRAME on the block. -/
def effTimeFrame (b : Block) (p : Nat) (beats : List (BitVec 128)) : Block :=
  if !b.portOn p || !(b.port p).up then b
  else match frameRx beats with
    | .time valid echo txGt etx erx =>
      let rx := b.tu.ns
      let j := b.port p
      let theta := (gtDiff rx txGt - gtDiff erx etx) / 2
      let delay := (gtDiff rx txGt + gtDiff erx etx) / 2
      let j := { j with peerValid := valid, echo := some (txGt, rx) }
      let b := b.setPort p (if echo then { j with theta := BitVec.ofInt 32 theta, delay := BitVec.ofInt 32 delay } else j)
      if !b.tuFollow || b.tuPort != p || !valid then b
      else if echo then b.heardFrame.steer theta else b.heardFrame
    | .bad slot => b.badFrame p slot
    | _ => b

/-- TIME_FRAME. -/
def execTimeFrame (p : Fin 4) (beats : List (BitVec 128)) (s : State) : Host.Outcome State Fault Refusal :=
  .next { s with blk := effTimeFrame s.blk p beats }

end Sys2Proof.Machine
end

