-- ==== Sys2Proof/Machine/Clocks.lean ====
section
/-! DEFINITION. Clocks (chapter 13): the crystal checks, the monitors, coasting and relocking, the DPLL's slew, the multiplexers,
clock gating. -/

namespace Sys2Proof.Machine

/-! ### State registers -/

/-- The check of XA (false) or XB (true). -/
def Clk.xchk (c : Clk) (x : Bool) : XCheck := if x then c.xb else c.xa

/-- The clocks with another check of a crystal. -/
def Clk.withXchk (c : Clk) (x : Bool) (k : XCheck) : Clk := if x then { c with xb := k } else { c with xa := k }

/-- CPC_SRCSTAT. -/
def Block.srcStat (b : Block) : Word :=
  let c := b.clk
  c.present.setWidth 32 ||| flagAt c.xa.checked 7 ||| flagAt c.xb.checked 8 ||| flagAt c.lockD 9 ||| flagAt c.lockM 10 |||
    flagAt c.lockT 11 ||| flagAt c.refUsed 12 ||| flagAt c.dclkUsed 13 ||| flagAt c.mclkUsed 14 ||| flagAt c.chkStopped 15

/-- CPC_STAT. -/
def Block.cpcStat (b : Block) : Word :=
  let c := b.clk
  flagAt c.coast 0 ||| flagAt c.noref 1 ||| flagAt c.slewing 2 ||| flagAt b.monPreempted 3 ||| flagAt c.dpllBad 4 |||
    flagAt c.fioBad 5 ||| at' (BitVec.ofNat 11 b.dclkMhz) 16

/-- A log record of class CLOCK; its source is a monitor, or the multiplexer as CPC_HUNG.MUX numbers it. -/
def Block.clkLog (b : Block) (code : BitVec 8) (src : BitVec 16) : Block :=
  b.rmLog 2 code src (b.srcStat.setWidth 128 ||| at' b.cpcStat 32)

/-- PRESENT of a source (bit number of CPC_SRCSTAT). -/
def Block.setPresent (b : Block) (i : Nat) (v : Bool) : Block := { b with clk := { b.clk with present := setBit b.clk.present i v } }

/-- The bit of a crystal in PRESENT. -/
def xBit (x : Bool) : Nat := if x then 3 else 2

/-- Nanoseconds of a number of SIO cycles (Table 13-1: 32.768 kHz), rounded up. -/
def sioNs (n : Nat) : Nat := (n * 10 ^ 9 + 32767) / 32768

/-- FIO runs and has been judged: monitors and crystal checks work. After a wake that takes CPC_DELAY0 again (R361). -/
def Block.fioOn (b : Block) : Bool :=
  match b.pwr.stage with
  | .check | .lock | .arrays | .run | .entry | .opening | .drain | .restart | .dpOff => decide (b.clk.judged ≤ b.clk.ns)
  | _ => false

/-- The PLLs have been started. -/
def Block.pllsOn (b : Block) : Bool :=
  match b.pwr.stage with
  | .lock | .arrays | .run | .entry | .opening | .drain | .restart | .dpOff => true
  | _ => false

/-- CPC_DELAYn in force for a source that starts now: its length and end (R346). -/
def Block.delayOf (b : Block) (n : Nat) : Delay :=
  let len := sioNs (fld (b.reg pgCPC (0x050 + 4 * n)) 15 0).toNat
  { due := b.clk.ns + len, len }

/-- A delay has run. -/
def Delay.over (d : Delay) (ns : Nat) : Bool := decide (d.due ≤ ns)

/-- A lock delay at whose end the detector reported no lock starts again (R346). -/
def Delay.again (d : Delay) (ns : Nat) : Delay := if d.due < ns then { d with due := d.due + max 1 d.len } else d

/-- The lock delays of PLLs that are still to lock start again when they end unreported. -/
def Clk.delays (c : Clk) : Clk :=
  { c with delayD := if c.locking && !c.lockD then c.delayD.again c.ns else c.delayD
           delayM := if c.locking && !c.lockM then c.delayM.again c.ns else c.delayM
           delayT := if c.tLocking && !c.lockT then c.delayT.again c.ns else c.delayT }

/-- CPC_DPLL.TARGET. -/
def Block.target (b : Block) : BitVec 11 := b.regFld pgCPC 0x04C 10 0

/-! ### PLLs (R345, R346, R349) -/

/-- The PLLs start on a crystal (Table 15-1). -/
def Block.startPlls (b : Block) (x : Bool) : Block :=
  { b with clk := { b.clk with refUsed := x, tRefUsed := x, locking := true, tLocking := true, present := b.clk.present ||| 0x70,
                               delayD := b.delayOf 1, delayM := b.delayOf 2, delayT := b.delayOf 3 },
           pwr := { b.pwr with stage := .lock } }

/-- The domains that a start or a wake switches on in 8 steps: PD5 to PD31, or PD2, PD4 to PD28, PD30 and PD31 (Tables 15-1, 13-8). -/
def startDoms : Word := 0xFFFFFFE0
def wakeDoms : Word := 0xDFFFFFF4

/-- The domains that are on `ns` after the first of the 8 steps of 0.5 µs began. Which domains each step takes is not stated; the last
leaves none off. -/
def domsAfter (doms : Word) (ns : Nat) : Word :=
  if 4000 ≤ ns then doms
  else (List.range (ns / 500)).foldl (fun w k => w ||| (doms &&& Config.powerStep k)) 0

/-- The clocks of the data plane run: PD5 to PD31 are being switched on, MCLK leaves FIO, GT starts if it has not (Table 15-1). -/
def Block.startArrays (b : Block) (mhz : BitVec 11) : Block :=
  { b with clk := { b.clk with mhz, mclkUsed := b.regBit pgCPC 0x040 2, dclkUsed := b.regBit pgCPC 0x040 1 },
           tu := { b.tu with runs := true },
           pwr := { b.pwr with stage := .arrays, at_ := b.clk.ns } }

/-- DPLL and MPLL coast at 400 MHz (R349). -/
def Block.enterCoast (b : Block) : Block :=
  if b.clk.coast then b
  else ({ b with clk := { b.clk with coast := true, mhz := 400, slewing := false, lockD := false, lockM := false } }.flag pgCPC
    0).clkLog 2 (if b.clk.refUsed then 1 else 0)

/-- DPLL and MPLL relock on a crystal. -/
def Block.relockOn (b : Block) (x : Bool) : Block :=
  { b with clk := { b.clk with refUsed := x, locking := true, lockD := false, lockM := false, delayD := b.delayOf 1, delayM := b.delayOf 2 } }

/-- The TPLL moves to a crystal. -/
def Block.tpllTo (b : Block) (x : Bool) : Block :=
  { b with clk := { b.clk with tRefUsed := x, tLocking := true, lockT := false, delayT := b.delayOf 3 } }

/-- Both PLLs are locked: coasting ends, the DPLL slews up to TARGET. -/
def Block.lockedBoth (b : Block) : Block :=
  if !(b.clk.lockD && b.clk.lockM) then b
  else
    let was := b.clk.coast
    let c := { b.clk with locking := false, coast := false, tripped := false, noref := false,
                          slewing := b.clk.slewing || (was && b.clk.mhz != b.target) }
    let b := { b with clk := c }
    if was then (b.flag pgCPC 6).clkLog 3 (if c.refUsed then 1 else 0) else b

/-- The clocks of a start are there: the three PLLs are locked, or they coast without a reference. -/
def Block.startClocks (b : Block) : Bool := b.pwr.stage == .lock && (b.clk.coast || (b.clk.lockD && b.clk.lockM && b.clk.lockT))

/-- The start goes on from the 3,447.0 µs step with the clocks it has. -/
def Block.goOn (b : Block) : Block := b.startArrays (if b.clk.coast then 400 else b.target)

/-- The start goes on once the three PLLs are locked, unless DP_PGOOD is still to rise (R393). -/
def Block.startedAll (b : Block) : Block :=
  if b.startClocks && b.clk.lockD && b.clk.lockM && b.pwr.dpGood then b.goOn else b

/-- PLL_LOCK on the block: the PLL's lock delay has run and its detector reports lock (R346). -/
def effPllLock (b : Block) (p : Pll) : Block :=
  if !b.pllsOn then b
  else match p with
    | .dpll =>
      if !b.clk.locking || b.clk.lockD || !b.clk.delayD.over b.clk.ns then b else
        let c := { b.clk with lockD := true, present := setBit b.clk.present 4 true }
        let c := if c.dpllBad then { c with dpllBad := false, mhz := b.target, dclkUsed := b.regBit pgCPC 0x040 1 } else c
        ({ b with clk := c }.lockedBoth).startedAll
    | .mpll =>
      if !b.clk.locking || b.clk.lockM || !b.clk.delayM.over b.clk.ns then b else
        ({ b with clk := { b.clk with lockM := true, present := setBit b.clk.present 5 true } }.lockedBoth).startedAll
    | .tpll =>
      if !b.clk.tLocking || b.clk.lockT || !b.clk.delayT.over b.clk.ns then b else
        ({ b with clk := { b.clk with lockT := true, tLocking := false }, tu := { b.tu with noref := false } }).startedAll

/-- PLL_LOCK. -/
def execPllLock (p : Pll) (s : State) : Host.Outcome State Fault Refusal := .next { s with blk := effPllLock s.blk p }

/-- Nanoseconds of check windows: 2^WIN FIO cycles each, at FIO's nominal 200 MHz (R347). -/
def Block.windowsNs (b : Block) (n : Nat) : Nat := n * 2 ^ (b.regFld pgCPC 0x068 20 16).toNat * 5

/-- PLL_START_NOREF on the block (R394): 16 windows after the checks started no crystal has passed. -/
def effPllStartNoref (b : Block) : Block :=
  if b.pwr.stage != .check || b.clk.xa.checked || b.clk.xb.checked || b.clk.ns < b.clk.checkAt + b.windowsNs 16 then b
  else
    let c := { b.clk with coast := true, noref := true, present := b.clk.present ||| 0x70 }
    let b := { b with clk := c, tu := { b.tu with noref := true }, pwr := { b.pwr with stage := .lock } }
    (if b.pwr.dpGood then b.goOn else b).flag pgCPC 1

/-- PLL_START_NOREF. -/
def execPllStartNoref (s : State) : Host.Outcome State Fault Refusal := .next { s with blk := effPllStartNoref s.blk }

/-! ### Crystal checks (R347) -/

/-- A count lies within ±6 % of E. -/
def nearE (nom win c : Nat) : Bool :=
  decide (((c * 200000 : Nat) - (nom * 2 ^ win : Nat) : Int).natAbs * 100 ≤ 6 * (nom * 2 ^ win))

/-- A count lies within a tolerance of another. -/
def steady (c prev tol : Nat) : Bool := decide (((c : Int) - prev).natAbs ≤ max 1 (prev * tol / 10 ^ 6))

/-- A crystal's check starts from zero. -/
def XCheck.restart (k : XCheck) : XCheck := { meas := k.meas }

/-- A crystal passed its check: the PLLs that wait for one move to it. -/
def Block.crystalPass (b : Block) (x : Bool) : Block :=
  let b := { b with clk := { b.clk with noref := false } }.flag pgCPC 2
  if b.pwr.stage == .check then b.startPlls x
  else
    let b := if b.clk.coast && !b.clk.locking then b.relockOn x else b
    if b.tu.noref && !b.clk.tLocking then
      let b := b.tpllTo x
      if x == b.tuRef then b else b.enterHoldover
    else b

/-- A window fails; when the PLLs' crystal has tripped and is unusable, a failing window of the other one stops all checks (R349). -/
def Block.windowFail (b : Block) (x : Bool) : Block :=
  let b := { b with clk := b.clk.withXchk x (b.clk.xchk x).restart }
  if b.clk.tripped && b.clk.coast && b.clk.refUsed != x && !(b.clk.xchk b.clk.refUsed).checked then
    ({ b with clk := { b.clk with chkStopped := true } }.flag pgCPC 3).clkLog 4 (if x then 1 else 0)
  else b

/-- DPLL and MPLL lose their crystal x: they coast, and relock on the other one if it has passed its check (R349). -/
def Block.pllsLose (b : Block) (x : Bool) : Block :=
  if b.clk.refUsed != x then b
  else
    let b := b.enterCoast
    let b := { b with clk := { b.clk with tripped := true, locking := false } }
    if (b.clk.xchk (!x)).checked then b.relockOn (!x) else { b with clk := { b.clk with noref := true } }.flag pgCPC 1

/-- The TPLL loses its crystal x: it moves to the other one if that has passed its check, or coasts (R178, R179). -/
def Block.tpllLose (b : Block) (x : Bool) : Block :=
  if b.clk.tRefUsed != x then b
  else if (b.clk.xchk (!x)).checked then (b.tpllTo (!x)).enterHoldover
  else
    let b := { b with clk := { b.clk with lockT := false, tLocking := false }, tu := { b.tu with noref := true } }
    b.enterHoldover

/-- Monitor M0 or M1 trips (R348, R349, R178, R179); `still`: the crystal still toggles. -/
def Block.crystalTrip (b : Block) (x : Bool) (still : Bool) : Block :=
  let c := b.clk.withXchk x (b.clk.xchk x).restart
  let b := (({ b with clk := c }.setPresent (xBit x) still).flag pgCPC 4).clkLog 1 (if x then 1 else 0)
  if b.pllsOn then (b.pllsLose x).tpllLose x else b

/-- A count differs from C_ref by more than MON_TOL. -/
def Block.offRef (b : Block) (cref c : Nat) : Bool :=
  decide (cref * (b.regFld pgCPC 0x068 31 24).toNat < ((c : Int) - cref).natAbs * 1000)

/-- XCHK_WINDOW on the block. -/
def effXchkWindow (b : Block) (x : Bool) (count : BitVec 20) : Block :=
  if !b.fioOn || b.clk.fioBad || b.clk.chkStopped then b
  else
    let c := count.toNat
    let k := { b.clk.xchk x with meas := count }
    let b := { b with clk := b.clk.withXchk x k }.setPresent (xBit x) (c != 0)
    let p := b.reg pgCPC 0x068
    if k.checked then (if b.offRef k.cref c then b.crystalTrip x (c != 0) else b)
    else if !nearE (b.regFld pgCPC 0x064 15 0).toNat (fld p 20 16).toNat c ||
        (match k.prev with
          | some q => !steady c q (fld p 15 0).toNat
          | none => false) then b.windowFail x
    else
      let n := k.passes + 1
      if (fld p 23 21).toNat ≤ n then
        { b with clk := b.clk.withXchk x { k with checked := true, passes := n, prev := some c, cref := c } }.crystalPass x
      else { b with clk := b.clk.withXchk x { k with passes := n, prev := some c } }

/-- XCHK_WINDOW. -/
def execXchkWindow (x : Bool) (count : BitVec 20) (s : State) : Host.Outcome State Fault Refusal :=
  .next { s with blk := effXchkWindow s.blk x count }

/-! ### Monitor trips (R348) -/

/-- CRYSTAL_MONITOR_TRIP on the block: 256 FIO cycles without an edge. M0 and M1 run once their crystal has been judged; in a wake,
until FIO is judged, the lock detectors of the PLLs trip the monitor of the crystal they use (R361). -/
def effCrystalMonitorTrip (b : Block) (x : Bool) : Block :=
  let detector := (b.pwr.stage == .waking || b.pwr.stage == .opening) && !b.fioOn && b.clk.refUsed == x
  if (b.fioOn || detector) && (b.clk.xchk x).checked then b.crystalTrip x false else b

/-- CRYSTAL_MONITOR_TRIP. -/
def execCrystalMonitorTrip (x : Bool) (s : State) : Host.Outcome State Fault Refusal :=
  .next { s with blk := effCrystalMonitorTrip s.blk x }

/-- FIO_MONITOR_TRIP on the block (R348). Whether FIO still toggles is a free value (log 30). -/
def effFioMonitorTrip (b : Block) : Block :=
  if !b.fioOn || b.clk.fioBad then b
  else (({ b with clk := { b.clk with fioBad := true } }.setPresent 1 (!Config.tripStopped 2 b.clk.ns)).flag pgCPC 4).clkLog 1 2

/-- FIO_MONITOR_TRIP. -/
def execFioMonitorTrip (s : State) : Host.Outcome State Fault Refusal := .next { s with blk := effFioMonitorTrip s.blk }

/-- FIO_BAD_CLEARED on the block. -/
def effFioBadCleared (b : Block) : Block :=
  if b.clk.fioBad then { b with clk := { b.clk with fioBad := false } }.setPresent 1 true else b

/-- FIO_BAD_CLEARED. -/
def execFioBadCleared (s : State) : Host.Outcome State Fault Refusal := .next { s with blk := effFioBadCleared s.blk }

/-- The input of the DCLK multiplexer in CPC_SRCSTAT. -/
def Clk.dclkBit (c : Clk) : Nat := if c.dclkUsed then 5 else 4

/-- DCLK_MONITOR_TRIP on the block (R348); whether its source still toggles is a free value (log 30). While the DPLL drives DCLK and still runs, DCLK moves
to the MPLL, which must run too, and the DPLL relocks, at once or with the end of coasting. -/
def effDclkMonitorTrip (b : Block) : Block :=
  if !b.pllsOn || b.clk.mhz = 0 then b
  else
    let c := b.clk
    let stopped := Config.tripStopped 3 c.ns
    let b := if c.dclkUsed || stopped || !bit c.present 5 then b
      else { b with clk := { c with dpllBad := true, dclkUsed := true, lockD := false, locking := c.locking || !c.coast, slewing := false,
                                    delayD := b.delayOf 1 } }
    ((b.setPresent c.dclkBit (!stopped)).flag pgCPC 4).clkLog 1 3

/-- DCLK_MONITOR_TRIP. -/
def execDclkMonitorTrip (s : State) : Host.Outcome State Fault Refusal := .next { s with blk := effDclkMonitorTrip s.blk }

/-! ### The DPLL's frequency (R350) -/

/-- TARGET as it is stored: a multiple of 25 from 400 to 1,600. -/
def targetOf (v : Nat) : BitVec 11 := BitVec.ofNat 11 (max 400 (min 1600 (v / 25 * 25)))

/-- A write of TARGET starts a slew; the DPLL that coasts or relocks takes TARGET then. -/
def Block.startSlew (b : Block) : Block :=
  if b.clk.lockD && !b.clk.coast then { b with clk := { b.clk with slewing := true } } else b

/-- SLEW_DONE on the block: the DPLL has reached TARGET. -/
def effSlewDone (b : Block) : Block :=
  if b.clk.slewing && b.clk.mhz == b.target then { b with clk := { b.clk with slewing := false } }.flag pgCPC 7 else b

/-- SLEW_DONE. -/
def execSlewDone (s : State) : Host.Outcome State Fault Refusal := .next { s with blk := effSlewDone s.blk }

/-- A microsecond of a slew: one MHz towards TARGET. -/
def Block.slewStep (b : Block) : Block :=
  if !b.clk.slewing || b.clk.mhz = b.target then b
  else { b with clk := { b.clk with mhz := if b.clk.mhz.toNat < b.target.toNat then b.clk.mhz + 1 else b.clk.mhz - 1 } }

/-! ### Multiplexers (R351, R352) -/

/-- A multiplexer hangs: the watchdog's 64 SIO cycles begin (R352). -/
def Block.hang (b : Block) (m : Mux) : Block := { b with clk := { b.clk with hung := some m, hungAt := b.clk.ns } }

/-- The reference of DPLL and MPLL is switched by software; leaving a crystal that has stopped hangs the multiplexer. -/
def Block.switchRef (b : Block) (x : Bool) : Block :=
  if b.clk.refUsed = x || !(b.clk.xchk x).checked then b
  else if b.clk.coast then b.relockOn x
  else if bit b.clk.present (xBit (!x)) then { b with clk := { b.clk with refUsed := x } }
  else b.enterCoast.hang .dref

/-- DCLK is switched by software. -/
def Block.switchDclk (b : Block) (sel : Bool) : Block :=
  if b.clk.dclkUsed = sel || !b.pllsOn then b
  else if bit b.clk.present b.clk.dclkBit then { b with clk := { b.clk with dclkUsed := sel } }
  else b.hang .dclk

/-- MCLK is switched by software; until the MPLL is judged it runs from FIO. -/
def Block.switchMclk (b : Block) (sel : Bool) : Block :=
  if b.clk.mclkUsed = sel || !b.pllsOn then b
  else if bit b.clk.present (if sel then 5 else 1) then { b with clk := { b.clk with mclkUsed := sel } }
  else b.hang .mclk

/-- A write of CPC_SRC lands. -/
def Block.cpcSrcSet (b : Block) : Block :=
  let v := b.reg pgCPC 0x040
  if b.clk.hung.isSome then b
  else ((b.switchRef (bit v 0)).switchDclk (bit v 1)).switchMclk (bit v 2)

/-- CPC_CMD RECHECK (R349). -/
def Block.recheck (b : Block) : Block :=
  let go (k : XCheck) : XCheck := if k.checked then k else k.restart
  { b with clk := { b.clk with chkStopped := false, xa := go b.clk.xa, xb := go b.clk.xb } }

/-- A write of TU_CTL lands (R178): the TPLL goes to the selected crystal if it has passed its check. -/
def Block.tuCtlSet (b : Block) : Block :=
  let r := b.tuRef
  let b := if b.tuFollow then b else { b with tu := { b.tu with goodRevs := 0, badRevs := 0, remove := 0, removeLeft := 0 } }
  if b.tu.onBkp then b
  else if (b.clk.xchk r).checked then (if b.clk.tRefUsed = r && b.clk.lockT then b else b.tpllTo r).leaveHoldover
  else if b.clk.tRefUsed = r && !b.tu.noref then b.leaveHoldover
  else b

/-! ### Clock observation (R353, R183) -/

/-- The period of an observable source in ps: SIO, FIO, XA, XB, DCLK, MCLK, TPLL. -/
def Block.srcPs (b : Block) (sel : Nat) : Nat :=
  match sel with
  | 0 => 30517578
  | 1 => 5000
  | 2 | 3 => 10 ^ 9 / (b.regFld pgCPC 0x064 15 0).toNat
  | 4 => 10 ^ 6 / max 1 b.dclkMhz
  | 5 => if b.clk.mclkUsed then 5000 else 2500
  | _ => 1000

/-- CPC_MON as it is set: SEL and DIV_M1. -/
def Block.monSet (b : Block) : BitVec 3 × BitVec 16 := (b.regFld pgCPC 0x078 3 1, b.regFld pgCPC 0x078 31 16)

/-- A nanosecond of the observation output: SEL and DIV_M1 are taken when the current output period ends, at once while EN is 0. -/
def Block.monTick (b : Block) : Block :=
  let now := 1000 * b.clk.ns
  if b.clk.mon = b.monSet && !b.regBit pgCPC 0x078 0 then b
  else if !b.regBit pgCPC 0x078 0 then { b with clk := { b.clk with mon := b.monSet, monEnd := now } }
  else if now < b.clk.monEnd then b
  else { b with clk := { b.clk with mon := b.monSet, monEnd := now + b.srcPs b.monSet.1.toNat * (b.monSet.2.toNat + 1) } }

/-- What MON_OUT carries. -/
inductive MonOut where
  /-- The tick (R183): high during a pulse. -/
  | tick (high : Bool)
  /-- A source divided by `div`; above 1 with a duty cycle of 50 % (R353). -/
  | source (sel : BitVec 3) (div : Nat)
  | low
  deriving DecidableEq, Repr

/-- MON_OUT: the tick while it is enabled or its last pulse lasts, else the observed source in force; held low for SEL 7. What it carries
with EN = 0 is not stated: low (DESIGN CHOICE, log 87). -/
def Block.monOut (b : Block) : MonOut :=
  if b.monPreempted then .tick b.tu.tickEnd.isSome
  else if !b.regBit pgCPC 0x078 0 || b.clk.mon.1 == 7 then .low
  else .source b.clk.mon.1 (b.clk.mon.2.toNat + 1)

/-! ### Gating (R354) -/

/-- How many units of a kind there are. -/
def gateCount : GateUnit → Nat
  | .station => 8
  | .dport => 4
  | .writer => 4
  | .xlate => 1
  | _ => 16

/-- The cycles a unit is idle before it gates (Table 13-5). -/
def gateIdle : GateUnit → Nat
  | .writer => 32
  | .xlate => 32
  | _ => 16

/-- A unit's number among all units that gate. -/
def gateKey (u : GateUnit) (i : Nat) : Nat :=
  i + (match u with
    | .station => 0
    | .pendBank => 16
    | .engine => 32
    | .ctxBank => 48
    | .dport => 64
    | .writer => 80
    | .xlate => 96)

/-- A unit has work, or a unit before it sends it an early wake (Table 13-5). -/
def Block.unitBusy (b : Block) (u : GateUnit) (i : Nat) : Bool :=
  match u with
  | .station =>
    let s := b.station i
    !(s.intake.isEmpty && s.wired.isNone && s.reentry.isEmpty && s.resumedMsg.isEmpty && s.resumedWired.isEmpty && s.parked.isEmpty &&
      s.fills.isEmpty && s.refreshes.isEmpty && s.outq.cells.isEmpty && s.inv.isNone) ||
      (b.coll (2 * i)).raise != 0 || (b.coll (2 * i + 1)).raise != 0
  | .pendBank => (List.range 15).any (b.pendElig i)
  | .engine =>
    let g := b.engine i
    !(g.inq.isEmpty && g.mcq.isEmpty && g.insq.cells.isEmpty && g.recq.cells.isEmpty && g.lanes.cells.isEmpty)
  | .ctxBank =>
    let k := b.bank i
    !(k.in16.isEmpty && k.car17.isEmpty && k.resq.isEmpty && k.spills.isEmpty) || (List.range 16).any (fun n => !((b.engine n).ins i).isEmpty)
  | .dport => (List.range 16).any (b.dportElig i)
  | .writer =>
    let w := b.writer i
    !(w.recs.isEmpty && w.out.isEmpty && w.ready.isEmpty && w.wbq.isEmpty && w.idxWait.isEmpty) || (List.range 16).any (b.intakeElig i)
  | .xlate => !(b.xl.walkers.cells.isEmpty && b.xl.waitq.isEmpty && b.xl.inv.isNone && b.xl.reports.isEmpty)

/-- The units that gate. -/
def gateUnits : List (GateUnit × Nat) :=
  [.station, .pendBank, .engine, .ctxBank, .dport, .writer, .xlate].flatMap fun u => (List.range (gateCount u)).map fun i => (u, i)

/-- A DCLK cycle of the gating: units with work run and are not idle. -/
def Block.gateCycle (b : Block) : Block :=
  let busy := gateUnits.filter fun p => b.unitBusy p.1 p.2
  { b with clk := { b.clk with busyAt := busy.foldl (fun m p => m.insert (gateKey p.1 p.2) b.clk.dclk) b.clk.busyAt,
                               gated := b.clk.gated.filter fun p => !busy.contains (p.1, p.2.val) } }

/-- A unit wakes: work or a register access has come for it (R354). -/
def Block.ungate (b : Block) (u : GateUnit) (i : Nat) : Block :=
  { b with clk := { b.clk with gated := b.clk.gated.filter fun p => !(p.1 == u && p.2.val == i),
                               busyAt := b.clk.busyAt.insert (gateKey u i) b.clk.dclk } }

/-- The unit's clock stands: it has been gated and no work has come since. -/
def Block.clockStopped (b : Block) (u : GateUnit) (i : Fin 16) : Bool := b.clk.gated.contains (u, i) && !b.unitBusy u i

/-- The unit has been idle for the cycles of Table 13-5 and may gate. -/
def Block.mayGate (b : Block) (u : GateUnit) (i : Nat) : Bool :=
  b.dpOn && decide (i < gateCount u) && !b.regBit pgCPC 0x07C 0 && !b.unitBusy u i &&
    decide (b.clk.busyAt.get 0 (gateKey u i) + gateIdle u ≤ b.clk.dclk)

/-- UNIT_GATE on the block: an idle unit gates, or a unit's early wake comes. Gating changes nothing that software sees. -/
def effUnitGate (b : Block) (u : GateUnit) (i : Fin 16) (gate : Bool) : Block :=
  if !gate then b.ungate u i.val
  else if b.mayGate u i.val && !b.clk.gated.contains (u, i) then { b with clk := { b.clk with gated := (u, i) :: b.clk.gated } }
  else b

/-- UNIT_GATE. -/
def execUnitGate (u : GateUnit) (i : Fin 16) (gate : Bool) (s : State) : Host.Outcome State Fault Refusal :=
  .next { s with blk := effUnitGate s.blk u i gate }

end Sys2Proof.Machine
end

