-- ==== Sys2Proof/Machine/Ringmaster.lean ====
section
/-! DEFINITION. The Ringmaster (chapter 14): sensors, the retention log, the mailbox and its commands, presence and the seal. -/

namespace Sys2Proof.Machine

/-! ### The Ringmaster's register accesses (chapter 14; identity 3, Table 12-4) -/

/-- A register write of the Ringmaster at an offset of a page: it passes the Turnstile under identity 3 and has its effect, or is refused,
recorded, and answered with an error; on a page with ENABLE = 0 it has none. Answers whether it passed. -/
def Block.rmWrite (b : Block) (pg off : Nat) (f : Block → Block) : Block × Bool :=
  if !b.admits false 3 pg (off / 4) true then (b.deny 3 pg .base off true, false)
  else if 0x40 ≤ off && !(b.hdr pg).enable then (b.pgErr pg .lockviol 3 (errOff .base off) true, true)
  else (f b, true)

/-- Register writes of a page one after the other, up to the first that the Turnstile refuses. -/
def Block.rmWrites (pg : Nat) : List (Nat × (Block → Block)) → Block → Block × Bool
  | [], b => (b, true)
  | (off, f) :: r, b =>
    match b.rmWrite pg off f with
    | (b, true) => Block.rmWrites pg r b
    | (b, false) => (b, false)

/-! ### Sensors (R372, R373) -/

/-- A record of class SENSOR. -/
def Block.sensorLog (b : Block) (code : BitVec 8) (src : Nat) (v : Word) : Block :=
  b.rmLog 9 code (BitVec.ofNat 16 src) (v.setWidth 128)

/-- A reading in eighths of a degree. -/
def eighths (v : Word) : Int := (fld v 15 0).toInt

/-- Throttling starts: TARGET is kept and 400 written. -/
def Block.throttle (b : Block) (i : Nat) (v : Word) : Block :=
  if b.rm.throttled || !b.regBit pgRM 0x06C 16 then b
  else
    let b := { b with rm := { b.rm with throttled := true, kept := b.reg pgCPC 0x04C, cool := 0 } }
    (b.rmWrite pgCPC 0x04C fun b => (b.setReg pgCPC 0x04C 400).startSlew).1.sensorLog 5 i v

/-- One thermal sample: it reaches WARN or CRIT when the sample before it was below. -/
def Block.sampleTemp (b : Block) (i : Nat) (t : BitVec 16) : Block :=
  let v : Word := t.setWidth 32 ||| 0x10000
  let old := b.rm.temp.get 0 i
  let b := { b with rm := { b.rm with temp := b.rm.temp.set 0 i v } }
  let lim := b.reg pgRM 0x06C
  let reaches (deg : Nat) : Bool :=
    decide ((8 * deg : Int) ≤ eighths v) && (!bit old 16 || decide (eighths old < (8 * deg : Int)))
  let b := if reaches (fld lim 7 0).toNat then (b.flag pgRM 6).sensorLog 1 i v else b
  if reaches (fld lim 15 8).toNat then (((b.flag pgRM 6).sensorLog 2 i v).rasEvent 19).throttle i v else b

/-- The limits of a voltage monitor in mV: LOW below the first, HIGH above the second (Table 14-2). -/
def Params.voltLimits (p : Params) (i : Nat) : Nat × Nat :=
  if i < 12 then (p.vddDpMv * 95 / 100, p.vddDpMv * 105 / 100)
  else if i < 14 then (760, p.vddAonMv * 105 / 100)
  else if i = 14 then (720, 65535)
  else (p.mon15Low, p.mon15High)

/-- One voltage sample; an alarm that is not set yet is told. -/
def Block.sampleVolt (b : Block) (i : Nat) (v : BitVec 16) : Block :=
  let old := b.rm.volt.get 0 i
  let (lo, hi) := b.prm.voltLimits i
  let low := decide (v.toNat < lo)
  let high := decide (hi < v.toNat)
  let w : Word := v.setWidth 32 ||| 0x10000 ||| flagAt (bit old 17 || low) 17 ||| flagAt (bit old 18 || high) 18
  let b := { b with rm := { b.rm with volt := b.rm.volt.set 0 i w } }
  let b := if low && !bit old 17 then (b.flag pgRM 7).sensorLog 3 (0x100 + i) w else b
  if high && !bit old 18 then (b.flag pgRM 7).sensorLog 4 (0x100 + i) w else b

/-- Every valid reading is below WARN. -/
def Block.allCool (b : Block) : Bool :=
  let warn := (fld (b.reg pgRM 0x06C) 7 0).toNat
  b.rm.temp.cells.all fun p => decide (eighths p.2 < (8 * warn : Int))

/-- The throttle ends after 1,000 cool samples. -/
def Block.coolDown (b : Block) : Block :=
  if !b.rm.throttled then b
  else if !b.allCool then { b with rm := { b.rm with cool := 0 } }
  else if b.rm.cool + 1 < 1000 then { b with rm := { b.rm with cool := b.rm.cool + 1 } }
  else
    let v := b.rm.kept
    let b := { b with rm := { b.rm with throttled := false, cool := 0 } }
    (b.rmWrite pgCPC 0x04C fun b => (b.setReg pgCPC 0x04C v).startSlew).1.sensorLog 6 0 0

/-- The items of a list with their places. -/
def placed {α : Type} : Nat → List α → List (Nat × α)
  | _, [] => []
  | i, x :: r => (i, x) :: placed (i + 1) r

/-- SENSOR_SAMPLE on the block: the samples of a processed revolution; they are held while the Ringmaster restarts (Table 14-1). -/
def effSensorSample (b : Block) (temps volts : List (BitVec 16)) : Block :=
  if !b.rm.onDuty || b.rmFrozen || !b.rm.due then b
  else
    let b := { b with rm := { b.rm with due := false } }
    let b := (placed 0 (temps.take 8)).foldl (fun b p => b.sampleTemp p.1 p.2) b
    let b := (placed 0 (volts.take 16)).foldl (fun b p => b.sampleVolt p.1 p.2) b
    b.coolDown

/-- SENSOR_SAMPLE. -/
def execSensorSample (temps volts : List (BitVec 16)) (s : State) : Host.Outcome State Fault Refusal :=
  .next { s with blk := effSensorSample s.blk temps volts }

/-- A write of RM_THERM clears the sticky alarms. -/
def Block.clearAlarms (b : Block) : Block :=
  { b with rm := { b.rm with volt := b.rm.volt.mapVals fun _ v => v &&& 0x1FFFF } }

/-! ### The retention log (R374) -/

/-- LOG_WRITE on the block. -/
def effLogWrite (b : Block) : Block :=
  let r := b.rm
  match r.logq with
  | [] => b
  | x :: rest =>
    { b with rm := { r with logq := rest, log := r.log.insert r.logNext.toNat { x with seq := r.logSeq }, logNext := r.logNext + 1,
                            logSeq := r.logSeq + 1, logCount := if r.logCount.toNat < 2048 then r.logCount + 1 else r.logCount } }

/-- LOG_WRITE. -/
def execLogWrite (s : State) : Host.Outcome State Fault Refusal := .next { s with blk := effLogWrite s.blk }

/-- The 32 bytes of a record (Table 14-3). -/
def LogRec.bytes (r : LogRec) : List Byte :=
  leBytes 8 r.gt.toNat ++ leBytes 4 r.seq.toNat ++ leBytes 1 r.cls.toNat ++ leBytes 1 r.code.toNat ++ leBytes 2 r.src.toNat ++
    leBytes 16 r.data.toNat

/-- RM_LOG_DATA i of the selected slot; an empty slot reads 0. -/
def Block.logData (b : Block) (i : Nat) : Word :=
  match b.rm.log.find? (b.regFld pgRM 0x064 10 0).toNat with
  | some r => leBits 32 ((r.bytes.drop (4 * i)).take 4)
  | none => 0

/-! ### Presence, the seal, the Awl port (R386 to R388) -/

/-- A record of class PRESENCE. -/
def Block.presLog (b : Block) (code : BitVec 8) (id : BitVec 5) : Block := b.rmLog 4 code (id.setWidth 16) 0

/-- The Awl port is disabled. -/
def Block.awlOff (b : Block) (id : BitVec 5) : Block :=
  if b.rm.awlEn then { b with rm := { b.rm with awlEn := false, awl := {} } }.presLog 7 id else b

/-- The grant ends: its fields clear with it. -/
def Block.endGrant (b : Block) (id : BitVec 5) : Block :=
  match b.rm.grant with
  | none => b
  | some _ =>
    let b := { b with rm := { b.rm with grant := none } }
    (((b.setReg pgPWR 0x070 0).flag pgRM 4).presLog 2 id).awlOff id

/-- Seconds left in the open grant. -/
def Block.grantLeft (b : Block) : Nat :=
  match b.rm.grant with
  | some t => (t - b.clk.ns + 10 ^ 9 - 1) / 10 ^ 9
  | none => 0

/-- GRANT_EXPIRY on the block. -/
def effGrantExpiry (b : Block) : Block :=
  match b.rm.grant with
  | some t => if t ≤ b.clk.ns then b.endGrant b.rm.owner else b
  | none => b

/-- GRANT_EXPIRY. -/
def execGrantExpiry (s : State) : Host.Outcome State Fault Refusal := .next { s with blk := effGrantExpiry s.blk }

/-- The seal breaks: the grant ends, the Awl port is disabled. -/
def Block.breakSeal (b : Block) : Block :=
  if b.rm.sealBroken then b
  else
    let b := { b with rm := { b.rm with sealBroken := true } }
    let b := ((b.presLog 3 b.rm.owner).endGrant b.rm.owner).awlOff b.rm.owner
    if b.pwr.onBkp then { b with pwr := { b.pwr with sealSeen := true } } else b.flag pgRM 5

/-- SEAL_BREAK: PD0 is powered. -/
def execSealBreak (s : State) : Host.Outcome State Fault Refusal :=
  .next { s with blk := if s.blk.pwr.stage == .held && !s.blk.pwr.onBkp then s.blk else s.blk.breakSeal }

/-- A command that needs a grant is refused without one (R387). -/
def Block.needGrant (b : Block) : Option (BitVec 8) :=
  if b.rm.grant.isSome then none else if b.rm.sealBroken then some 4 else some 3

/-! ### The mailbox (R376 to R379) -/

def mbOk : BitVec 8 := 0
def mbBadop : BitVec 8 := 1
def mbBadArg : BitVec 8 := 2
def mbNoPresence : BitVec 8 := 3
def mbSealBroken : BitVec 8 := 4
def mbNotHeld : BitVec 8 := 5
def mbFault : BitVec 8 := 6
def mbFormat : BitVec 8 := 7
def mbSigBad : BitVec 8 := 8
def mbStoreErr : BitVec 8 := 9
def mbLevel : BitVec 8 := 10
def mbRefusedRes : BitVec 8 := 11
def mbAborted : BitVec 8 := 12

/-- A mailbox write is refused. -/
def Block.mbxRefuse (b : Block) : Block := b.flag pgRM 2

/-- The mailbox is released. -/
def Block.mbxRelease (b : Block) : Block := { b with rm := { b.rm with heldBy := false } }

/-- The owner is this identity. -/
def Rm.ownedBy (r : Rm) (id : BitVec 5) : Bool := r.heldBy && r.owner == id

/-- Write words to MBX_DATA from 0 on. -/
def putData (m : Map Word) (ws : List Word) : Map Word := (placed 0 ws).foldl (fun m p => m.set 0 p.1 p.2) m

/-- The version of the running slot; the recovery firmware has none. -/
def Rm.version (r : Rm) : Word := if r.recovery then 0 else if r.slotB then r.fwB else r.fwA

/-- A command ends: its result, its response, MBX_DONE; an UPDATE record but for INFO. -/
def Block.mbxEnd (b : Block) (op : BitVec 8) (id : BitVec 5) (res : BitVec 8) (resp : List Word) (version : Word) : Block :=
  let r := { b.rm with busy := none, fw := none, done := true, result := res, rlen := BitVec.ofNat 8 resp.length,
                       data := putData b.rm.data resp, idleAt := b.clk.ns }
  let b := { b with rm := r }.flag pgRM 0
  if op = 1 then b else b.rmLog 8 op (id.setWidth 16) (res.setWidth 128 ||| at' version 32)

/-- A command that lacks a grant ends; the refusal is recorded. -/
def Block.mbxNoGrant (b : Block) (op : BitVec 8) (id : BitVec 5) (res : BitVec 8) (version : Word := b.rm.version) : Block :=
  (b.presLog (if res = mbSealBroken then 5 else 4) id).mbxEnd op id res [] version

/-- A write of MBX_OWN lands (R376, R378). -/
def Block.mbxOwn (b : Block) (id : BitVec 5) (v : Word) : Block :=
  let b := if !bit v 0 then b
    else if b.rm.heldBy then b.mbxRefuse
    else { b with rm := { b.rm with heldBy := true, owner := id, data := .empty, done := false, result := 0, rlen := 0,
                                    idleAt := b.clk.ns } }
  if !bit v 1 then b else if b.rm.ownedBy id then b.mbxRelease else b.mbxRefuse

/-- MBX_IDLE_TIMEOUT on the block. -/
def effMbxIdleTimeout (b : Block) : Block :=
  if !b.rm.heldBy || b.rm.busy.isSome || b.rmFrozen || b.clk.ns < b.rm.idleAt + 10 ^ 7 then b
  else (b.mbxRelease.flag pgRM 1).rmLog 10 1 (b.rm.owner.setWidth 16) 0

/-- MBX_IDLE_TIMEOUT. -/
def execMbxIdleTimeout (s : State) : Host.Outcome State Fault Refusal := .next { s with blk := effMbxIdleTimeout s.blk }

/-- The candidate's reads have no owner any more: those that are issued answer to nobody, the others are not made. -/
def Block.fwDrop (b : Block) : Block :=
  match b.rm.fw with
  | none => b
  | some f =>
    let b := match f.phase with
      | some ph => b.orphan .fw ph {}
      | none => b
    { b with rm := { b.rm with fw := none }
             xl := { b.xl with waitq := b.xl.waitq.filter fun q : XReq => q.cont != Cont.fw
                               walkers := b.xl.walkers.mapVals fun _ w => { w with waiting := w.waiting.map fun q : XReq =>
                                 if q.cont = Cont.fw then { q with cont := .stale } else q } } }

/-- The Ringmaster restarts (R371): a running command is aborted, the mailbox released, a load in pass 1 ends; its SRAM is loaded anew. -/
def Block.rmRestart (b : Block) (boot : BitVec 8) : Block :=
  let b := b.fwDrop
  let b := match b.rm.busy with
    | some m => (b.mbxEnd m.op m.id mbAborted [] b.rm.version).rmLog 10 2 (m.id.setWidth 16) 0
    | none => b
  let b := b.mbxRelease
  let b := { b with rm := { b.rm with ready := false, boot } }
  if b.last.activity == .pass1 then b.loadErr { reason := 23 } else b

/-- RINGMASTER_RESTART. -/
def execRingmasterRestart (s : State) : Host.Outcome State Fault Refusal :=
  .next { s with blk := if s.blk.rm.ready then s.blk.rmRestart 3 else s.blk }

/-- Management events held during the restart are received (Table 14-1). -/
def Block.heldEvents (b : Block) : Block :=
  let b' := b.rm.evHeld.foldl Block.evenLog b
  { b' with rm := { b'.rm with evHeld := [] } }

/-! ### The firmware store (R380, R383) -/

/-- A number of a store header (Table 14-13). -/
def hdrNum (h : List Byte) (off n : Nat) : Nat := leNat ((h.drop off).take n)

/-- A copy's CRC is valid. -/
def hdrOk (h : List Byte) : Bool := h.length == 64 && decide ((BitVec.ofNat 32 (hdrNum h 0x3C 4) : Word) = crc32c (h.take 0x3C))

/-- A write count is newer than another. -/
def newerThan (a c : Word) : Bool := decide (1 ≤ (a - c).toNat ∧ (a - c).toNat < 2 ^ 31)

/-- The copy that a start takes: the valid one, of two valid ones the newer, copy 0 of equal ones; none where neither is valid. -/
def hdrChoice (c0 c1 : List Byte) : Option (List Byte) :=
  if hdrOk c0 && hdrOk c1 then some (if newerThan (BitVec.ofNat 32 (hdrNum c1 0xC 4)) (BitVec.ofNat 32 (hdrNum c0 0xC 4)) then c1 else c0)
  else if hdrOk c0 then some c0 else if hdrOk c1 then some c1 else none

/-- A store header of a slot, MIN_VER and WCOUNT. -/
def hdrBytes (slot : Bool) (minVer wcount : Word) : List Byte :=
  let h := leBytes 4 0x534D4752 ++ leBytes 4 (if slot then 1 else 0) ++ leBytes 4 minVer.toNat ++ leBytes 4 wcount.toNat ++
    List.replicate 44 0
  h ++ leBytes 4 (crc32c h).toNat

/-- What the boot ROM takes from the store at cold reset: the header, then the ACTIVE slot if it verifies, the other slot if that
verifies with at least MIN_VER, or its recovery firmware. -/
def Rm.boots (r : Rm) (fw : FwBoot) : Rm :=
  let h := (hdrChoice fw.copy0 fw.copy1).getD (List.replicate 64 0)
  let active := decide (hdrNum h 4 4 % 2 = 1)
  let minVer : Word := BitVec.ofNat 32 (hdrNum h 8 4)
  let ver (s : Bool) : Word := if s then fw.verB else fw.verA
  let other := decide (ver (!active) ≠ 0 ∧ minVer.toNat ≤ (ver (!active)).toNat)
  { r with fwA := fw.verA, fwB := fw.verB, fwMin := minVer, wcount := BitVec.ofNat 32 (hdrNum h 0xC 4), hdr0 := fw.copy0, hdr1 := fw.copy1,
           slotB := if ver active = 0 && other then !active else active, recovery := ver active = 0 && !other }

/-- READY on the block: a cold start takes what the boot ROM found (R380, R383); the BOOT record is written, then the records of
the events that were held. -/
def effReady (b : Block) (fw : FwBoot) : Block :=
  if b.rm.ready || b.rmFrozen || b.pwr.stage == .held || b.pwr.stage == .sio || b.pwr.stage == .fio || b.pwr.stage == .backup ||
      b.pwr.stage == .scan || b.pwr.stage == .asleep || b.pwr.stage == .waking
  then b
  else
    let r := b.rm
    let r := if r.boot == 1 || r.boot == 4 then r.boots fw else r
    let r := { r with ready := true, sram := r.sram + 1 }
    let b := { b with rm := r }.rmLog 1 (if r.recovery then 5 else r.boot) 0 (r.version.setWidth 128 ||| flagAt r.slotB 32)
    if r.recovery then b else b.heldEvents

/-- READY. -/
def execReady (fw : FwBoot) (s : State) : Host.Outcome State Fault Refusal := .next { s with blk := effReady s.blk fw }

/-! ### Firmware (R381, R382) -/

/-- What checking a firmware candidate gives (R381): a result, and its VERSION. -/
def fwCheck (bytes : List Byte) : BitVec 8 × Word :=
  let num (off n : Nat) : Nat := leNat ((bytes.drop off).take n)
  let len := num 8 4
  let ver : Word := BitVec.ofNat 32 (num 4 4)
  let key := num 0xC 1
  if num 0 4 ≠ 0x574D4752 ∨ len < 128 ∨ 262144 < len ∨ len % 64 ≠ 0 ∨ bytes.length < len ∨ 1 < key then (mbFormat, ver)
  else
    let msg := bytes.take 0x40 ++ List.replicate 64 0 ++ (bytes.take len).drop 0x80
    if Config.sigValid key msg ((bytes.drop 0x40).take 64) then (mbOk, ver) else (mbSigBad, ver)

/-- A slot's version. -/
def Rm.slotVer (r : Rm) (b : Bool) : Word := if b then r.fwB else r.fwA

/-- A slot's version written. -/
def Rm.setSlot (r : Rm) (b : Bool) (v : Word) : Rm := if b then { r with fwB := v } else { r with fwA := v }

/-- The end of FW_STAGE: the candidate is checked, then written into the slot that is not active. -/
def Block.fwStaged (b : Block) (m : MbxOp) (e : MbxEnd) : Block :=
  let (r, ver) := fwCheck e.bytes
  let slot := !b.rm.slotB
  if r ≠ mbOk then b.mbxEnd m.op m.id r [] ver
  else if !e.storeOk then { b with rm := b.rm.setSlot slot 0 }.mbxEnd m.op m.id mbStoreErr [] ver
  else { b with rm := b.rm.setSlot slot ver }.mbxEnd m.op m.id mbOk [ver, flagAt slot 0] ver

/-- The lines of a candidate that FW_STAGE reads: its header's two; the image's once MAGIC and LEN are right (DEDUCED, log 92). -/
def fwLines (e : MbxEnd) : Nat :=
  let num (off n : Nat) : Nat := leNat ((e.bytes.drop off).take n)
  let len := num 8 4
  if num 0 4 ≠ 0x574D4752 ∨ len < 128 ∨ 262144 < len ∨ len % 64 ≠ 0 then 2 else len / 64

/-- Ask for the next lines of the candidate: loader reads (OP 3), at most 32, of one page (R382). -/
def Block.fwNext (b : Block) (m : MbxOp) : Block :=
  match b.rm.fw with
  | none => b
  | some f =>
    let off := f.addr.off + BitVec.ofNat 64 (64 * f.pos)
    let window := min 32 (min (f.need - f.pos) (64 - off.toNat / 64 % 64))
    let b := { b with rm := { b.rm with fw := some { f with window } } }
    match startRead b window { seg := f.addr.seg, off, op := opLoad, cont := .fw } with
    | (b, .inl ph) => { b with rm := { b.rm with fw := b.rm.fw.map fun f : FwRead => { f with phase := some ph } } }
    | (b, .inr _) => b.mbxEnd m.op m.id mbFault [] 0

/-- FW_STAGE starts to read. -/
def Block.fwStart (b : Block) (m : MbxOp) : Block :=
  let addr : SegAddr := { seg := fld (m.args.getD 0 0) 5 0, off := m.args.getD 2 0 ++ m.args.getD 1 0 }
  ({ b with rm := { b.rm with fw := some { addr } } }).fwNext m

/-- The lines asked for have been read: the next ones follow, or the command ends, at a line in error with FAULT. -/
def Block.fwTaken (b : Block) (m : MbxOp) (f : FwRead) (e : MbxEnd) : Block :=
  let bad := e.stop.any fun l => decide (f.pos ≤ l ∧ l < f.pos + f.window)
  let b := b.freeLines f.window
  let pos := f.pos + f.window
  let need := if pos < 2 then 2 else fwLines e
  let b := { b with rm := { b.rm with fw := some { f with pos, need, phase := none } } }
  if bad then b.mbxEnd m.op m.id mbFault [] 0
  else if need ≤ pos then b.fwStaged m e
  else b.fwNext m

/-- FW_STAGE goes on with what memory answers. -/
def Block.fwRun (b : Block) : Nat → Block
  | 0 => b
  | fuel + 1 =>
    match b.rm.busy, b.rm.fw with
    | some m, some f => match f.data, f.phase with
      | some e, some ph => if ph.isIssued then Block.fwRun (b.fwTaken m f e) fuel else b
      | _, _ => b
    | _, _ => b

/-- What memory and the store answer to FW_STAGE reaches it. -/
def Block.fwData (b : Block) (e : MbxEnd) : Block :=
  ({ b with rm := { b.rm with fw := b.rm.fw.map fun f : FwRead => { f with data := some (f.data.getD e) } } }).fwRun 4098

/-- The walk of FW_STAGE's page has ended: with an address, or with a fault that has been reported. -/
def Block.fwWalked (b : Block) (res : Option (BitVec 64 × Bool)) : Block :=
  match b.rm.busy, b.rm.fw with
  | some m, some f =>
    if f.phase != some .walk then b
    else match res with
      | none => b.mbxEnd m.op m.id mbFault [] 0
      | some (pa, dev) =>
        let r := gotAddr b f.window .fw pa dev
        (r.1.setPhase .fw r.2).fwRun 4098
  | _, _ => b

/-- The end of FW_ACTIVATE: the header is written, the Ringmaster restarts from the slot. -/
def Block.fwActivated (b : Block) (m : MbxOp) (e : MbxEnd) : Block :=
  let slot := bit (m.args.getD 0 0) 0
  let ver := b.rm.slotVer slot
  if !e.storeOk then b.mbxEnd m.op m.id mbStoreErr [] ver
  else
    let h := hdrBytes slot ver (b.rm.wcount + 1)
    let b := { b with rm := { b.rm with slotB := slot, fwMin := ver, wcount := b.rm.wcount + 1, recovery := false, hdr0 := h, hdr1 := h } }
    (b.mbxEnd m.op m.id mbOk [] ver).rmRestart 3

/-! ### Images (R384, R385) -/

/-- The signature of an image (R384): a result. -/
def lastSig (l : List (Nat × Byte)) : BitVec 8 :=
  let g := imgOf l
  match g.dir.find? (·.id == 8) with
  | none => mbFormat
  | some d =>
    let key := (g d.off).toNat
    if d.len < 128 ∨ (key ≠ 2 ∧ key ≠ 3) then mbFormat
    else
      let msg := (List.range g.total).map fun i =>
        if (0x1C ≤ i ∧ i < 0x20) ∨ (d.off ≤ i ∧ i < d.off + d.len) then 0 else g i
      if Config.sigValid key msg (g.bytes (d.off + 64) 64) then mbOk else mbSigBad

/-- A command that the image state machine refused or failed: the code stands in DATA2. -/
def Block.mbxRefusedBy (b : Block) (m : MbxOp) (code : Word) : Block :=
  b.mbxEnd m.op m.id mbRefusedRes [m.args.getD 0 0, m.args.getD 1 0, code] b.rm.version

/-- A command ends because the Turnstile refused one of its register accesses: with which result is not stated (log 90). -/
def Block.mbxDenied (b : Block) (m : MbxOp) : Block := b.mbxEnd m.op m.id (Config.deniedResult m.op) [] b.rm.version

/-- LAST_UPDATE starts: the image's place is written and LOAD issued, with identity 3. -/
def Block.lastUpdate (b : Block) (m : MbxOp) : Block :=
  if !(b.hdr pgLAST).level then b.mbxEnd m.op m.id mbLevel [] b.rm.version
  else
    let put (off : Nat) (v : Word) : Nat × (Block → Block) := (off, fun b => b.setReg pgLAST off v)
    match b.rmWrites pgLAST [put 0x044 (m.args.getD 0 0 &&& 0x3F), put 0x048 (m.args.getD 1 0 &&& 0xFFFFFFC0),
        put 0x04C (m.args.getD 2 0)] with
    | (b, false) => b.mbxDenied m
    | (b, true) =>
      let refused := b.lastRefusal 1
      match b.rmWrite pgLAST 0x040 (fun b => b.lastCmd 1 true), refused with
      | (b, false), _ => b.mbxDenied m
      | (b, true), some e => b.mbxRefusedBy m (e.setWidth 32)
      | (b, true), none => b

/-- The end of LAST_UPDATE: the staged image's signature decides. -/
def Block.lastUpdated (b : Block) (m : MbxOp) : Block :=
  let l := b.last
  if l.activity == .pass1 || l.activity == .pass2 then b
  else if !l.load.rm || l.load.pass1.isEmpty || l.inactive != .staged then b.mbxRefusedBy m (l.reason.setWidth 32)
  else
    let ver := b.other.version
    let res := lastSig l.load.pass1
    if res ≠ mbOk then b.mbxEnd m.op m.id res [] ver
    else
      let b := { b with rm := if l.active then { b.rm with verA := true } else { b.rm with verB := true } }
      if !bit (m.args.getD 3 0) 0 then b.mbxEnd m.op m.id mbOk [ver, flagAt (!l.active) 0] ver
      else match b.rmWrite pgLAST 0x040 fun b => b.lastCmd 2 true with
        | (b, true) => b.mbxEnd m.op m.id mbOk [ver, flagAt (!l.active) 0] ver
        | (b, false) => b.mbxDenied m

/-- The offsets of the BASIC registers. -/
def basicOffs : List Nat := [0x100, 0x104, 0x108, 0x10C, 0x110, 0x114] ++ (List.range 16).map fun i => 0x140 + 4 * i

/-- A BASIC register takes its reset value; a held write of it goes. -/
def Block.basicReset (b : Block) (off : Nat) : Block :=
  let b := b.setReg pgLAST off (resetOf pgLAST off)
  { b with fab := { b.fab with held := b.fab.held.filter fun h => !(h.pg == pgLAST && h.off == off) } }

/-- LAST_FACTORY, with identity 3: ABORT where the image state machine works, basic level, the BASIC registers, BUILD. -/
def Block.lastFactory (b : Block) (m : MbxOp) : Block :=
  match b.needGrant with
  | some r => b.mbxNoGrant m.op m.id r
  | none =>
    let abort := if b.last.activity == .idle then [] else [(0x040, fun b : Block => b.lastCmd 4 true)]
    let level := (0x008, fun b : Block => b.setHdr pgLAST { b.hdr pgLAST with level := false })
    match b.rmWrites pgLAST (abort ++ level :: basicOffs.map fun o => (o, fun b : Block => b.basicReset o)) with
    | (b, false) => b.mbxDenied m
    | (b, true) =>
      let refused := b.lastRefusal 5
      match b.rmWrite pgLAST 0x040 (fun b => b.lastCmd 5 true), refused with
      | (b, false), _ => b.mbxDenied m
      | (b, true), some e => b.mbxRefusedBy m (e.setWidth 32)
      | (b, true), none => b.mbxEnd m.op m.id mbOk [] b.rm.version

/-! ### The commands (Table 14-5) -/

/-- PRESENCE_OPEN. -/
def Block.presenceOpen (b : Block) (m : MbxOp) : Block :=
  if !b.rm.presentSec then (b.presLog 4 m.id).mbxEnd m.op m.id mbNotHeld [] b.rm.version
  else if b.rm.sealBroken then b.mbxNoGrant m.op m.id mbSealBroken
  else
    let s := (b.regFld pgRM 0x050 11 0).toNat
    let b := { b with rm := { b.rm with grant := some (b.clk.ns + s * 10 ^ 9) } }
    ((b.flag pgRM 3).presLog 1 m.id).mbxEnd m.op m.id mbOk [BitVec.ofNat 32 s] b.rm.version

/-- LOG_CLEAR. -/
def Block.logClear (b : Block) (m : MbxOp) : Block :=
  match b.needGrant with
  | some r => b.mbxNoGrant m.op m.id r
  | none =>
    let last := b.rm.logSeq - 1
    let b := { b with rm := { b.rm with log := .empty, logCount := 0, logSeq := 0 } }
    (b.rmLog 11 0 (m.id.setWidth 16) (last.setWidth 128)).mbxEnd m.op m.id mbOk [] b.rm.version

/-- AWL. -/
def Block.awlCmd (b : Block) (m : MbxOp) : Block :=
  if bit (m.args.getD 0 0) 0 then
    match b.needGrant with
    | some r => b.mbxNoGrant m.op m.id r
    | none =>
      let b := { b with rm := { b.rm with awlEn := true } }
      (b.presLog 6 m.id).mbxEnd m.op m.id mbOk [] b.rm.version
  else (b.awlOff m.id).mbxEnd m.op m.id mbOk [] b.rm.version

/-- FW_ACTIVATE: its argument, then the grant of a downgrade; the store's answer ends it. -/
def Block.fwActivate (b : Block) (m : MbxOp) : Block :=
  let a := m.args.getD 0 0
  let ver := b.rm.slotVer (bit a 0)
  if 1 < a.toNat || ver = 0 then b.mbxEnd m.op m.id mbBadArg [] ver
  else if ver.toNat < b.rm.fwMin.toNat then
    match b.needGrant with
    | some r => b.mbxNoGrant m.op m.id r ver
    | none => b
  else b

/-- A command starts; those that wait on memory, the store or a load leave it busy (R379). -/
def Block.mbxRun (b : Block) (m : MbxOp) : Block :=
  let segOk := decide ((m.args.getD 0 0).toNat < 64)
  let ends (b : Block) (r : BitVec 8) : Block := b.mbxEnd m.op m.id r [] b.rm.version
  let served := !b.rm.recovery || [1, 3, 4, 5, 8, 9].contains m.op.toNat
  if !served then ends b mbBadop
  else match m.op.toNat with
    | 0x01 => b.mbxEnd m.op m.id mbOk
        [b.rm.version, flagAt b.rm.slotB 0 ||| flagAt b.rm.recovery 1, b.rm.fwMin, b.rm.fwA, b.rm.fwB] b.rm.version
    | 0x03 => b.logClear m
    | 0x04 => if segOk then b.fwStart m else ends b mbBadArg
    | 0x05 => b.fwActivate m
    | 0x06 => if segOk then b.lastUpdate m else ends b mbBadArg
    | 0x07 => b.lastFactory m
    | 0x08 => b.presenceOpen m
    | 0x09 => ends (b.endGrant m.id) mbOk
    | 0x0A => b.awlCmd m
    | _ => ends b mbBadop

/-- A write of MBX_CMD lands (R371, R377, R379). -/
def Block.mbxCmd (b : Block) (id : BitVec 5) (v : Word) : Block :=
  if !b.rm.ready || !b.rm.ownedBy id || b.rm.busy.isSome then b.mbxRefuse
  else
    let m : MbxOp := { op := fld v 7 0, id, args := (List.range 4).map fun i => b.rm.data.get 0 i }
    ({ b with rm := { b.rm with busy := some m, done := false } }).mbxRun m

/-- A write of MBX_DATA lands. -/
def Block.mbxData (b : Block) (id : BitVec 5) (i : Nat) (v : Word) : Block :=
  if b.rm.ownedBy id then { b with rm := { b.rm with data := b.rm.data.set 0 i v } } else b.mbxRefuse

/-- MBX_COMMAND_END on the block: what a command waited for has come. -/
def effMbxCommandEnd (b : Block) (e : MbxEnd) : Block :=
  match b.orphanDone .fw with
  | some b => b
  | none => match b.rm.busy with
    | some m =>
      if b.rmFrozen then b
      else match m.op.toNat with
        | 0x04 => b.fwData e
        | 0x05 => b.fwActivated m e
        | 0x06 => b.lastUpdated m
        | _ => b
    | none => b

/-- MBX_COMMAND_END. -/
def execMbxCommandEnd (e : MbxEnd) (s : State) : Host.Outcome State Fault Refusal :=
  .next { s with blk := effMbxCommandEnd s.blk e }

/-! ### The Awl port's shifts (R388) -/

/-- AWL_ADDR on the block: a read starts, or a write is armed. -/
def effAwlAddr (b : Block) (d : Word) : Block :=
  if !b.rm.awlEn || b.rmFrozen then b
  else
    let a := { b.rm.awl with word := fld d 20 2, armed := bit d 31 }
    let a := if bit d 31 then a else { a with op := some none, done := false, err := false, denied := false }
    { b with rm := { b.rm with awl := a } }

/-- AWL_ADDR. -/
def execAwlAddr (d : Word) (s : State) : Host.Outcome State Fault Refusal := .next { s with blk := effAwlAddr s.blk d }

/-- AWL_DATA on the block: an armed write starts. -/
def effAwlData (b : Block) (d : Word) : Block :=
  if !b.rm.awlEn || b.rmFrozen || !b.rm.awl.armed then b
  else { b with rm := { b.rm with awl := { b.rm.awl with armed := false, op := some (some d), done := false, err := false, denied := false } } }

/-- AWL_DATA. -/
def execAwlData (d : Word) (s : State) : Host.Outcome State Fault Refusal := .next { s with blk := effAwlData s.blk d }

end Sys2Proof.Machine
end

