-- ==== Sys2Proof/Machine/Ras.lean ====
section
/-! DEFINITION. Start-up, resets and error handling (chapter 15): cold and partial starts, warm reset and data-plane restart,
array errors, RAS reports. A start's last step (DP_READY) and errors in trackers are in the event file. -/

namespace Sys2Proof.Machine

/-! ### An empty data plane (R398, R357) -/

/-- A station holds nothing. -/
def Station.idle (s : Station) : Bool :=
  s.intake.isEmpty && s.wired.isNone && s.reentry.isEmpty && s.resumedMsg.isEmpty && s.resumedWired.isEmpty && s.parked.isEmpty &&
    s.fills.isEmpty && s.refreshes.isEmpty && s.outq.cells.isEmpty

/-- An engine holds nothing but its shadow counts. -/
def Engine.idle (e : Engine) : Bool := e == { replay := e.replay, prefetch := e.prefetch }

/-- A context bank holds nothing but its wake filter. -/
def CBank.idle (k : CBank) : Bool := k == { filter := k.filter }

/-- A writer holds nothing but dirty-log writes, whose acceptance has no command (log 47). -/
def Writer.idle (w : Writer) : Bool :=
  w.recs.isEmpty && w.ready.isEmpty && w.out.all MemWrite.isLog && w.wbq.isEmpty && w.idxWait.isEmpty

/-- A lane has no operation on its way to the block or in it, and no answer on its way back. -/
def Thread.idle (h : Thread) : Bool := !h.trk && h.upq.isEmpty && h.up.isEmpty && h.ops.isEmpty && h.respCh.isEmpty

/-- A Juwa port holds no frame. -/
def JPort.idle (j : JPort) : Bool := j.trk.isEmpty && j.rx0.isEmpty && j.rx1.isEmpty && j.ctl.isEmpty && !j.time

/-- No operation of Table 1-4 is in flight; every intake FIFO, queue and hold buffer is empty. -/
def Block.dpEmpty (b : Block) : Bool :=
  (b.stn.cells.all fun p => p.2.idle) && (b.eng.cells.all fun p => p.2.idle) && (b.cb.cells.all fun p => p.2.idle) &&
    (b.wr.cells.all fun p => p.2.idle) && b.idxFly.cells.isEmpty && b.hold.isEmpty && b.loads.cells.isEmpty &&
    b.leave.cells.isEmpty && (b.csg.cells.all fun p => !p.2.busy) && (b.thr.cells.all fun p => p.2.idle) &&
    (b.ctx.cells.all fun p => p.2.refill.isNone) && b.xl.walkers.cells.isEmpty && b.xl.waitq.isEmpty && b.xl.trkWait.isEmpty &&
    b.xl.orphans.isEmpty && b.fab.masks.isEmpty && b.jp.cells.all fun p => p.2.idle

/-! ### The restart (R399 to R401) -/

/-- The writes of a push have been issued whole, so that memory takes them. -/
def Block.pushIssued (b : Block) (s : Spill) : Bool :=
  let k := b.writer (s.ctx.toNat % 4)
  match s.ph with
  | .written _ => !(k.wbq.any (·.kind == .spill s.ctx)) && !(k.ready.any (·.m.kind == .spill s.ctx))
  | _ => false

/-- What a restart gives up: items of the stations, arrivals, inserts, record requests and frames in the engines' queues, operations of
the context banks, held inserts, pushes and records that are not issued, loads, records that leave, handoffs. -/
def Block.inWork (b : Block) : Nat :=
  let stn (s : Station) : Nat :=
    s.intake.length + s.reentry.length + s.resumedMsg.length + s.resumedWired.length + s.parked.length +
      (if s.wired.isSome then 1 else 0) + (s.outq.cells.map fun q => q.2.length).sum
  let eng (e : Engine) : Nat :=
    e.inq.length + e.mcq.length + (e.insq.cells.map fun q => q.2.length).sum + (e.recq.cells.map fun q => q.2.length).sum +
      (e.lanes.cells.map fun l => l.2.vc0.length + l.2.pin.length + l.2.vc1.length).sum
  let bank (k : CBank) : Nat := k.in16.length + k.car17.length + k.resq.length + k.spills.countP fun s => !b.pushIssued s
  let wr (w : Writer) : Nat := w.recs.countP fun x => x.trk && x.ph != .issued
  (b.stn.cells.map fun p => stn p.2).sum + (b.eng.cells.map fun p => eng p.2).sum + (b.cb.cells.map fun p => bank p.2).sum +
    (b.wr.cells.map fun p => wr p.2).sum + b.hold.length + b.loads.cells.length + b.leave.cells.length +
    b.csg.countP fun _ c => c.target.isSome

/-- A station after a restart: its responses are sent with ERR, everything else of it is empty. -/
def Station.restarted (s : Station) : Station :=
  { rsps := s.rsps.map fun r => if r.tok = 0 then r else { r with code := some 1 }
    rspOut := s.rspOut, inv := s.inv, invCount := s.invCount, lastTag := s.lastTag, lastCause := s.lastCause, lastPage := s.lastPage,
    lastOff := s.lastOff, sweepSet := s.sweepSet, sweepGt := s.sweepGt }

/-- The stations and collectors; an event left pending and not masked waits for the scan that presents it (step 6). -/
def Block.restartIngress (b : Block) : Block :=
  { b with stn := b.stn.remap {} fun _ s => s.restarted
           col := b.col.remap {} fun _ x => { x with raise := 0, sample := [] }
           pend := b.pend.remap {} fun _ p => { p with fl := if p.p && !p.m then some { looking := true, scan := true } else none } }

/-- The Juwa ports go down; frames in transit are lost, those that began here stay pending. -/
def Block.restartJuwa (b : Block) : Block :=
  let transit (l : List LaneFrame) : List LaneFrame := l.filter (·.local?.isNone)
  let b := { b with eng := b.eng.mapVals fun _ e => { e with inq := [], mcq := [], lanes := e.lanes.mapVals fun _ l =>
    { vc0 := transit l.vc0, pin := transit l.pin, vc1 := transit l.vc1 } } }
  (List.range 4).foldl Block.goDown b

/-- A command on a context that is not to be found ends with FAULT (R401). -/
def Block.loseMove (b : Block) (p : Nat × CsgCmd) : Block :=
  if p.2.busy && p.2.target.isSome then
    let c := p.2.ctx
    ((b.leaveSeat c).eraseRec c).csgEnd p.1 c resFault
  else b

/-- A record that was leaving is lost; its command ends with FAULT, its seat is empty (R401). -/
def Block.loseLeave (b : Block) (p : Nat × Leave) : Block :=
  let b := match p.2.x.seat with
    | some i => if (b.seatOf i).ctx = some (BitVec.ofNat 16 p.1) then b.setSeat i { b.seatOf i with ctx := none } else b
    | none => b
  match p.2.why with
  | .unload g => b.csgEnd g (BitVec.ofNat 16 p.1) resFault
  | _ => b

/-- Loads, records that leave and handoffs end (R401). Contexts that an entry to Intermission had written back come back (log 93). -/
def Block.restartResidency (b : Block) : Block :=
  let loads := b.loads.cells
  let leaves := b.leave.cells
  let saved := b.pwr.saved.filter fun x => (b.leave.find? x.ctx.toNat).isNone
  let b := { b with loads := .empty, leave := .empty, pwr := { b.pwr with saved } }
  let b := loads.foldl (fun b p =>
    let c : CtxNo := BitVec.ofNat 16 p.1
    ((b.leaveSeat c).eraseRec c).endLoad c p.2 resFault) b
  b.csg.cells.foldl Block.loseMove (leaves.foldl Block.loseLeave b)

/-- Context banks: queues and wake filters empty; pushes not issued are lost (R401). -/
def Block.restartBanks (b : Block) : Block :=
  let lost := b.cb.cells.flatMap fun p => (p.2.spills.filter fun s => !b.pushIssued s).map Spill.ctx
  let b := { b with cb := b.cb.remap {} fun _ k => { spills := k.spills.filter b.pushIssued }, hold := []
                    ctx := b.ctx.mapVals fun _ x => { x with refill := x.refill.map fun r => { r with phase := .walk } } }
  lost.foldl Block.spillDrop b

/-- Channels with a log entry that memory has not accepted take OVF (R400). -/
def Block.restartLog (b : Block) : Block :=
  let ofReq (q : XReq) : Option (BitVec 6) := match q.cont with
    | .log _ c _ => some c
    | _ => none
  let ofWrite (m : MemWrite) : Option (BitVec 6) := match m.kind with
    | .log c => some c
    | _ => none
  let chs := (b.xl.waitq ++ b.xl.walkers.cells.flatMap fun w => w.2.waiting).filterMap ofReq ++
    b.wr.cells.flatMap fun w => (w.2.out ++ w.2.ready.map PortWrite.m).filterMap ofWrite
  chs.eraseDups.foldl (fun b c =>
    let d := b.dlCh c.toNat
    ((b.setDlCh c.toNat { d with ovf := true }).flag pgVMGR 5).vifCause d.vif.toNat 5) b

/-- A write of the save area. -/
def MemWrite.isSave (m : MemWrite) : Bool := match m.kind with
  | .saveRing _ | .saveCtx _ => true
  | _ => false

/-- Rings with records in staging that are not issued act as R246 states, without becoming FAULTED (R400). Writes that are issued
complete; those of the save area have no command that says so. -/
def Block.restartRings (b : Block) : Block :=
  let b := { b with wr := b.wr.mapVals fun _ w => { w with wbq := [], ready := [], idxWait := [], out := w.out.filter fun m => !m.isSave } }
  let rs := (b.wr.cells.flatMap fun w => (w.2.recs.filter (·.ph != .issued)).map Staged.ring).eraseDups
  rs.foldl Block.ringBack b

/-- The translation unit: no entry, no walk, nothing that waits. -/
def Block.restartXlate (b : Block) : Block :=
  let b := tlbRemove b fun _ => true
  { b with xl := { b.xl with walkers := .empty, waitq := [], trkWait := [], orphans := [], setGrants := 0,
                             inv := b.xl.inv.map fun _ => { walks := [], held := {} } },
           otherFills := 0 }

/-- An access of a thread that had no answer is answered with an error (R399). -/
def Thread.restarted (h : Thread) : Thread :=
  { coreRsp := if h.readOut || h.wide.isSome || !h.held.isEmpty then some { err := true } else h.coreRsp }

/-- The slice links restart (R206). -/
def Block.restartSlices (b : Block) : Block :=
  { b with seat := b.seat.remap {} fun _ s => s.linkReset, thr := b.thr.remap {} fun _ h => h.restarted, up := []
           csg := b.csg.mapVals fun _ x => { x with old := none } }

/-- A load that is read ends as ABORT ends it (R401); reads of FW_STAGE are not answered any more, so it ends with FAULT, which no
rule says of it (DESIGN CHOICE, log 92). -/
def Block.restartReads (b : Block) : Block :=
  let b := if !b.last.load.build && (b.last.activity == .pass1 || b.last.activity == .pass2) then b.lastAbort else b
  match b.rm.busy with
  | some m => if b.rm.fw.isSome then b.fwDrop.mbxEnd m.op m.id mbFault [] 0 else b
  | none => b

/-- The ring restore and the reload read anew what they were reading (R399); an entry to Intermission writes nothing more. -/
def Block.restartSave (b : Block) : Block :=
  let p := b.pwr
  let again := p.back.cells.map Prod.fst
  { b with pwr := { p with saveq := .empty, saveRing := .empty, wrote := false, back := .empty, ctxBack := .empty,
                           ringFront := again ++ p.ringFront, ringEarly := p.ringEarly.filter fun l => !again.contains l } }

/-- An access through an absolute page that waits at the register port for its context bank is answered with an error (R399). -/
def Block.restartPort (b : Block) : Block :=
  match b.fab.ask with
  | .bank _ => { b with fab := { b.fab with ask := .none, askOld := false, done := none, q := b.fab.q.drop 1, rsp := some { err := true } } }
  | _ => b

/-- A data-plane restart begins (R399). ABANDONED counts nothing where nothing was in flight. -/
def Block.startRestart (b : Block) (cause : BitVec 3) : Block :=
  let n : Nat := if b.dpEmpty then 0 else b.inWork
  let intermission := b.pwr.intermission && b.pwr.stage != .entry
  let b := { b with pwr := { b.pwr with stage := .restart, busy := false, at_ := b.clk.dclk, intermission },
                    ras := { b.ras with dpReady := false, cause, epoch := b.ras.epoch + 1, scan := .empty,
                                        abandoned := satAdd 0 n },
                    clk := { b.clk with gated := [] } }
  let b := (b.restartIngress.restartJuwa.restartResidency.restartLog.restartReads)
  let b := b.restartBanks.restartXlate
  let b := { b.restartRings with pays := .empty, ages := .empty, eng := b.eng.remap {} fun _ e => { replay := e.replay, prefetch := e.prefetch } }
  let b := b.restartSlices.restartSave.restartPort
  b.rasEvent 21

/-- A data-plane restart of a data plane that has started (R399). -/
def Block.dpRestart (b : Block) (cause : BitVec 3) : Block :=
  match b.pwr.stage with
  | .run | .entry | .opening | .drain | .restart => b.startRestart cause
  | _ => b

/-- Asserted level lines are sampled (R84). -/
def Block.sampleLevels (b : Block) : Block :=
  (List.range 16).foldl (fun b c =>
    b.raiseLines c (b.active c (b.coll c).sync &&& b.lcBits c 0x040 &&& b.lcBits c 0x050) 0) b

/-- Events that the scan presents: P = 1 and M = 0, in order, by bank. -/
def Block.scanList (b : Block) : Map (List Event) :=
  let es := b.pend.cells.filterMap fun p => if p.2.p && !p.2.m then some (BitVec.ofNat 20 p.1 : Event) else none
  es.foldl (fun m e => m.upd [] (evBank e) (· ++ [e])) .empty

/-- RESTART_END on the block. A restart during the wake from Intermission ends in the wake: the stations open with WOKE (R361). -/
def effRestartEnd (b : Block) : Block :=
  if b.pwr.stage != .restart || b.clk.dclk < b.pwr.at_ + 4096 then b
  else
    let warm := b.ras.cause == 3 || b.ras.cause == 4
    let stage : Stage := if b.pwr.intermission then .opening else .run
    let b := { b with pwr := { b.pwr with stage }, ras := { b.ras with dpReady := true, scan := b.scanList } }
    let b := if warm then ({ b.setReg pgGLB 0x054 1 with fab := { (b.setReg pgGLB 0x054 1).fab with stopped := false } }).flag pgRAS 4 else b
    let b := b.sampleLevels.flag pgRAS 5
    let again := b.ctx.cells.filter fun p => p.2.refill.isSome
    (again.foldl (fun b p => b.nextBucket (BitVec.ofNat 16 p.1)) b).startReloads

/-- RESTART_END. -/
def execRestartEnd (s : State) : Host.Outcome State Fault Refusal := .next { s with blk := effRestartEnd s.blk }

/-- RESTART_SCAN on the block: the next event of a bank goes to its station as a re-entry. -/
def effRestartScan (b : Block) (q : Nat) : Block :=
  match b.ras.scan.get [] q with
  | [] => b
  | e :: rest =>
    if !b.dpOn || !b.reentryRoom e then b
    else
      let b := { b with ras := { b.ras with scan := b.ras.scan.set [] q rest } }
      if (b.pendOf e).unscanned then b.reenter e else b

/-- RESTART_SCAN. -/
def execRestartScan (b : Fin 16) (s : State) : Host.Outcome State Fault Refusal := .next { s with blk := effRestartScan s.blk b }

/-! ### Warm reset (R398) -/

/-- A warm reset begins with its drain; one while another runs is absorbed, one before the block is ready is ignored
(Table 17-8). -/
def Block.warmStart (b : Block) (cause : BitVec 3) : Block :=
  if b.pwr.stage != .run && b.pwr.stage != .entry then b
  else { b with pwr := { b.pwr with stage := .drain, busy := false, intermission := false, at_ := b.clk.ns },
                ras := { b.ras with cause } }

/-- PD2 is reset: the Ringmaster restarts, the grant and the Awl port end. -/
def Block.resetPd2 (b : Block) (boot : BitVec 8) : Block :=
  let id := b.rm.owner
  ((b.rmRestart boot).endGrant id).awlOff id

/-- The register fabric logic is reset: accesses in flight are answered with an error, posted writes that have not landed are lost, and
the Turnstile forgets what its epoch waits for (R351, R344). Mask writes that a boundary has released go on (log 94). -/
def Block.resetFabric (b : Block) : Block :=
  { b with fab := { b.fab with q := [], ask := .none, askOld := false, done := none
                               rsp := if b.fab.q.isEmpty then b.fab.rsp else some { err := true }
                               posted := .empty, draining := false } }

/-- WARM_DRAIN_END on the block. -/
def effWarmDrainEnd (b : Block) : Block :=
  if b.pwr.stage != .drain || !(b.dpEmpty || decide (b.pwr.at_ + 1000 * (b.regFld pgRAS 0x040 31 16).toNat ≤ b.clk.ns)) then b
  else
    let cause := b.ras.cause
    let b := if b.dpEmpty then b.logsTaken fun _ => true else b
    (((b.flushWindows).startRestart cause).resetPd2 2).resetFabric

/-- WARM_DRAIN_END. -/
def execWarmDrainEnd (s : State) : Host.Outcome State Fault Refusal := .next { s with blk := effWarmDrainEnd s.blk }

/-! ### Cold and partial starts (R392 to R396) -/

/-- The retention log in another state of the Ringmaster. -/
def Rm.keepLog (r k : Rm) : Rm :=
  { r with log := k.log, logNext := k.logNext, logCount := k.logCount, logSeq := k.logSeq, logq := k.logq, sealBroken := k.sealBroken }

/-- A block at its reset values that keeps its build and the counts of time. -/
def Block.fresh (b : Block) : Block := { prm := b.prm, clk := { dclk := b.clk.dclk, ns := b.clk.ns } }

/-- The parts of PD0 and PD1 (R364, R396): time unit, log, seal, PWR page, snapshot. -/
def Block.keepPd01 (b : Block) : Block :=
  let f := b.fresh
  let mine (key : Nat) : Bool := key / 4096 == pgPWR || key / 4096 == pgTU
  let p := b.pwr
  -- the entries, lines and writes of an Intermission go with it
  let pwr := { p with intermission := true, busy := false, wakeAt := none, latched := 0, saveq := .empty, saveRing := .empty
                      ringsLeft := false, ringNext := 0, ringFront := [], ringEarly := [], back := .empty, lines := .empty
                      ctxBack := .empty, saved := [], asleepAcc := false, wrote := false }
  { f with tu := b.tu, rm := f.rm.keepLog b.rm, pwr
           fab := { f.fab with regs := b.fab.regs.filter fun k _ => mine k,
                               hdr := b.fab.hdr.filter fun p _ => p == pgPWR || p == pgTU } }

/-- PWR_SN. -/
def Block.pwrSn (b : Block) : Word :=
  flagAt b.pwr.onBkp 0 ||| flagAt b.pwr.aonGood 1 ||| (b.reg pgPWR 0x06C &&& 0xFFFF0000)

/-- A record of class SUPPLY. -/
def Block.supplyLog (b : Block) (code : BitVec 8) : Block := b.rmLog 3 code 0 (b.pwrSn.setWidth 128)

/-- PD0 and PD1 move to VBKP; PD2 to PD31 are held in reset, the edge latch is cleared (R364, R180). -/
def Block.switchOver (b : Block) (stage : Stage) (aonGood : Bool) : Block :=
  let was := b.pwr.onBkp
  let k := b.keepPd01
  let pwr := { k.pwr with stage, intermission := true, busy := false, onBkp := true, aonGood, dom := 3, ret := false, snSeen := true }
  let b := { k with pwr, tu := { k.tu with onBkp := true } }
  if was then b else ((b.enterHoldover).cntHalf pgPWR 0x06C true).supplyLog 1

/-- COLD_RESET on the block. With VBKP, PD0 and PD1 go on from it; otherwise nothing runs, and a log that PD0 still holds is kept
at the start (R392). -/
def effColdReset (b : Block) (vbkp : Bool) : Block :=
  if vbkp then b.switchOver .held b.pwr.aonGood
  else
    let f := b.fresh
    { f with rm := f.rm.keepLog b.rm }

/-- COLD_RESET. -/
def execColdReset (vbkp : Bool) (s : State) : Host.Outcome State Fault Refusal := .next { s with blk := effColdReset s.blk vbkp }

/-- COLD_START on the block (Table 15-1, time 0). -/
def effColdStart (b : Block) (logKept sealClosed dpGood : Bool) : Block :=
  if b.pwr.stage != .held && b.pwr.stage != .scan then b
  else
    let f := b.fresh
    let rm := if logKept then f.rm.keepLog b.rm else f.rm
    let clk := { f.clk with present := 1, judged := f.clk.ns + sioNs 64 }
    { f with rm := { rm with sealBroken := b.rm.sealBroken && !sealClosed }, clk, pwr := { f.pwr with stage := .sio, dpGood } }

/-- COLD_START. -/
def execColdStart (logKept sealClosed dpGood : Bool) (s : State) : Host.Outcome State Fault Refusal :=
  .next { s with blk := effColdStart s.blk logKept sealClosed dpGood }

/-- SIO_JUDGED on the block: SIO has run its 64 cycles, and FIO is enabled; it is judged by CPC_DELAY0 (R345, R346). -/
def effSioJudged (b : Block) : Block :=
  if b.pwr.stage != .sio || b.clk.ns < b.clk.judged then b
  else { b with pwr := { b.pwr with stage := .fio }, clk := { b.clk with judged := (b.delayOf 0).due } }

/-- SIO_JUDGED. -/
def execSioJudged (s : State) : Host.Outcome State Fault Refusal := .next { s with blk := effSioJudged s.blk }

/-- PD2 to PD4 leave reset, the checks start (Table 15-1, 2,075.2 µs). -/
def Block.atFio (b : Block) : Block :=
  { b with pwr := { b.pwr with stage := .check, dom := 0x1F }
           clk := { b.clk with present := b.clk.present ||| 3, checkAt := b.clk.ns } }

/-- FIO_USABLE on the block. -/
def effFioUsable (b : Block) : Block := if b.pwr.stage != .fio || b.clk.ns < b.clk.judged then b else b.atFio

/-- FIO_USABLE. -/
def execFioUsable (s : State) : Host.Outcome State Fault Refusal := .next { s with blk := effFioUsable s.blk }

/-- PARTIAL_COLD_START on the block (R396). -/
def effPartialColdStart (b : Block) (dpGood : Bool) : Block :=
  if !(b.pwr.stage == .backup && !b.pwr.onBkp) && !(b.pwr.stage == .dpOff && dpGood) then b
  else
    let sn := b.pwr.snSeen
    let sealed := b.pwr.sealSeen
    let b := b.keepPd01
    let b := { b with pwr := { b.pwr with dpGood, snSeen := false, sealSeen := false, ret := false }, ras := { b.ras with cause := 2 },
                      rm := { b.rm with boot := 4 } }
    let b := (b.atFio).setReg pgPWR 0x070 0
    let b := if sn then b.flag pgPWR 4 else b
    if sealed then b.flag pgRM 5 else b

/-- PARTIAL_COLD_START. -/
def execPartialColdStart (dpGood : Bool) (s : State) : Host.Outcome State Fault Refusal :=
  .next { s with blk := effPartialColdStart s.blk dpGood }

/-- PD5 to PD31 are powered. -/
def Block.dpPowered (b : Block) : Bool :=
  match b.pwr.stage with
  | .arrays | .run | .entry | .opening | .drain | .restart => true
  | _ => false

/-- DP_LOSS on the block. -/
def effDpLoss (b : Block) : Block :=
  if !b.dpPowered then b
  else
    let b := b.rasPost { gt := b.tu.ns, sev := 2, source := 20 }
    { b with pwr := { b.pwr with stage := .dpOff, dpGood := false, intermission := true, busy := false, dom := 0x1F },
             ras := { b.ras with dpReady := false }, up := [] }

/-- DP_LOSS. -/
def execDpLoss (s : State) : Host.Outcome State Fault Refusal := .next { s with blk := effDpLoss s.blk }

/-- SCAN_MODE on the block (R441): the grant and the Awl port end, every domain is held. -/
def effScanMode (b : Block) : Block :=
  let b := b.breakSeal
  let f := b.fresh
  { f with rm := { f.rm.keepLog b.rm with sealBroken := true }, pwr := { f.pwr with stage := .scan } }

/-- SCAN_MODE. -/
def execScanMode (s : State) : Host.Outcome State Fault Refusal := .next { s with blk := effScanMode s.blk }

/-- CLK_MUX_HUNG on the block (R351, R352): the watchdog has counted its 64 SIO cycles. -/
def effClkMuxHung (b : Block) (m : Mux) : Block :=
  if b.clk.hung != some m || b.clk.ns < b.clk.hungAt + sioNs 64 then b
  else
    let code : BitVec 2 := match m with
      | .dref => 1
      | .dclk => 2
      | .mclk => 3
    let b := { b with clk := { b.clk with hung := none, hungMux := code } }
    let b := ((b.cntHalf pgCPC 0x080 false).flag pgCPC 5).rasEvent 18
    let b := b.clkLog 5 (code.setWidth 16)
    match m with
    | .dref => b.relockOn (b.regBit pgCPC 0x040 0)
    | .dclk => { b with clk := { b.clk with dclkUsed := b.regBit pgCPC 0x040 1 } }.dpRestart 5
    | .mclk =>
      let b := { b with clk := { b.clk with mclkUsed := b.regBit pgCPC 0x040 2 }, ras := { b.ras with cause := 7 } }
      -- the grant is PD0's and goes on (Table 14-1)
      ((b.rmRestart 3).awlOff b.rm.owner).resetFabric

/-- CLK_MUX_HUNG. -/
def execClkMuxHung (m : Mux) (s : State) : Host.Outcome State Fault Refusal := .next { s with blk := effClkMuxHung s.blk m }

/-! ### Array errors (R402, Table 15-3) -/

/-- An injected error is consumed when the array's next error of its kind is met (R409). -/
def Block.useInject (b : Block) (source : BitVec 5) (double : Bool) : Block :=
  if b.ras.inject = some (source, double) then { b with ras := { b.ras with inject := none } }.flag pgRAS 6 else b

/-- A correctable error: counted, and reported with CE_REC = 1. -/
def Block.rasCe (b : Block) (source : BitVec 5) (index : BitVec 24) (synd : BitVec 8) (owner : OwnerNo := 0) : Block :=
  let b := b.cnt pgRAS 0x068
  if b.regBit pgRAS 0x040 0 then b.rasPost { gt := b.gt, sev := 0, source, owner, index, synd } else b

/-- The array of a source code is powered. -/
def Block.arrayOn (b : Block) (source : BitVec 5) : Bool :=
  let n := source.toNat
  if n = 0 then false
  else if n ≤ 13 then b.dpOn
  else if n = 14 then b.rm.ready
  else decide (n ≤ 16) && b.pwr.stage != .scan

/-- ECC_CE on the block. -/
def effEccCe (b : Block) (source : BitVec 5) (index : BitVec 24) (synd : BitVec 8) : Block :=
  if b.arrayOn source then (b.useInject source false).rasCe source index synd else b

/-- ECC_CE. -/
def execEccCe (src : BitVec 5) (index : BitVec 24) (synd : BitVec 8) (s : State) : Host.Outcome State Fault Refusal :=
  .next { s with blk := effEccCe s.blk src index synd }

/-- A payload that no record will carry is released and counted where its entry is (R107, R303). -/
def Block.losePay (b : Block) (i : Nat) : Block :=
  if i < 1024 then b.dropPay (i / 128) (some i) else (b.freePay (some i)).payDrop

/-- Source 1: the 16 events of the word are held; payload arrivals that had merged into one on its way are released. -/
def Block.uePend (b : Block) (index : BitVec 24) : Block :=
  let e0 := index.toNat / 16 * 16
  (List.range 16).foldl (fun b j =>
    let e : Event := BitVec.ofNat 20 (e0 + j)
    if !hasState e then b
    else
      let fl := ((b.pendOf e).fl).getD {}
      let b := (fl.pays.filterMap Arrival.pay).foldl Block.losePay (b.setPend e { p := true, m := true })
      fl.frees.foldl (fun b i => b.freePay (some i)) b) b

/-- A load is lost with its context: what its reads answer is discarded. -/
def Block.loseLoad (b : Block) (c : CtxNo) (l : LoadOp) : Block :=
  let b := match l.ph with
    | .entry ph => b.orphan (.loadEntry c) ph l.tag
    | .descs => l.descs.foldl (fun (b : Block) (d : Nat × Phase) => b.orphan (.loadDesc c d.1) d.2 l.tag) b
    | _ => b
  b.loadFail c resFault

/-- A record that leaves is lost: its command ends with FAULT, a load that waits for its slot has it (R401). -/
def Block.ueLeave (b : Block) (c : CtxNo) : Block :=
  match b.leave.find? c.toNat with
  | some l =>
    let b := { b with leave := b.leave.erase c.toNat }.loseLeave (c.toNat, l)
    match l.why with
    | .evict by_ => b.slotFree by_
    | _ => b
  | none => b

/-- A context is lost (R401): no write-back, its seat emptied, a command on it ends with FAULT. -/
def Block.ueCtx (b : Block) (c : CtxNo) : Block :=
  let b := match b.loads.find? c.toNat with
    | some l => b.loseLoad c l
    | none => b
  let b := b.ueLeave c
  match b.rec? c with
  | some x =>
    let b := match x.refill with
      | some r => b.orphan (.refill c) r.phase r.tag
      | none => b
    let move := b.csg.cells.find? fun p => p.2.busy && p.2.target.isSome && p.2.ctx == c
    let b := (b.leaveSeat c).eraseRec c
    match move with
    | some (g, _) => ((b.releaseHold c).csgEnd g c resFault)
    | none => b
  | none => b

/-- The owner of a resident context. -/
def Block.ctxOwner (b : Block) (index : BitVec 24) : OwnerNo := b.ownerOf (fld index 15 0)

/-- Source 4: the way [2:0] of set [11:3] of station [14:12] is removed. -/
def Block.ceCache (b : Block) (index : BitVec 24) : Block :=
  let k := (fld index 14 12).toNat
  let i := (fld index 11 3).toNat
  let s := b.station k
  let x := s.sets.get {} i
  b.setStation k { s with sets := s.sets.set {} i { x with ways := x.ways.erase (fld index 2 0).toNat } }

/-- Source 5: miss entry [8:0] below 384 of station [11:9], in the order in which its items wait; or reassembly entry − 384. -/
def Block.ueMiss (b : Block) (index : BitVec 24) : Block :=
  let k := (fld index 11 9).toNat
  let n := (fld index 8 0).toNat
  let s := b.station k
  if n < 384 then
    match s.parked[n]? with
    | some p => ((b.setStation k { s with parked := s.parked.erase p }).dropItem k p.item 6).release k p.item.src
    | none =>
      let held := (s.resumedMsg ++ s.resumedWired).filter (·.holds)
      match held[n - s.parked.length]? with
      | some r => (b.setStation k { s with resumedMsg := s.resumedMsg.erase r, resumedWired := s.resumedWired.erase r }).dropItem k r.item 6
      | none => b
  else
    let i := 128 * k + (n - 384)
    match b.pays.find? i with
    | none => b
    | some x =>
      let b := { b with pays := b.pays.insert i { x with bad := true } }
      -- a record that has its entries and is not written becomes padding
      let hit (y : Staged) : Bool := y.rcd.pay == some i && y.ph != .queued && y.ph != .issued
      let pads (y : Staged) : List Staged := (List.range 4).map fun j =>
        { y with rcd := padRec, idx := y.idx + BitVec.ofNat 32 j, trk := y.trk && j == 0, flt := false, ras := false,
                 ph := match y.ph with
                   | .ready pa dev => .ready (pa + BitVec.ofNat 64 (16 * j)) dev
                   | p => p }
      let gone := b.wr.cells.flatMap fun w => w.2.recs.filter hit
      let b := { b with wr := b.wr.mapVals fun _ w => { w with recs := w.recs.flatMap fun y => if hit y then pads y else [y] } }
      gone.foldl Block.dropRec b

/-- Source 6: ring [13:0]; bit 22 marks compiled fields, of the bank in bit 23. -/
def Block.ueRing (b : Block) (index : BitVec 24) : Block :=
  let r : RingNo := fld index 13 0
  if bit index 22 then
    let key : BitVec 24 := r.setWidth 24 ||| flagAt (bit index 23) 23
    let b := { b with ras := { b.ras with badRings := key :: b.ras.badRings.erase key } }
    if bit index 23 == b.last.active then b.ringFault r else b
  else (b.ringFault r).setRing r { faulted := true }

/-- Source 7. -/
def Block.ueClass (b : Block) (index : BitVec 24) : Block :=
  let key : BitVec 24 := (fld index 11 0).setWidth 24 ||| flagAt (bit index 23) 23
  { b with ras := { b.ras with badClasses := key :: b.ras.badClasses.erase key } }

/-- Source 9: both seats of a thread are emptied. -/
def Block.ueSeat (b : Block) (t : Nat) : Block :=
  let go (b : Block) (i : Nat) : Block := match (b.seatOf i).ctx with
    | some c => (b.leaveSeat c).dirty c
    | none => b
  go (go b (2 * t)) (2 * t + 1)

/-- Source 11: entry [1:0] of set [9:2]. -/
def Block.ceTlb (b : Block) (index : BitVec 24) : Block :=
  match (b.xl.tlb.get [] (fld index 9 2).toNat)[(fld index 1 0).toNat]? with
  | some e => tlbRemove b fun x => x.seg == e.seg && x.vpn == e.vpn
  | none => b

/-- A lane without its i-th frame; a frame that becomes its head by that waits from now on (R305). -/
def laneErase (b : Block) (l : List LaneFrame) (i : Nat) : List LaneFrame :=
  match i, l with
  | 0, _ :: g :: rest => { g with since := b.clk.dclk, dry := 0 } :: rest
  | i, l => l.eraseIdx i

/-- Source 13: port [13:12]; slot [11:0]: 0 to 255 of VC0's FIFO, 256 to 511 of VC1's, from 512 on 16 × engine + the place in its
lanes (0 VC0, 4 pinned, 8 VC1). -/
def Block.ueFrame (b : Block) (index : BitVec 24) : Block :=
  let p := (fld index 13 12).toNat
  let n := (fld index 11 0).toNat
  let j := b.port p
  if n < 256 then (if n < j.rx0.length then (b.setPort p { j with rx0 := j.rx0.eraseIdx n }).badFrame p (some false) else b)
  else if n < 512 then
    (if n - 256 < j.rx1.length then (b.setPort p { j with rx1 := j.rx1.eraseIdx (n - 256) }).badFrame p (some true) else b)
  else
    let e := (n - 512) / 16 % 16
    let i := n % 16
    let g := b.engine e
    let l := g.lane p
    let out (l : Lanes) : Block := b.setEngine e { g with lanes := g.lanes.set {} p l }
    let lost (b : Block) (x : Option LaneFrame) : Block := match x with
      | some x =>
        let b := b.badFrame p none
        (match x.local? with
          | some ev => (b.place ev).readPay x.pay
          | none => b).drainMc e 200
      | none => b
    if i < 4 then lost (out { l with vc0 := laneErase b l.vc0 i }) l.vc0[i]?
    else if i < 8 then lost (out { l with pin := laneErase b l.pin (i - 4) }) l.pin[i - 4]?
    else lost (out { l with vc1 := laneErase b l.vc1 (i - 8) }) l.vc1[i - 8]?

/-- Source 16: page [16:10], word [9:0]: a wake gives the register its reset value. -/
def Block.ueSnap (b : Block) (index : BitVec 24) : Block :=
  let key := regKey (fld index 16 10).toNat (4 * (fld index 9 0).toNat)
  { b with pwr := { b.pwr with snap := b.pwr.snap.map fun s => { s with regs := s.regs.erase key } } }

/-- The owner that a report of an uncorrectable error names. -/
def Block.ueOwner (b : Block) (source : BitVec 5) (index : BitVec 24) : OwnerNo :=
  match source.toNat with
  | 1 => match (b.pendOf (BitVec.ofNat 20 (index.toNat / 16 * 16))).fl with
    | some f => match f.attr with
      | some a => a.owner
      | none => 0
    | none => 0
  | 2 | 3 => b.ctxOwner index
  | 6 => (b.ringCfg (fld index 13 0)).owner
  | 10 => ownerCode (fld index 11 0).toNat
  | _ => 0

/-- The INDEX that a report shows: for compiled ring fields without the model's mark. -/
def ueIndex (source : BitVec 5) (index : BitVec 24) : BitVec 24 := if source = 6 then setBit index 22 false else index

/-- What an uncorrectable error does to its array (trackers apart). -/
def Block.ueArray (b : Block) (source : BitVec 5) (index : BitVec 24) : Block :=
  match source.toNat with
  | 1 => b.uePend index
  | 2 | 3 => b.ueCtx (fld index 15 0)
  | 4 => b.ceCache index
  | 5 => b.ueMiss index
  | 6 => b.ueRing index
  | 7 => b.ueClass index
  | 8 => { b with ras := { b.ras with badSlots := (fld index 11 0).toNat :: b.ras.badSlots.erase (fld index 11 0).toNat } }
  | 9 => b.ueSeat (fld index 10 0).toNat
  | 11 => b.ceTlb index
  | 13 => b.ueFrame index
  | 14 => b.rmRestart 3
  | 15 => { b with rm := { b.rm with log := b.rm.log.erase (fld index 10 0).toNat } }
  | 16 => b.ueSnap index
  | _ => b

/-! ### Scrubbing and reports (R404 to R407) -/

/-- The arbitrated ports that the scrubber reads at, with its index there and the words of the array behind each (R404, Tables 1-4,
15-3; log 95). -/
def scrubPorts : List (Res × Nat × Nat) :=
  (List.range 16).map (fun q => (.pendBank q, 14, 4096)) ++ (List.range 16).map (fun q => (.classBank q, 16, 2048)) ++
    (List.range 16).map (fun q => (.ctxBank q, 19, 20480)) ++ (List.range 4).map fun w => (.ringTable w, 3, 16384)

/-- SCRUB_PASS on the block: a pass starts, 16 processed revolutions after the last one did; not while one is in progress. -/
def effScrubPass (b : Block) : Block :=
  if !b.dpOn || b.regBit pgRAS 0x040 2 || b.ras.revs < 16 || !b.ras.scrub.cells.isEmpty then b
  else { b with ras := { b.ras with revs := 0, scrub := scrubPorts.foldl (fun m p => m.insert p.1.key p.2.2) .empty } }

/-- A word of a port's array has been read; the last one of all completes the pass. -/
def Block.scrubbed (b : Block) (r : Res) (i : Nat) : Block :=
  let scrub := b.ras.scrub.upd 0 r.key (· - 1)
  { b.granted r i with ras := { b.ras with scrub, passes := if scrub.cells.isEmpty then b.ras.passes + 1 else b.ras.passes } }

/-- SCRUB_PASS. -/
def execScrubPass (s : State) : Host.Outcome State Fault Refusal := .next { s with blk := effScrubPass s.blk }

/-- A record of the block's own units joins staging, or is lost (R293, R405, R240). -/
def Block.ownRecord (b : Block) (r : RingNo) (rcd : Rec) (flt ras : Bool) : Block :=
  let w := ringWriter r
  let c := b.ringCfg r
  let lost := c.order == 0 || c.owner != 0 || decide (1024 ≤ (b.writer w).used)
  if !lost then b.stage w { ring := r, owner := 0, rcd, flt, ras }
  else
    let b := if flt then (b.cnt pgXU 0x0C8).flag pgXU 1 else b
    if ras then (b.cnt pgRAS 0x070).flag pgRAS 3 else b

/-- RAS_REPORT on the block. -/
def effRasReport (b : Block) : Block :=
  match b.ras.reports with
  | [] => b
  | r :: rest =>
    let slot := b.ras.next
    let b := { b with ras := { b.ras with reports := rest, log := b.ras.log.insert slot.toNat r, next := slot + 1 } }
    let ring := b.reg pgRAS 0x048
    let ev := b.reg pgRAS 0x04C
    let prio : Prio := fld ev 21 16
    let w1 : Word := slot.setWidth 32 ||| at' r.sev 5 ||| at' r.source 7 ||| at' r.owner 12
    let b := if bit ring 15 then b.ownRecord (fld ring 13 0) { vevent := 0x00904, prio, type := 0xC, w1, gt := r.gt } false true else b
    let b := if bit ev 22 then b.ask16 { ctx := fld ev 15 0, entry := bankedEntry 0x00904 prio 0 } else b
    let b := b.ownerCause r.owner 6
    match r.sev.toNat with
    | 0 => b.flag pgRAS 0
    | 1 => (b.cnt pgRAS 0x06C).flag pgRAS 1
    | 2 =>
      let b := (b.cnt pgRAS 0x06C).flag pgRAS 2
      if b.regBit pgRAS 0x040 1 then b.setReg pgGLB 0x054 0 else b
    | _ => b

/-- RAS_REPORT. -/
def execRasReport (s : State) : Host.Outcome State Fault Refusal := .next { s with blk := effRasReport s.blk }

/-- RAS_INJECT.GO. -/
def Block.rasInject (b : Block) : Block :=
  let v := b.reg pgRAS 0x078
  let n := (fld v 4 0).toNat
  if n = 0 || 16 < n then b else { b with ras := { b.ras with inject := some (fld v 4 0, bit v 5) } }

/-- MEM_RESPONSE_UNKNOWN_ID (R429): the response is discarded and counts as a parity error of the trackers. -/
def execMemResponseUnknownId (walk : Bool) (id : BitVec 12) (s : State) : Host.Outcome State Fault Refusal :=
  .next { s with blk := if s.blk.dpOn then
    s.blk.rasPost { gt := s.blk.gt, sev := 1, source := 12, index := id.setWidth 24 ||| flagAt walk 23 } else s.blk }

end Sys2Proof.Machine
end

