-- ==== Sys2Proof/Machine/Pmu.lean ====
section
/-! DEFINITION. The performance monitor (chapter 16): the slot ledger, occupancy events, the wrap of a counter, the user page. -/

namespace Sys2Proof.Machine

/-- Slots of an account of the ledger (R417). -/
def Block.lgAdd (b : Block) (j n : Nat) : Block :=
  if n = 0 || !b.regBit pgPMU 0x040 1 then b
  else
    let (b, w) := b.pmuBump (0x400 + 8 * j) n
    if w then b.pmuWrap true j else b

/-- The head of an engine's insert queue to bank q waits for room in the residency queue or in the engine's hold buffer (R226). -/
def Block.residWaits (b : Block) (n q : Nat) : Bool :=
  match (b.engine n).ins q with
  | i :: _ => !b.insElig q n i
  | [] => false

/-- The head of the multicast queue is a frame that waits for its lane. -/
def Engine.laneWaits (g : Engine) : Bool :=
  match g.mcq with
  | m :: _ => m.members.isNone && m.rte.kind == 4
  | [] => false

/-- The account of a slot of an engine that is stopped (R414 rule 3). An insert queue that is full because its head waits for the
residency queue or a hold buffer counts there, as R226 says (DEDUCED, log 96). -/
def Block.stopAccount (b : Block) (n : Nat) : Nat :=
  let g := b.engine n
  let r := (g.inq.head?).map fun a => b.rte a.attr.cls
  if g.insq.cells.any (fun q => decide (16 ≤ q.2.length) && !b.residWaits n q.1) then 6
  else if 64 ≤ g.mcq.length then 7
  else if g.insq.cells.any (fun q => b.residWaits n q.1) then 8
  else if (r.map (b.recRoom n)) == some false then 9
  else if g.laneWaits || (r.map fun r => r.kind != 4 || b.laneRoom n r) == some false then 10
  else 15

/-- The account of a slot in which an engine has done no work (R414 rules 3 and 4). One whose arrival nothing stops and no command has
routed yet counts with the empty slots (log 6). -/
def Block.slotAccount (b : Block) (n : Nat) : Nat :=
  let g := b.engine n
  match g.inq with
  | _ :: _ => if (b.nextArrival n).isNone then b.stopAccount n else 15
  | [] =>
    if g.stalled then b.stopAccount n
    else if b.last.paused then 12 else if g.replay != 0 then 13 else if g.prefetch != 0 then 14 else 15

/-- One slot of an engine: work that is owed first, in the order of R414. -/
def Block.slot (b : Block) (n : Nat) : Block :=
  match [5, 1, 2, 3, 4].find? fun j => b.pmu.debt.get 0 (16 * n + j) != 0 with
  | some j => { b with pmu := { b.pmu with debt := b.pmu.debt.upd 0 (16 * n + j) (· - 1) } }.lgAdd j 1
  | none =>
    let j := b.slotAccount n
    let g := b.engine n
    let b := if j = 13 then b.setEngine n { g with replay := g.replay - 1 }
      else if j = 14 then b.setEngine n { g with prefetch := g.prefetch - 1 } else b
    b.lgAdd j 1

/-- Quantities of the occupancy events in a cycle (Table 16-7). -/
def Block.occupancy (b : Block) : Block :=
  if !b.regBit pgPMU 0x040 0 then b else
    let b := (List.range 8).foldl (fun b k =>
      let s := b.station k
      let b := if fifoUsed s = 0 then b else b.pmuEv 0x06 k (fifoUsed s)
      if missUsed s = 0 then b else b.pmuEv 0x07 k (missUsed s)) b
    let b := (List.range 4).foldl (fun b d =>
      let n := b.thr.countP fun t h => h.trk && t / 4 % 4 == d
      if n = 0 then b else b.pmuEv 0x10 d n) b
    (List.range 4).foldl (fun b w =>
      let n := (b.writer w).used
      if n = 0 then b else b.pmuEv 0x14 w n) b

/-- A DCLK cycle of the monitor: it pauses during a restart. -/
def Block.pmuCycle (b : Block) : Block :=
  if !b.dpOn then b else (((List.range 16).foldl Block.slot b).lgAdd 0 1).occupancy

/-- COUNTER_WRAP on the block: a counter at its largest value takes one more count. -/
def effCounterWrap (b : Block) (fixed : Bool) (i : Nat) : Block :=
  let lo := if fixed then 0x400 + 8 * (i % 16) else 0x200 + 8 * i
  let on := if fixed then b.regBit pgPMU 0x040 1 else b.pmuOn i
  if !b.dpOn || !on || b.reg pgPMU lo != 0xFFFFFFFF || b.reg pgPMU (lo + 4) != 0xFFFF then b
  else (b.pmuBump lo 1).1.pmuWrap fixed (if fixed then i % 16 else i)

/-- COUNTER_WRAP. -/
def execCounterWrap (fixed : Bool) (i : BitVec 6) (s : State) : Host.Outcome State Fault Refusal :=
  .next { s with blk := effCounterWrap s.blk fixed i.toNat }

/-- A read of the PMU user page; none: an error (R420). -/
def Block.pmuUser (b : Block) (off : Nat) : Option Word :=
  if 0x27C < off then none
  else
    let g := if off < 0x200 then off / 64 else 7
    if b.regBit pgPMU 0x040 (8 + g) then some (b.reg pgPMU (if off < 0x200 then 0x200 + off else 0x400 + (off - 0x200))) else none

end Sys2Proof.Machine
end

