-- ==== Sys2Proof/Machine/Power.lean ====
section
/-! DEFINITION. Intermission and the Safety Net (chapter 13). The wake's boundary is in the boundary file. -/

namespace Sys2Proof.Machine

/-! ### PWR registers -/

/-- PWR_RES. -/
def Block.pwrRes (b : Block) : Word := flagAt b.pwr.busy 0 ||| at' b.pwr.result 1

/-- PWR_WAKE_STAT. -/
def Block.wakeStat (b : Block) : Word :=
  b.pwr.cause.setWidth 32 ||| flagAt b.pwr.ringsRestored 8 ||| flagAt b.pwr.reloaded 9

/-- Enabled wake causes; CLOCK always is. -/
def Block.wakeEn (b : Block) : BitVec 5 := (b.regFld pgPWR 0x054 3 0).setWidth 5 ||| 0x10

/-! ### SLEEP (R356, R357) -/

def slOk : BitVec 4 := 0
def slBusy : BitVec 4 := 1
def slNotIdle : BitVec 4 := 2
def slNoSave : BitVec 4 := 3
def slNoWake : BitVec 4 := 4
def slWakePresent : BitVec 4 := 5
def slSaveFault : BitVec 4 := 6
def slBadop : BitVec 4 := 7

/-- PD0 answers accesses with an error (R363): after step 7 of the entry, while INTERMISSION is asserted. -/
def Block.accAsleep (b : Block) : Bool :=
  b.pwr.stage == .asleep || b.pwr.stage == .waking || (b.pwr.stage == .opening && b.pwr.result != slSaveFault)

/-- A management engine works: an image, a VIF, a command, an invalidation, a drain or a harvest. -/
def Block.mgmtBusy (b : Block) : Bool :=
  b.last.activity != .idle || b.vm.busy || b.xl.inv.isSome ||
    (b.vif.cells.any fun p => p.2.state == .resetting || p.2.state == .releasing || p.2.draining) ||
    (b.csg.cells.any fun p => p.2.busy) || (b.stn.cells.any fun p => p.2.inv.isSome) || b.vm.ch.cells.any fun p => p.2.harvest

/-- The edge latch holds a bit. -/
def Block.latchSet (b : Block) : Bool := b.col.cells.any fun p => p.2.pd0 != 0

/-- The crystal that GT counts is lost. -/
def Block.crystalLost (b : Block) : Bool := b.clk.noref || b.tu.noref || !bit b.clk.present (xBit b.clk.tRefUsed)

/-- An enabled wake cause is present (R356, R361): a set edge-latch bit, WAKE_REQ at its level, a WAKE frame at a wake input, the loss of
the crystal. -/
def Block.wakePresent (b : Block) : Bool :=
  (b.latchSet && b.regBit pgPWR 0x054 0) || (b.pwr.wakeReq && b.regBit pgPWR 0x054 1) || (b.pwr.wakeJuwa && b.regBit pgPWR 0x054 2) ||
    b.crystalLost

/-- SLEEP's checks. -/
def Block.sleepRefusal (b : Block) : Option (BitVec 4) :=
  firstFail
    [ (b.pwr.busy, slBusy),
      (!b.regBit pgPWR 0x048 8, slNoSave),
      (b.regFld pgPWR 0x054 3 0 == 0, slNoWake),
      (b.wakePresent, slWakePresent),
      (b.pwr.stage != .run || b.mgmtBusy, slNotIdle) ]

/-- SLEEP. -/
def Block.sleep (b : Block) : Block :=
  match b.sleepRefusal with
  | some r => { b with pwr := { b.pwr with result := r } }.flag pgPWR 1
  | none =>
    let b := b.cntHalf pgPWR 0x074 false
    let b := { b with pwr := { b.pwr with stage := .entry, busy := true, result := slOk, intermission := true, sleepGt := b.tu.ns, latched := 0,
                                          ringsRestored := false, reloaded := false, wrote := false, saved := [], lines := .empty,
                                          wakeAt := none } }
    (List.range 4).foldl Block.sendSleep b.flushWindows

/-- A write of PWR_CMD lands. -/
def Block.pwrCmd (b : Block) (v : Word) : Block :=
  if fld v 1 0 = 1 then b.sleep else { b with pwr := { b.pwr with result := slBadop } }

/-! ### Entry -/

/-- The data plane is drained (R357 step 2): nothing in flight, every flush written, the Juwa ports asleep. -/
def Block.drained (b : Block) : Bool :=
  b.dpEmpty && b.car.windows.cells.isEmpty && (b.ring.cells.all fun p => !p.2.tgtPend) &&
    b.jp.cells.all fun p => !p.2.up || (p.2.sleepSent && p.2.ackGot)

/-- The earliest deadline of a list of timers. -/
def earliest (l : List (Nat × Ctx)) : Option Gt := (l.head?).map fun p => p.2.tdl

/-- Resident contexts in the order in which they are saved: armed timers by deadline, other seated contexts, the rest. -/
def Block.saveOrder (b : Block) : List (Nat × Ctx) × List (Nat × Ctx) :=
  let timers := (b.ctx.cells.filter fun p => p.2.tarm).mergeSort fun p q => decide (p.2.tdl.toNat ≤ q.2.tdl.toNat)
  let rest := b.ctx.cells.filter fun p => !p.2.tarm
  (timers, rest.filter (fun p => p.2.seat.isSome) ++ rest.filter fun p => p.2.seat.isNone)

/-! ### The save area (R357, R232) -/

/-- An access of the save area, by a byte offset in it. -/
def Block.saveReq (b : Block) (off : Nat) (op : BitVec 4) (cont : Cont) : XReq :=
  let base : BitVec 64 := ((b.regFld pgPWR 0x050 15 0) ++ b.reg pgPWR 0x04C).setWidth 64
  { seg := b.regFld pgPWR 0x048 5 0, off := base + BitVec.ofNat 64 off, op, obj := 0xFFFF, cont }

/-- A live descriptor as 32 bytes (Table 8-6). -/
def ringBytes (x : Ring) : List Byte :=
  let w7 : Word := flagAt x.faulted 0 ||| flagAt x.ovfEp 1 ||| flagAt x.tgtPend 2 ||| at' x.tgtDelta 3
  ([x.pi, x.pub, x.ci, x.ovf, x.epDrops].flatMap fun w => leBytes 4 w.toNat) ++ leBytes 8 x.epGt.toNat ++ leBytes 4 w7.toNat

/-- A live descriptor as its 32 bytes spell it (Table 8-6). -/
def ringOfBytes (old : Ring) (bytes : List Byte) : Ring :=
  let w (i : Nat) : Word := leBits 32 ((bytes.drop (4 * i)).take 4)
  { old with pi := w 0, pub := w 1, ci := w 2, ovf := w 3, epDrops := w 4, epGt := w 6 ++ w 5, faulted := bit (w 7) 0,
             ovfEp := bit (w 7) 1, tgtPend := bit (w 7) 2, tgtDelta := fld (w 7) 23 3 }

/-- The 8 bytes of a context's entry. -/
def saveEntry (x : SaveCtx) : Nat := x.ctx.toNat + (if x.pin then 2 ^ 16 else 0) + 2 ^ 17

/-- The contexts that a line of entries names, up to an entry with VALID = 0, and whether it holds such an entry (log 12). -/
def entriesOf : Nat → List Byte → List SaveCtx × Bool
  | 0, _ => ([], false)
  | n + 1, bytes =>
    let x : BitVec 64 := leBits 64 (bytes.take 8)
    if !bit x 17 then ([], true)
    else
      let r := entriesOf n (bytes.drop 8)
      ({ ctx := fld x 15 0, pin := bit x 16 } :: r.1, r.2)

/-- Where line j of context entries lies: bank n has the lines from 320n on (log 12). -/
def ctxLineOff (j : Nat) : Nat := 0x80000 + 64 * j

/-- The lines of entries that bank q writes for its contexts; an entry with VALID = 0 follows the last one (log 12). -/
def ctxLines (q : Nat) (l : List SaveCtx) : List SaveWrite :=
  let es := (l.filter fun x => ctxBank x.ctx == q).map saveEntry
  let es := if es.length < 2560 then es ++ [0] else es
  (List.range ((es.length + 7) / 8)).map fun k =>
    { kind := .saveCtx (320 * q + k), off := ctxLineOff (320 * q + k), bytes := ((es.drop (8 * k)).take 8).flatMap (leBytes 8) }

/-- A write of the save area by writer w waits for its walk. -/
def Block.saveWalks (b : Block) (w : Nat) : Bool :=
  b.xl.waitq.any (·.cont == .save w) || b.xl.walkers.cells.any fun p => p.2.waiting.any (·.cont == .save w)

/-- The next write of writer w: a line of entries of its banks, then, when every record has left, its rings' descriptors (R357 steps 3,
4). -/
def Block.nextSave (b : Block) (w : Nat) : Option SaveWrite :=
  match b.pwr.saveq.get [] w with
  | x :: _ => some x
  | [] =>
    let n := b.pwr.saveRing.get 0 w
    if 4096 ≤ n || !b.leave.cells.isEmpty then none
    else
      let r : RingNo := BitVec.ofNat 14 (4 * n + w)
      some { kind := .saveRing r, off := 32 * r.toNat, bytes := ringBytes (b.ringOf r) }

/-- That write goes to the writer's memory port; it is not dirty-logged. -/
def Block.saveAt (b : Block) (w : Nat) (x : SaveWrite) (pa : BitVec 64) (dev : Bool) : Block :=
  let p := b.pwr
  let p := match p.saveq.get [] w with
    | _ :: rest => { p with saveq := p.saveq.set [] w rest }
    | [] => { p with saveRing := p.saveRing.upd 0 w (· + 1) }
  ({ b with pwr := p }.present w { req := 1, seg := b.regFld pgPWR 0x048 5 0, m := { kind := x.kind, pa, bytes := x.bytes, dev, tag := {} } }
    ).grantPort w 64

/-- The ports send HELLO anew after a wake. -/
def Block.wakePorts (b : Block) : Block :=
  { b with jp := b.jp.remap {} fun _ j => { peer := j.peer, peerValid := j.peerValid, theta := j.theta, delay := j.delay } }

/-- What the wake reads back: every line of descriptors, and of entries until each bank has its own (R362). -/
def Pwr.toRead (p : Pwr) : Pwr :=
  { p with ringsLeft := true, ringNext := 0, ringFront := [], ringEarly := [], back := .empty, ctxBack := .empty, saved := []
           lines := ⟨(List.range 16).map fun q => (q, 0)⟩ }

/-- The writer without its save-area writes. -/
def Writer.unsaved (w : Writer) : Writer := { w with ready := w.ready.filter fun p => !p.m.isSave, out := w.out.filter fun m => !m.isSave }

/-- A save-area write faulted: no power cycle, the wake from its 5.0 µs step (R358). -/
def Block.saveFault (b : Block) : Block :=
  let p := { b.pwr with stage := .opening, busy := false, result := slSaveFault, cause := b.pwr.latched, causeGt := b.tu.ns
                        causeNs := b.clk.ns - 5000, wakeAt := none, saveq := .empty, saveRing := .empty, wrote := false }
  ({ b with pwr := p.toRead, wr := b.wr.mapVals fun _ w => w.unsaved }.wakePorts).flag pgPWR 1

/-- Writer w goes on with its save-area writes, one after the other. -/
def Block.pumpSave (b : Block) (w : Nat) : Nat → Block
  | 0 => b
  | fuel + 1 =>
    if b.pwr.stage != .entry || !b.pwr.wrote || b.saveWalks w || (b.writer w).ready.any (·.m.isSave) then b
    else match b.nextSave w with
      | none => b
      | some x => match xlate b (b.saveReq x.off opCtxW (.save w)) with
        | (b, .ok pa dev) => Block.pumpSave (b.saveAt w x pa dev) w fuel
        | (b, .wait) => b
        | (b, .fault _ _) => b.saveFault

/-- The four writers go on. -/
def Block.pumpSaves (b : Block) : Block := (List.range 4).foldl (fun b w => b.pumpSave w 64) b

/-- Steps 2 to 4 once the data plane is drained: the earliest deadline is taken; every context leaves its bank, its seat kept in the
seat table; its entry and the descriptors are written. -/
def Block.entryStep (b : Block) : Block :=
  if b.pwr.stage != .entry || b.pwr.wrote || !b.drained then b
  else
    let (timers, rest) := b.saveOrder
    let all := timers ++ rest
    let wakeAt := (earliest timers).map fun t => t - 12000
    let saved := all.map fun p => ({ ctx := BitVec.ofNat 16 p.1, pin := p.2.pinned } : SaveCtx)
    let saveq : Map (List SaveWrite) :=
      ⟨(List.range 4).map fun w => (w, (List.range 4).flatMap fun i => ctxLines (4 * i + w) saved)⟩
    let b := { b with pwr := { b.pwr with wrote := true, wakeAt, saved, saveq, saveRing := .empty } }
    ((all.foldl (fun b p => b.leaves (BitVec.ofNat 16 p.1) .sleep) b).kickMoves).pumpSaves

/-- A stored register that the snapshot takes: RW and WONCE fields of every page but PWR. -/
def inSnapshot (key : Nat) : Bool :=
  key / 4096 != pgPWR && (match pgClass (key / 4096) with
    | some cl => (regDef cl (key % 4096)).isSome
    | none => false)

/-- The configuration snapshot (R357 step 6). -/
def Block.snapshot (b : Block) : Snap :=
  { regs := b.fab.regs.filter fun k _ => inSnapshot k
    hdr := b.fab.hdr.remap {} fun _ h => { enable := h.enable, apply := h.apply, level := h.level, even := h.even }
    held := b.fab.held, rgn := b.fab.rgn, segs := b.xl.segs }

/-- Collectors hand LC_EN, LC_POL and the raise bits of edge-type lines to PD0 (R85, R357 step 6), where the latch captures from now on. -/
def Block.toLatch (b : Block) : Block :=
  (List.range 16).foldl (fun b c =>
    let x := b.coll c
    b.setColl c { x with pd0En := b.lcBits c 0x040, pd0Pol := b.lcBits c 0x060, pd0Level := x.sync, latchOn := true,
                         pd0 := x.pd0 ||| (x.raise &&& ~~~b.lcBits c 0x050), raise := 0, sample := [] }) b

/-! ### Wake causes (R361) -/

/-- The wake causes present: WIRED and TIMER as PD0 holds them, the others as they come or came during the entry (R358). -/
def Block.causesNow (b : Block) (pins : BitVec 5) : BitVec 5 :=
  let timer := match b.pwr.wakeAt with
    | some t => decide (t.toNat ≤ b.tu.ns.toNat)
    | none => false
  flagAt (b.latchSet || bit b.pwr.latched 0) 0 ||| ((pins ||| b.pwr.latched) &&& 0x16) ||| flagAt timer 3

/-- The crystal that GT counts is lost: the TPLL coasts (R360, R179). -/
def Block.loseCrystal (b : Block) : Block :=
  let x := b.clk.tRefUsed
  let b := { b with clk := b.clk.withXchk x (b.clk.xchk x).restart, tu := { b.tu with noref := true } }
  (b.setPresent (xBit x) false).enterHoldover

/-- The first enabled cause starts the wake; every cause present is recorded. FIO starts 0.5 µs later and is judged by CPC_DELAY0. -/
def Block.startWake (b : Block) (pins : BitVec 5) : Block :=
  let cause := b.causesNow pins
  if b.pwr.stage != .asleep || cause &&& b.wakeEn == 0 then b
  else
    let p := { b.pwr with stage := .waking, cause, causeGt := b.tu.ns, causeNs := b.clk.ns, dom := b.pwr.dom ||| 8 }
    let b := { b with pwr := p, clk := { b.clk with judged := b.clk.ns + 500 + (b.delayOf 0).len } }
    if bit cause 4 then b.loseCrystal else b

/-- Steps 6 and 7: nothing but PD0, PD1 and the arrays of PD29 stays on; a cause that came during the entry starts the wake at once. -/
def Block.enterSleep (b : Block) : Block :=
  let b := { b.toLatch with pwr := { b.pwr with snap := some b.snapshot } }
  let first : BitVec 5 := if b.latchSet then 1 else 0
  let on (pg : Nat) : Bool := pg == pgPWR || pg == pgTU
  let p := { b.pwr with stage := .asleep, busy := false, result := slOk, dom := 0x20000003, ret := true, saved := [], saveRing := .empty
                        entryNs := (b.tu.ns - b.pwr.sleepGt).setWidth 32, latched := b.pwr.latched ||| first }
  { b with
    pwr := p
    stn := .empty, eng := .empty, cb := .empty, wr := .empty, thr := .empty, jp := .empty, up := [], ring := .empty, ages := .empty
    otherFills := 0, seat := b.seat.remap {} fun _ s => s.linkReset
    xl := { segs := b.xl.segs }
    fab := { b.fab with log := .empty, logNext := 0, stopped := false, draining := false, posted := .empty
                        hdr := b.fab.hdr.filter fun pg _ => on pg }
    rm := { b.rm with ready := false, boot := 3, heldBy := false, busy := none, fw := none, data := .empty, temp := .empty, volt := .empty,
                      throttled := false, cool := 0 }
    ras := { b.ras with scrub := .empty }
    clk := { b.clk with present := b.clk.present &&& 0xD, gated := [], slewing := false, locking := false, tLocking := false } }.startWake 0

/-- Every write of steps 3 and 4 has left its port. -/
def Block.saveDone (b : Block) : Bool :=
  (List.range 4).all fun w => (b.pwr.saveq.get [] w).isEmpty && b.pwr.saveRing.get 0 w == 4096 && !(b.writer w).ready.any (·.m.isSave)

/-- INTERMISSION_ENTER on the block; `accepted`: memory has accepted every write of steps 3 and 4 that went out. -/
def effIntermissionEnter (b : Block) (accepted : Bool) : Block :=
  let b := b.entryStep.pumpSaves
  if b.pwr.stage != .entry || !b.pwr.wrote || !b.saveDone || !accepted then b
  else
    let k := { b with wr := b.wr.mapVals fun _ w => w.unsaved }
    if k.drained then k.enterSleep else b

/-- INTERMISSION_ENTER. -/
def execIntermissionEnter (accepted : Bool) (s : State) : Host.Outcome State Fault Refusal :=
  .next { s with blk := effIntermissionEnter s.blk accepted }

/-! ### Wake (R361, R362) -/

/-- WAKE_CAUSE on the block. A cause that comes during entry is kept for its end (R358); outside Intermission the levels are what SLEEP's
check sees. -/
def effWakeCause (b : Block) (pins : BitVec 5) : Block :=
  match b.pwr.stage with
  | .entry => { b with pwr := { b.pwr with latched := b.pwr.latched ||| (pins &&& 0x16), wakeReq := bit pins 1 } }
  | .asleep => { b with pwr := { b.pwr with wakeReq := bit pins 1, wakeJuwa := false } }.startWake pins
  | _ => { b with pwr := { b.pwr with wakeReq := bit pins 1, wakeJuwa := bit pins 2 } }

/-- WAKE_CAUSE. -/
def execWakeCause (causes : BitVec 5) (s : State) : Host.Outcome State Fault Refusal :=
  .next { s with blk := effWakeCause s.blk causes }

/-- A page's header after a wake: its RW fields as they were, what has been raised since. -/
def PageHdr.restored (now was : PageHdr) : PageHdr := { now with enable := was.enable, apply := was.apply, level := was.level, even := was.even }

/-- The registers come back from the snapshot; flags and RO fields of the domains that were off start anew. PWR and TU were on. -/
def Block.restoreRegs (b : Block) : Block :=
  match b.pwr.snap with
  | none => b
  | some s =>
    let on (pg : Nat) : Bool := pg == pgPWR || pg == pgTU
    let pwrRegs := (b.fab.regs.filter fun k _ => k / 4096 == pgPWR).cells
    let regs := pwrRegs.foldl (fun m p => m.insert p.1 p.2) s.regs
    let hdr := (s.hdr.filter fun p _ => !on p).cells.foldl (fun m p => m.set {} p.1 ((m.get {} p.1).restored p.2)) b.fab.hdr
    { b with fab := { b.fab with regs, hdr, held := s.held, rgn := s.rgn }, xl := { b.xl with segs := s.segs } }

/-- The clocks of a wake: locked on the crystals in use, or coasting where one is lost (R361). -/
def Block.wakeClocks (b : Block) : Block :=
  let c := { b.clk with present := b.clk.present ||| 0x72, lockD := true, lockM := true, lockT := !b.tu.noref, coast := false, noref := false,
                        mhz := b.target }
  let b := { b with clk := c }
  let b := if (b.clk.xchk b.clk.refUsed).checked then b else b.pllsLose b.clk.refUsed
  if b.tu.noref || !(b.clk.xchk b.clk.tRefUsed).checked then b.tpllLose b.clk.tRefUsed else b

/-- The lock delay of a wake in ns: CPC_WAKE_LOCK crystal cycles. -/
def Block.wakeLock (b : Block) : Nat := (fld (b.reg pgCPC 0x060) 11 0).toNat * 10 ^ 6 / max 1 (b.regFld pgCPC 0x064 15 0).toNat

/-- The end of the lock delay, counted from the cause; not before every domain is on (Table 13-8). -/
def Block.wakeLocked (b : Block) : Nat := max 4500 (500 + b.wakeLock)

/-- Domains that are on at a time of a wake (Table 13-8). -/
def Block.wakeDomsAt (b : Block) : Word :=
  let t := b.clk.ns - b.pwr.causeNs
  if 4500 ≤ t then 0xFFFFFFFF else 0x2000000B ||| domsAfter wakeDoms (t - 500)

/-- The WAKE_RESTORE step is due: 0.5 µs after the lock delay (log 97). -/
def Block.restoreDue (b : Block) : Bool := b.pwr.stage == .waking && decide (b.pwr.causeNs + b.wakeLocked + 500 ≤ b.clk.ns)

/-- The stations open: 12.0 µs after the cause; a lock delay of more than 7 µs delays them with it (CPC_WAKE_LOCK; log 97). -/
def Block.openDue (b : Block) : Bool := decide (b.pwr.causeNs + max 12000 (5000 + b.wakeLock) ≤ b.clk.ns)

/-- WOKE on the block. -/
def effWoke (b : Block) : Block :=
  if b.pwr.stage != .opening || !b.openDue then b
  else
    let acc := b.pwr.asleepAcc
    let p := { b.pwr with stage := .run, intermission := false, asleepAcc := false, wakeNs := (b.tu.ns - b.pwr.causeGt).setWidth 32 }
    let b := { b with pwr := p }.flag pgPWR 0
    if acc then b.flag pgPWR 7 else b

/-- WOKE. -/
def execWoke (s : State) : Host.Outcome State Fault Refusal := .next { s with blk := effWoke s.blk }

/-! #### Ring restore (R362) -/

/-- A line of descriptors could not be read: its rings are reset and FAULTED. -/
def Block.lineFault (b : Block) (l : Nat) : Block :=
  ([2 * l, 2 * l + 1].foldl (fun b i => b.setRing (BitVec.ofNat 14 i) { faulted := true }) b).flag pgPWR 6

/-- A line of descriptors has been read back. -/
def Block.lineBack (b : Block) (l : Nat) (r : MemResp) : Block :=
  match r with
  | .ok bytes => [0, 1].foldl (fun b i =>
      let n : RingNo := BitVec.ofNat 14 (2 * l + i)
      b.setRing n (ringOfBytes (b.ringOf n) ((bytes.drop (32 * i)).take 32))) b
  | _ => b.lineFault l

/-- The line that is asked for next: one moved to the front, else the next in ring order. -/
def Pwr.nextLine (p : Pwr) : Option Nat :=
  match p.ringFront with
  | l :: _ => some l
  | [] => if !p.ringsLeft then none else
    (List.range (8192 - p.ringNext)).find? (fun i => !p.ringEarly.contains (p.ringNext + i)) |>.map (p.ringNext + ·)

/-- A line is asked for. -/
def Block.askLine (b : Block) (l : Nat) : Block :=
  let p := b.pwr
  let p := match p.ringFront with
    | _ :: rest => { p with ringFront := rest, ringEarly := if l < p.ringNext then p.ringEarly else l :: p.ringEarly }
    | [] => { p with ringNext := l + 1, ringEarly := p.ringEarly.filter fun x => decide (l < x) }
  match startRead { b with pwr := p } 1 (b.saveReq (64 * l) opCtxR (.ringBack l)) with
  | (b, .inl ph) => { b with pwr := { b.pwr with back := b.pwr.back.insert l ph } }
  | (b, .inr _) => b.lineFault l

/-- A line that is asked for waits for its walk or for a tracker: the next one waits behind it. -/
def Pwr.lineWaits (p : Pwr) : Bool := p.back.cells.any fun x => !x.2.isIssued

/-- The next line is asked for. -/
def Block.askNextLine (b : Block) : Block :=
  if b.pwr.lineWaits then b else match b.pwr.nextLine with
    | some l => b.askLine l
    | none => b

/-- An answer to a line: one that has not been asked for and is the next is asked for first. -/
def Block.lineAnswer (b : Block) (x : Nat × MemResp) : Block :=
  let b := if b.pwr.nextLine = some x.1 then b.askNextLine else b
  match b.pwr.back.find? x.1 with
  | some ph => if ph.isIssued then (({ b with pwr := { b.pwr with back := b.pwr.back.erase x.1 } }.lineBack x.1 x.2)).freeLines 1 else b
  | none => b

/-- RINGS_RESTORED on the block: lines of descriptors are answered; with the last one the restore ends. -/
def effRingsRestored (b : Block) (ls : List (Nat × MemResp)) : Block :=
  if !b.dpOn || !b.pwr.ringsLeft then b
  else
    let b := ls.foldl Block.lineAnswer b
    if b.pwr.nextLine.isSome || !b.pwr.back.cells.isEmpty then b
    else { b with pwr := { b.pwr with ringsLeft := false, ringsRestored := true, ringEarly := [] } }.flag pgPWR 2

/-- RINGS_RESTORED. -/
def execRingsRestored (lines : List (Nat × MemResp)) (s : State) : Host.Outcome State Fault Refusal :=
  .next { s with blk := effRingsRestored s.blk lines }

/-! #### Reload (R362) -/

/-- Once a bank has read its entries, a seat of the bank whose context is not resident and not coming is empty (log 12). -/
def Block.dropSeats (b : Block) (q : Nat) : Block :=
  { b with seat := b.seat.remap {} fun _ s => match s.ctx with
    | some c => if ctxBank c == q && (b.rec? c).isNone && !b.awaited c && (b.leave.find? c.toNat).isNone then { s with ctx := none } else s
    | none => s }

/-- Line j of context entries has been read, or its read has failed. -/
def Block.entriesBack (b : Block) (j : Nat) (r : MemResp) : Block :=
  let q := j / 320
  let (es, last) := match r with
    | .ok bytes => entriesOf 8 bytes
    | _ => ([], false)
  let b := match r with
    | .ok _ => b
    | _ => b.flag pgPWR 6
  let done := last || j % 320 == 319
  let lines := if done then b.pwr.lines.erase q else b.pwr.lines.insert q (j % 320 + 1)
  let b := { b with pwr := { b.pwr with lines, saved := b.pwr.saved ++ es.filter fun x => ctxBank x.ctx == q } }
  if done then b.dropSeats q else b

/-- The line of entries that bank q asks for next. -/
def Block.nextEntries (b : Block) (q : Nat) : Option Nat :=
  ((b.pwr.lines.find? q).map (320 * q + ·)).filter fun j => (b.pwr.ctxBack.find? j).isNone

/-- Bank q asks for its next line of entries. -/
def Block.askEntries (b : Block) (q : Nat) : Block :=
  match b.nextEntries q with
  | some j => match startRead b 1 (b.saveReq (ctxLineOff j) opCtxR (.ctxBack j)) with
    | (b, .inl ph) => { b with pwr := { b.pwr with ctxBack := b.pwr.ctxBack.insert j ph } }
    | (b, .inr _) => b.entriesBack j .err
  | none => b

/-- An answer to a line of entries: the next line of its bank is asked for first where that has not happened. -/
def Block.entriesAnswer (b : Block) (x : Nat × MemResp) : Block :=
  let b := if b.nextEntries (x.1 / 320) = some x.1 then b.askEntries (x.1 / 320) else b
  match b.pwr.ctxBack.find? x.1 with
  | some ph =>
    if ph.isIssued then (({ b with pwr := { b.pwr with ctxBack := b.pwr.ctxBack.erase x.1 } }.entriesBack x.1 x.2)).freeLines 1 else b
  | none => b

/-- The reload has not ended: entries to be read, contexts to be loaded. -/
def Block.reloading (b : Block) : Bool :=
  !b.pwr.lines.cells.isEmpty || !b.pwr.saved.isEmpty || b.loads.cells.any fun p => p.2.reload.isSome

/-- RELOADED on the block: lines of entries are answered; when every context has been loaded, or has failed, the reload ends. -/
def effReloaded (b : Block) (ls : List (Nat × MemResp)) : Block :=
  if !b.dpOn || !(b.pwr.ringsLeft || b.pwr.ringsRestored) || b.pwr.reloaded then b
  else
    let b := (ls.foldl Block.entriesAnswer b).startReloads
    if b.reloading then b else { b with pwr := { b.pwr with reloaded := true } }.flag pgPWR 3

/-- RELOADED. -/
def execReloaded (lines : List (Nat × MemResp)) (s : State) : Host.Outcome State Fault Refusal :=
  .next { s with blk := effReloaded s.blk lines }

/-- A DCLK cycle of a wake: a line of descriptors, and each bank's next line of entries, are asked for. -/
def Block.restoreCycle (b : Block) : Block :=
  let b := if b.pwr.ringsLeft then b.askNextLine else b
  if b.pwr.lines.cells.isEmpty then b else ((b.pwr.lines.cells.map Prod.fst).foldl Block.askEntries b).startReloads

/-- The wake at its 5.0 µs step, before the first boundary. -/
def Block.wakeUp (b : Block) : Block :=
  let b := b.restoreRegs.wakeClocks.sampleGt
  { b with pwr := { b.pwr.toRead with stage := .opening, dom := 0xFFFFFFFF, ret := false, wakeAt := none } }.restoreCycle

/-- ACC_ASLEEP: PD0 answers an access during Intermission with an error (R363). -/
def execAccAsleep (_a : Access) (s : State) : Host.Outcome State Fault Refusal :=
  .next { s with blk :=
    let b := s.blk
    if b.accAsleep then { b with fab := { b.fab with rsp := some { err := true } }, pwr := { b.pwr with asleepAcc := true } } else b }

/-! ### The Safety Net (R364, R365) -/

/-- PD0 and PD1 move to VBKP, where XA drives GT (R180); the grant is PD0's and goes on. -/
def Block.toBackup (b : Block) (aonGood : Bool) : Block :=
  let g := b.rm.grant
  let o := b.rm.owner
  let b := b.switchOver .backup aonGood
  { b with rm := { b.rm with grant := g, owner := o }, tu := { b.tu with runs := true } }

/-- SN_SWITCH on the block: VDD_AON has fallen. INHIBIT prevents the move; a block on VBKP already stays there. -/
def effSnSwitch (b : Block) : Block :=
  if b.pwr.stage == .held || b.pwr.stage == .scan then b
  else if b.pwr.onBkp || b.regBit pgPWR 0x070 1 then { b with pwr := { b.pwr with aonGood := false } }
  else b.toBackup false

/-- SN_SWITCH. -/
def execSnSwitch (s : State) : Host.Outcome State Fault Refusal := .next { s with blk := effSnSwitch s.blk }

/-- SN_RETURN on the block: VDD_AON is good again; FORCE_BKP holds PD0 and PD1 on VBKP. -/
def effSnReturn (b : Block) : Block :=
  let b := { b with pwr := { b.pwr with aonGood := true } }
  if !b.pwr.onBkp || b.regBit pgPWR 0x070 0 then b
  else
    let b := { b with pwr := { b.pwr with onBkp := false }, tu := { b.tu with onBkp := false } }
    ((b.flag pgTU 7).flag pgPWR 5).supplyLog 2

/-- SN_RETURN. -/
def execSnReturn (s : State) : Host.Outcome State Fault Refusal := .next { s with blk := effSnReturn s.blk }

/-- A write of PWR_SN_TEST lands. -/
def Block.snTest (b : Block) : Block :=
  if b.regBit pgPWR 0x070 0 && !b.pwr.onBkp then b.toBackup b.pwr.aonGood else b

/-- GT_STOPPED: XA stops while PD1 runs from VBKP (R180). -/
def execGtStopped (s : State) : Host.Outcome State Fault Refusal :=
  .next { s with blk := if s.blk.tu.onBkp then { s.blk with tu := { s.blk.tu with gtStopped := true } } else s.blk }

end Sys2Proof.Machine
end

