-- ==== Sys2Proof/Machine/Regs.lean ====
section
/-! DEFINITION. The registers of the pages: what a read of each returns, and what a write does when it takes effect
(register tables of the chapters). The checks before an access are in the Turnstile file. -/

namespace Sys2Proof.Machine

/-! ### The selection an access to a selected register uses -/

/-- The selection in force for a register that shows a selected part: the owner of ERW_VIF_SHARE, the event of RE_EVSTAT,
the VIF of VMGR_VIF_CAUSE, the channel of the DL registers; 0 for every other register. -/
def Block.subOf (b : Block) (pg off : Nat) : Nat :=
  match pgClass pg with
  | some .erw => if off = 0x06C then (b.regFld pgERW 0x068 12 0).toNat else 0
  | some .re => if off = 0x054 then (b.regFld pg 0x050 19 0).toNat else 0
  | some .vmgr =>
    if off = 0x074 then (b.regFld pgVMGR 0x060 11 0).toNat
    else if 0x084 ≤ off ∧ off ≤ 0x098 then (b.regFld pgVMGR 0x080 5 0).toNat else 0
  | _ => 0

/-- RE_EVSEL names an event of this engine that has state (R172). -/
def Block.evselOk (b : Block) (pg : Nat) : Bool :=
  let e : Event := b.regFld pg 0x050 19 0
  decide (evBank e = pg - 0x28) && hasState e

/-- An access under an invalid selection: EVSEL_BAD with cause 3, or SEL_BAD; answers whether the selection is bad. -/
def Block.selBad (b : Block) (pg off : Nat) : Block × Bool :=
  match pgClass pg with
  | some .re =>
    if off = 0x054 ∧ !b.evselOk pg then ((b.setReg pg 0x098 (at' (3 : BitVec 4) 16)).flag pg 0, true) else (b, false)
  | some .erw =>
    if off = 0x06C ∧ 4096 < (b.regFld pgERW 0x068 12 0).toNat then (b.flag pgERW 6, true) else (b, false)
  | _ => (b, false)

/-! ### Reads -/

/-- A seat as the seat window shows it (SEAT_HS, SEAT_GS). -/
def Block.seatWord (b : Block) (i : Nat) : Word :=
  match (b.seatOf i).ctx with
  | some c => c.setWidth 32 ||| 0x80000000
  | none => 0

/-- LINES of a thread. -/
def Block.linesWord (b : Block) (t : Nat) : Word :=
  (b.hguOf t).setWidth 32 ||| flagAt (b.thread t).trk 3 ||| at' (b.seatOf (2 * t)).nnum 4 |||
    at' (b.seatOf (2 * t + 1)).nnum 8

/-- The word of a 64-bit value: low or high. -/
def half (x : BitVec 64) (high : Bool) : Word := if high then fld x 63 32 else fld x 31 0

/-- A region in the layout of the staging registers: page range, word range, masks. -/
def Rgn.words (r : Rgn) : List Word :=
  [r.first.setWidth 32 ||| at' r.count 16, r.wlo.setWidth 32 ||| at' r.whi 16, r.rmask, r.wmask]

/-- A segment descriptor in the layout of the staging registers (XU_SEG_CTL to XU_SEG_ROOT_HI). -/
def Segm.words (d : Segm) : List Word :=
  [flagAt d.valid 0 ||| flagAt d.dev 1, fld d.base 31 0, (fld d.base 35 32).setWidth 32, fld d.limit 31 0,
    (fld d.limit 35 32).setWidth 32, fld d.root 31 0, (fld d.root 51 32).setWidth 32]

/-- The activity code of LAST_STAT. -/
def Activity.code : Activity → BitVec 3
  | .idle => 0 | .pass1 => 1 | .pass2 => 2 | .commitPend => 3 | .rollbackPend => 4

/-- The inactive-bank code of LAST_STAT. -/
def Inactive.code : Inactive → BitVec 2
  | .empty => 0 | .staged => 1 | .previous => 2

/-- LAST_STAT. -/
def Block.lastStat (b : Block) : Word :=
  let l := b.last
  l.activity.code.setWidth 32 ||| flagAt l.active 3 ||| at' l.inactive.code 4 ||| flagAt l.settled 6 |||
    flagAt b.act.basic.isSome 7 ||| at' l.reason 8 ||| at' l.cmdErr 13

/-- Access parts checked before the last epoch that have not completed (TRN_DRAIN.OLD). -/
def Block.oldParts (b : Block) : Nat := (b.fab.posted.countP fun _ p => p.old) + if b.fab.askOld then 1 else 0

/-- The log entry that TRN_LOG_SEL shows. -/
def Block.trnEntry (b : Block) : TrnLog := b.fab.log.get {} (b.regFld pgTRN 0x068 3 0).toNat

/-- Read-only fields of the GLB page (R341). -/
def Block.readGlb (b : Block) (off : Nat) : Word :=
  match off with
  | 0x040 => 0x33565943
  | 0x044 => 1 ||| at' b.prm.design 16
  | 0x04C => BitVec.ofNat 32 b.prm.slices ||| at' (BitVec.ofNat 12 b.threads) 12
  | 0x050 => 7 ||| (15 <<< 4) ||| (3 <<< 8) ||| (3 <<< 10) ||| (3 <<< 12)
  | 0x058 => flagAt b.fab.instSet 0 ||| flagAt b.fab.stopped 1
  | 0x060 => half b.prm.regBase false | 0x064 => half b.prm.regBase true
  | 0x068 => half b.prm.vifBase false | 0x06C => half b.prm.vifBase true
  | 0x070 => half b.prm.dbBase false | 0x074 => half b.prm.dbBase true
  | 0x078 => half b.prm.tifBase false | 0x07C => half b.prm.tifBase true
  | _ => b.reg pgGLB off

/-- The TRN page (R344). -/
def Block.readTrn (b : Block) (off : Nat) : Word :=
  let e := b.trnEntry
  match off with
  | 0x058 => at' b.fab.epoch 16
  | 0x05C => BitVec.ofNat 32 b.oldParts
  | 0x064 => b.fab.logNext.setWidth 32
  | 0x06C => e.id.setWidth 32 ||| flagAt e.wr 5 ||| at' e.cause 6 ||| at' e.tpn 8 ||| at' e.word 22
  | 0x070 => half e.gt false
  | 0x074 => half e.gt true
  | _ => b.reg pgTRN off

/-- The CPC page (R367). -/
def Block.readCpc (b : Block) (off : Nat) : Word :=
  match off with
  | 0x044 => b.srcStat
  | 0x048 => b.cpcStat
  | 0x06C => b.clk.xa.meas.setWidth 32
  | 0x070 => b.clk.xb.meas.setWidth 32
  | 0x080 => b.reg pgCPC 0x080 ||| at' b.clk.hungMux 16
  | _ => b.reg pgCPC off

/-- The PWR page (R369). -/
def Block.readPwr (b : Block) (off : Nat) : Word :=
  match off with
  | 0x044 => b.pwrRes
  | 0x058 => b.wakeStat
  | 0x05C => b.pwr.wakeNs
  | 0x060 => b.pwr.entryNs
  | 0x064 => b.pwr.dom
  | 0x068 => flagAt b.pwr.ret 29
  | 0x06C => b.pwrSn
  | _ => b.reg pgPWR off

/-- The TU page (R201). -/
def Block.readTu (b : Block) (off : Nat) : Word :=
  let t := b.tu
  match off with
  | 0x044 => flagAt t.valid 0 ||| flagAt t.holdover 1 ||| flagAt b.clk.tRefUsed 2 ||| flagAt t.noref 3 |||
      flagAt t.onBkp 4 ||| flagAt t.gtStopped 5
  | 0x048 => half t.ns false
  | 0x04C => half t.ns true
  | 0x050 => (fld t.frac 47 32).setWidth 32 ||| at' (fld t.ns 15 0) 16
  | 0x06C => half t.ppsCap false
  | 0x070 => half t.ppsCap true
  | 0x078 => t.ppsCnt
  | _ => b.reg pgTU off

/-- The CAR page (R203). -/
def Block.readCar (b : Block) (off : Nat) : Word :=
  match off with
  | 0x040 => b.reg pgCAR 0x040 ||| at' b.car.cur 16 ||| flagAt b.car.pend 31
  | 0x044 => BitVec.ofNat 32 b.car.pos ||| at' (BitVec.ofNat 6 b.car.pos) 12 ||| at' (BitVec.ofNat 14 (b.car.n / 4096)) 18
  | 0x04C => b.slotWord b.slotIdx
  | _ => b.reg pgCAR off

/-- The LAST page (R145). -/
def Block.readLast (b : Block) (off : Nat) : Word :=
  let l := b.last
  match off with
  | 0x050 => b.lastStat
  | 0x054 => l.verA
  | 0x058 => l.verB
  | 0x05C => l.prog
  | 0x060 => l.errOff
  | 0x064 => l.errArg.setWidth 32
  | 0x068 => half l.swGt false
  | 0x06C => half l.swGt true
  | 0x070 => b.reg pgLAST 0x070 ||| flagAt l.refValid 1
  | 0x078 => l.crcCur
  | 0x080 => b.reg pgLAST 0x080 ||| l.sweepSeq.setWidth 32
  | _ => b.reg pgLAST off

/-- The XU page (R294). -/
def Block.readXu (b : Block) (off : Nat) : Word :=
  let f := b.xl.flog.get Report.empty (b.regFld pgXU 0x084 5 0).toNat
  match off with
  | 0x050 => flagAt b.xl.inv.isSome 0 ||| at' b.xl.invCount 16
  | 0x080 => b.xl.flogNext.setWidth 32
  | 0x088 => half f.gt false
  | 0x08C => half f.gt true
  | 0x090 => fld f.off 31 0
  | 0x094 => (fld f.off 47 32).setWidth 32
  | 0x098 => f.seg.setWidth 32 ||| at' f.cause 6 ||| at' f.op 10 ||| at' f.owner 14 ||| at' f.level 27
  | 0x09C => f.obj.setWidth 32
  | _ => b.reg pgXU off

/-- Two numbers in the halves of a word. -/
def pair (lo hi : Nat) : Word := BitVec.ofNat 32 lo ||| at' (BitVec.ofNat 16 hi) 16

/-- The ERW page (R254). -/
def Block.readErw (b : Block) (off : Nat) : Word :=
  let r : RingNo := b.regFld pgERW 0x048 13 0
  let g := b.ringOf r
  let o : OwnerNo := b.regFld pgERW 0x068 12 0
  let occ (i j : Nat) : Word := if 4096 < o.toNat then 0 else pair ((b.writer i).occ o) ((b.writer j).occ o)
  match off with
  | 0x04C =>
    let c := b.ringCfg r
    c.order.setWidth 32 ||| at' c.seg 5 ||| flagAt c.user 11 ||| at' c.owner 12 ||| flagAt g.faulted 25 |||
      flagAt (b.car.windows.find? r.toNat).isSome 26 ||| flagAt g.ovfEp 27
  | 0x050 => g.pi
  | 0x054 => g.pub
  | 0x058 => g.ci
  | 0x05C => g.ovf
  | 0x06C => if 4096 < o.toNat then 0 else b.shareOf o.toNat
  | 0x070 => occ 0 1
  | 0x074 => occ 2 3
  | 0x078 => pair (b.writer 0).used (b.writer 1).used
  | 0x07C => pair (b.writer 2).used (b.writer 3).used
  | _ => b.reg pgERW off

/-- The VMGR page (R275). -/
def Block.readVmgr (b : Block) (off : Nat) : Word :=
  let v := (b.regFld pgVMGR 0x060 11 0).toNat
  let x := b.vifOf v
  let d := b.dlCh (b.regFld pgVMGR 0x080 5 0).toNat
  match off with
  | 0x054 => flagAt b.vm.busy 0 ||| at' b.vm.result 1 ||| at' b.vm.vif 8
  | 0x058 => pair (b.vif.countP fun _ y => y.state == .active) (b.vif.countP fun _ y => y.state != .free)
  | 0x064 => x.state.code.setWidth 32 ||| flagAt x.dlEn 2 ||| at' x.dlCh 3 ||| at' x.gen 20
  | 0x068 => x.ctxr
  | 0x06C => x.ringr
  | 0x070 => x.noteCtx.setWidth 32 ||| at' x.notePrio 16 ||| flagAt x.noteEn 22
  | 0x074 => x.cause.setWidth 32 ||| at' x.msg 16
  | 0x078 => flagAt x.done 0 ||| at' (BitVec.ofNat 14 (b.oldOps v)) 16
  | 0x084 => d.cfg ||| at' d.vif 16 ||| flagAt d.inUse 31
  | 0x088 => d.baseLo
  | 0x08C => d.baseHi
  | 0x090 => d.threshReg
  | 0x094 => d.pi
  | 0x098 => d.ci
  | 0x09C => d.snap
  | 0x0A0 => flagAt d.ovf 0 ||| flagAt d.harvest 1
  | _ => b.reg pgVMGR off

/-- The JL page (R319). -/
def Block.readJl (b : Block) (off : Nat) : Word :=
  if 0x080 ≤ off ∧ off < 0x100 then
    let j := b.port ((off - 0x080) / 0x20)
    match off % 0x20 with
    | 0x04 => flagAt j.up 0 ||| flagAt j.peerAsleep 1 ||| at' j.cred0 2 ||| at' j.cred1 10
    | 0x08 => j.peer.setWidth 32 ||| flagAt j.peerValid 16
    | 0x0C => BitVec.ofNat 32 j.trk.length ||| at' (BitVec.ofNat 8 j.rx0.length) 16 ||| at' (BitVec.ofNat 7 j.rx1.length) 24
    | _ => b.reg pgJL off
  else if 0x100 ≤ off ∧ off < 0x120 then
    let j := b.port ((off - 0x100) / 8)
    if off % 8 = 0 then j.theta else j.delay
  else b.reg pgJL off

/-- The RM page as an identity reads it (R377, R391). -/
def Block.readRm (b : Block) (id : BitVec 5) (off : Nat) : Word :=
  let r := b.rm
  if 0x080 ≤ off ∧ off < 0x0A0 then r.temp.get 0 ((off - 0x080) / 4)
  else if 0x0A0 ≤ off ∧ off < 0x0E0 then r.volt.get 0 ((off - 0x0A0) / 4)
  else if 0x0E0 ≤ off ∧ off < 0x100 then b.logData ((off - 0x0E0) / 4)
  else if 0x100 ≤ off ∧ off < 0x200 then (if r.ownedBy id then r.data.get 0 ((off - 0x100) / 4) else 0)
  else match off with
  | 0x040 => flagAt r.ready 0 ||| flagAt r.recovery 1 ||| flagAt r.slotB 2 ||| flagAt r.grant.isSome 3 |||
      flagAt r.sealBroken 4 ||| flagAt r.present 5 ||| flagAt r.awlEn 6 ||| flagAt r.verA 7 ||| flagAt r.verB 8 |||
      flagAt r.throttled 9
  | 0x044 => r.fwA
  | 0x048 => r.fwB
  | 0x04C => r.fwMin
  | 0x050 => b.reg pgRM 0x050 ||| at' (BitVec.ofNat 12 b.grantLeft) 16
  | 0x054 => at' r.owner 8 ||| flagAt r.heldBy 13
  | 0x05C => if r.ownedBy id then flagAt r.busy.isSome 0 ||| flagAt r.done 1 ||| at' r.result 4 ||| at' r.rlen 16 else 0
  | 0x060 => r.logNext.setWidth 32 ||| at' r.logCount 16
  | _ => b.reg pgRM off

/-- The RAS page (R409). -/
def Block.readRas (b : Block) (off : Nat) : Word :=
  let e := b.ras.log.get {} (b.regFld pgRAS 0x054 4 0).toNat
  match off with
  | 0x050 => b.ras.next.setWidth 32
  | 0x058 => half e.gt false
  | 0x05C => half e.gt true
  | 0x060 => e.sev.setWidth 32 ||| at' e.source 2 ||| at' e.owner 7
  | 0x064 => e.index.setWidth 32 ||| at' e.synd 24
  | 0x074 => b.ras.passes.setWidth 32
  | 0x07C => flagAt b.ras.dpReady 0 ||| at' b.ras.cause 1 ||| at' b.ras.abandoned 16
  | _ => b.reg pgRAS off

/-- A station's page (R111). -/
def Block.readStn (b : Block) (k off : Nat) : Word :=
  let s := b.station k
  match off with
  | 0x04C => flagAt s.inv.isSome 0 ||| at' s.invCount 16
  | 0x050 => BitVec.ofNat 32 (missUsed s) ||| at' (BitVec.ofNat 8 (b.reasmUsed k)) 16 ||| at' (BitVec.ofNat 7 (fifoUsed s)) 24
  | 0x07C => s.lastTag.setWidth 32 ||| at' s.lastCause 24
  | 0x080 => s.lastPage.setWidth 32 ||| at' s.lastOff 16
  | _ => b.reg (pgSTN k) off

/-- Word i of 128 bits. -/
def word128 (x : BitVec 128) (i : Nat) : Word := (x >>> (32 * i)).setWidth 32

/-- A collector's page (R112). -/
def Block.readLc (b : Block) (c off : Nat) : Word :=
  let x := b.coll c
  if 0x070 ≤ off ∧ off < 0x080 then word128 (b.active c x.sync) ((off - 0x070) / 4)
  else if 0x080 ≤ off ∧ off < 0x090 then word128 x.raise ((off - 0x080) / 4)
  else if 0x0A0 ≤ off ∧ off < 0x0B0 then word128 x.latch ((off - 0x0A0) / 4)
  else b.reg (pgLC c) off

/-- An engine's and partition's page (R172). -/
def Block.readRe (b : Block) (n off : Nat) : Word :=
  match off with
  | 0x054 =>
    if b.evselOk (pgRE n) then
      let p := b.pendOf (b.regFld (pgRE n) 0x050 19 0)
      flagAt p.p 0 ||| flagAt p.a 1 ||| flagAt p.m 2
    else 0
  | 0x060 => pair (b.residentIn n) (b.pinnedIn n)
  | _ => b.reg (pgRE n) off

/-- A core-slice group is built (R229): its first slice is below the built count. -/
def Block.csgBuilt (b : Block) (g : Nat) : Bool := decide (16 * g < b.prm.slices)

/-- A core-slice group's page (R229). -/
def Block.readCsg (b : Block) (g off : Nat) : Word :=
  let t := 64 * g + (b.regFld (pgCSG g) 0x050 5 0).toNat
  let x := b.cmd g
  match off with
  | 0x048 => flagAt x.busy 0 ||| at' x.result 1 ||| at' x.ctx 16
  | 0x04C => ((List.range 16).foldl (fun (w : Word) i =>
      w ||| flagAt (decide (16 * g + i < b.prm.slices)) i ||| flagAt (b.up.contains (16 * g + i)) (16 + i)) 0)
  | 0x054 => b.seatWord (2 * t)
  | 0x058 => b.seatWord (2 * t + 1)
  | 0x05C => b.linesWord t
  | _ => b.reg (pgCSG g) off

/-- Fields below 0x040: the header (R325). PG_STATCLR and PG_KEY read 0. -/
def Block.readHdr (b : Block) (pg : Nat) (cl : PgClass) (off : Nat) : Word :=
  let h := b.hdr pg
  match off with
  | 0x000 => 1 ||| at' (BitVec.ofNat 8 (pg - cl.base)) 16 ||| at' (BitVec.ofNat 8 cl.base) 24
  | 0x004 => cl.boundary.setWidth 32 ||| flagAt cl.posted 2 ||| flagAt cl.levels 3 ||| flagAt cl.keyed 4
  | 0x008 => flagAt h.enable 0 ||| flagAt h.apply 1 ||| flagAt h.level 2
  | 0x00C => b.pgStat pg
  | 0x018 => flagAt (b.fab.posted.find? pg).isSome 0
  | 0x01C => h.pgErr
  | 0x020 => h.crc
  | 0x024 => h.even.setWidth 32
  | _ => 0

/-- The fields in force at offsets 0x040 and above, as an identity reads them. -/
def Block.readLive (b : Block) (id : BitVec 5) (pg : Nat) (cl : PgClass) (off : Nat) : Word :=
  match cl with
  | .glb => b.readGlb off
  | .trn => b.readTrn off
  | .cpc => b.readCpc off
  | .pwr => b.readPwr off
  | .tu => b.readTu off
  | .car => b.readCar off
  | .last => b.readLast off
  | .xu => b.readXu off
  | .erw => b.readErw off
  | .vmgr => b.readVmgr off
  | .jl => b.readJl off
  | .pmu => b.reg pgPMU off
  | .rm => b.readRm id off
  | .ras => b.readRas off
  | .stn => b.readStn (pg - 0x10) off
  | .lc => b.readLc (pg - 0x18) off
  | .re => b.readRe (pg - 0x28) off
  | .csg => b.readCsg (pg - 0x40) off

/-- The value of a register that waits: posted, or held (R333, R334). -/
def Block.waiting (b : Block) (pg off : Nat) : Option Word :=
  let held := (b.fab.held.find? fun h => h.pg == pg && h.off == off && h.sub == b.subOf pg off).map Held.val
  match b.fab.posted.find? pg with
  | some p => if p.off = off then some p.val else held
  | none => held

/-- What software writes of the register at an offset; nothing where no table defines one. -/
def defOf (cl : PgClass) (off : Nat) : RegDef := (regDef cl off).getD {}

/-- A read of a register: the waiting value of its RW fields, else the value in force; WO fields read 0. -/
def Block.readReg (b : Block) (id : BitVec 5) (pg : Nat) (cl : PgClass) (off : Nat) : Word :=
  if off < 0x40 then b.readHdr pg cl off
  else
    let v := b.readLive id pg cl off
    match b.waiting pg off with
    | some x => if pg = pgRM ∧ 0x100 ≤ off ∧ !b.rm.ownedBy id then v else blend (defOf cl off).rw v x
    | none => v

/-! ### Writes that take effect -/

/-- Store the RW fields of a register. -/
def Block.store (b : Block) (pg : Nat) (cl : PgClass) (off : Nat) (v : Word) : Block :=
  b.setReg pg off (blend (defOf cl off).rw (b.reg pg off) v)

/-- A field that is 0 takes another value. -/
def nonZero (v : Word) (hi lo : Nat) (dflt : Word) : Word :=
  if v &&& mask hi lo = 0 then blend (mask hi lo) v (dflt <<< lo) else v

/-- A field is kept between two numbers. -/
def clampFld (v : Word) (hi lo least most : Nat) : Word :=
  let x := (fld v hi lo).toNat
  blend (mask hi lo) v (BitVec.ofNat 32 (max least (min most x)) <<< lo)

/-- The value a register stores for what is written to it: fields kept within their range, and codes that stand for others (register
tables). A held or posted write holds that value (R133, R333). -/
def storedVal (cl : PgClass) (off : Nat) (v : Word) : Word :=
  match cl, off with
  | .trn, 0x048 => clampFld v 30 16 0 16384
  | .cpc, 0x04C => (targetOf (fld v 10 0).toNat).setWidth 32
  | .cpc, 0x050 | .cpc, 0x054 | .cpc, 0x058 | .cpc, 0x05C => nonZero v 15 0 1
  | .cpc, 0x064 => clampFld v 15 0 10000 50000
  | .cpc, 0x068 => nonZero (nonZero (clampFld v 20 16 12 20) 23 21 1) 31 24 1
  | .tu, 0x040 => if bit v 2 then v &&& ~~~6 else v
  | .tu, 0x07C => if v = 0 then 0x00280000 else v
  | .tu, 0x080 => if fld v 2 1 = 3 then v &&& ~~~6 else v
  | .last, 0x100 => if fld v 3 2 = 3 then v &&& ~~~0xC else v
  | .last, 0x10C => if (fld v 12 8).toNat = 0 then v else clampFld v 12 8 4 20
  | .xu, 0x0A0 | .xu, 0x0A8 | .xu, 0x0B0 | .xu, 0x0B8 => clampFld v 5 0 0 52
  | .erw, 0x044 => clampFld v 8 0 1 256
  | .erw, 0x06C => clampFld (clampFld v 8 0 1 256) 26 16 0 1024
  | .vmgr, 0x084 => clampFld v 12 8 9 20
  | .jl, 0x040 => nonZero (nonZero v 15 0 1) 23 16 1
  | .rm, 0x050 => nonZero v 11 0 1
  | .rm, 0x06C => if (fld v 15 8).toNat < (fld v 7 0).toNat then blend 0xFF00 v (at' (fld v 7 0) 8) else v
  | .ras, 0x040 => nonZero v 31 16 1
  | _, _ => v

/-- GLB: GLB_INST, GLB_CTL. -/
def Block.applyGlb (b : Block) (off : Nat) (v : Word) : Block :=
  if off = 0x048 then
    let b := b.setReg pgGLB 0x048 (v &&& 0xFFFF)
    { b with fab := { b.fab with instSet := true } }.flag pgGLB 0
  else
    let b := b.store pgGLB .glb off v
    if off = 0x054 && bit v 0 then { b with fab := { b.fab with stopped := false } } else b

/-- The staged region: held values where staging writes wait (log 44). -/
def Block.stagedRgn (b : Block) : Rgn :=
  let w (off : Nat) : Word := (b.waiting pgTRN off).getD (b.reg pgTRN off)
  { first := fld (w 0x048) 13 0, count := fld (w 0x048) 30 16, wlo := fld (w 0x04C) 9 0, whi := fld (w 0x04C) 25 16,
    rmask := w 0x050, wmask := w 0x054 }

/-- The region TRN_SEL names. -/
def Block.rgnSel (b : Block) : Nat := (fld ((b.waiting pgTRN 0x040).getD (b.reg pgTRN 0x040)) 7 0).toNat

/-- Regions change (R339). -/
def Block.setRgns (b : Block) (l : List (Nat × Rgn)) : Block :=
  if l.isEmpty then b else
    { b with fab := { b.fab with rgn := l.foldl (fun (m : Map Rgn) (p : Nat × Rgn) => m.set {} p.1 p.2) b.fab.rgn } }.flag pgTRN 2

/-- TRN_RGN_CMD: APPLY at once or held, or FETCH. -/
def Block.rgnCmd (b : Block) (op : BitVec 2) (defer : Bool) : Block :=
  let n := b.rgnSel
  if op = 1 then
    let r := b.stagedRgn
    let held := b.fab.rgnHeld.filter fun p => p.1 != n
    if defer then { b with fab := { b.fab with rgnHeld := held ++ [(n, r)] } }
    else { b with fab := { b.fab with rgnHeld := held } }.setRgns [(n, r)]
  else if op = 2 then
    (([0x048, 0x04C, 0x050, 0x054].zip (b.fab.rgn.get {} n).words).foldl (fun b (p : Nat × Word) => b.setReg pgTRN p.1 p.2) b)
  else b

/-- TRN_EPOCH.GO: the access parts that have been checked and are not complete are the old ones: posted writes, and a part at the head
of the port that waits for its grant. -/
def Block.epochGo (b : Block) : Block :=
  let posted := b.fab.posted.mapVals fun _ p => { p with old := true }
  { b with fab := { b.fab with epoch := b.fab.epoch + 1, draining := true, posted, askOld := b.fab.ask != .none } }

/-- TRN. -/
def Block.applyTrn (b : Block) (off : Nat) (v : Word) (defer : Bool) : Block :=
  match off with
  | 0x044 => b.rgnCmd (fld v 1 0) defer
  | 0x058 => if bit v 0 then b.epochGo else b
  | _ => b.store pgTRN .trn off v

/-- CPC (R367). While the Ringmaster throttles, TARGET is kept for later (R373). -/
def Block.applyCpc (b : Block) (off : Nat) (v : Word) : Block :=
  let put (v : Word) : Block := b.store pgCPC .cpc off v
  match off with
  | 0x040 => (put v).cpcSrcSet
  | 0x04C => if b.rm.throttled then { b with rm := { b.rm with kept := v } } else (put v).startSlew
  | 0x074 => if fld v 1 0 = 1 then b.recheck else b
  | 0x07C =>
    let b := put v
    if bit v 0 then { b with clk := { b.clk with gated := [] } } else b
  | _ => put v

/-- A write of PWR_SN_TEST lands (R365): while presence is granted it acts; at any other time it is ignored and sets LOCKVIOL, with the
log entry. It is tested as it lands too, since presence may end while it is posted (log 98). -/
def Block.snTestWrite (b : Block) (id : BitVec 5) (al : Alias) (v : Word) : Block :=
  if b.rm.grant.isNone then b.pgErr pgPWR .lockviol id (errOff al 0x070) true
  else (b.store pgPWR .pwr 0x070 v).snTest

/-- PWR (R369). -/
def Block.applyPwr (b : Block) (id : BitVec 5) (al : Alias) (off : Nat) (v : Word) : Block :=
  match off with
  | 0x040 => b.pwrCmd v
  | 0x070 => b.snTestWrite id al v
  | _ => b.store pgPWR .pwr off v

/-- TU (R174 to R181, R201). -/
def Block.applyTu (b : Block) (off : Nat) (v : Word) : Block :=
  let put (v : Word) : Block := b.store pgTU .tu off v
  match off with
  | 0x040 => (put v).tuCtlSet
  | 0x054 => if b.tuFollow then b.flag pgTU 6 else (put v).setFreqAdj
  | 0x05C => if b.tuFollow then b.flag pgTU 6 else (put v).stepTime
  | 0x064 => if b.tuFollow then b.flag pgTU 6 else (put v).setTime
  | _ => put v

/-- CAR (R186, R190, R192, R203). -/
def Block.applyCar (b : Block) (off : Nat) (v : Word) (defer : Bool) : Block :=
  let put (v : Word) : Block := b.store pgCAR .car off v
  match off with
  | 0x040 => (put v).schedule
  | 0x04C => b.writeSlot defer v
  | 0x050 => if bit v 2 then put v else (put v).flushWindows
  | _ => put v

/-- LAST (R128, R134, R140, R145). -/
def Block.applyLast (b : Block) (off : Nat) (v : Word) : Block :=
  let put (v : Word) : Block := b.store pgLAST .last off v
  let valid (b : Block) : Block := { b with last := { b.last with refValid := true } }
  match off with
  | 0x040 => b.lastCmd (fld v 2 0).toNat false
  | 0x074 => valid (put v)
  | 0x07C => if bit v 0 then valid (b.setReg pgLAST 0x074 b.last.crcCur) else b
  | _ => put v

/-- An access has its translation and is not issued. -/
def RecPh.isReady : RecPh → Bool
  | .ready _ _ => true
  | _ => false

/-- The accesses that hold a translation and are not issued (R289). -/
def Block.unissuedNow (b : Block) : XuHeld :=
  { reads := b.xl.trkWait
    recs := b.wr.cells.flatMap fun p => (p.2.recs.filter fun x => x.ph.isReady).map fun x => (x.ring, x.idx)
    idx := b.wr.cells.flatMap fun p => (p.2.idxWait.filter fun x => x.pa.isSome).map fun x => (x.ring, x.seq)
    writes := b.wr.cells.flatMap fun p => p.2.ready.map PortWrite.m }

/-- The accesses of a list that are still not issued. -/
def XuHeld.inter (h now : XuHeld) : XuHeld :=
  { reads := h.reads.filter now.reads.contains, recs := h.recs.filter now.recs.contains, idx := h.idx.filter now.idx.contains,
    writes := h.writes.filter now.writes.contains }

/-- The accesses of a list with those that are new since an earlier one. -/
def XuHeld.grow (h was now : XuHeld) : XuHeld :=
  { reads := h.reads ++ now.reads.filter fun c => !was.reads.contains c
    recs := h.recs ++ now.recs.filter fun c => !was.recs.contains c
    idx := h.idx ++ now.idx.filter fun c => !was.idx.contains c
    writes := h.writes ++ now.writes.filter fun c => !was.writes.contains c }

/-- An invalidation of translations starts (R289): the walks in flight install nothing, the accesses that hold a translation
and are not issued are waited for. -/
def Block.xuStart (b : Block) : Block :=
  let walkers := b.xl.walkers.mapVals fun _ x => { x with noInstall := true }
  { b with xl := { b.xl with inv := some { walks := b.xl.walkers.cells.map Prod.fst, held := b.unissuedNow }, walkers } }

/-- XU_INV with GO = 1: the named entries go, and BUSY stays until XU_INV_DONE. -/
def Block.xuInvGo (b : Block) (scope : BitVec 2) (seg : BitVec 6) (off : BitVec 48) : Block :=
  if b.xl.inv.isSome then b.flag pgXU 3
  else
    let vpn : BitVec 36 := reqVpn b { seg, off := off.setWidth 64, op := 0, cont := .prefetch }
    (tlbRemove b fun e => scope == 0 || scope == 3 || (e.seg == seg && (scope == 1 || e.vpn == vpn))).xuStart

/-- The staged segment descriptor (Table 10-1). -/
def Block.stagedSeg (b : Block) : Segm :=
  let w (off : Nat) : Word := b.reg pgXU off
  { valid := bit (w 0x05C) 0, dev := bit (w 0x05C) 1, base := fld (w 0x064) 3 0 ++ w 0x060, limit := fld (w 0x06C) 3 0 ++ w 0x068,
    root := fld (w 0x074) 19 0 ++ w 0x070 }

/-- XU_SEG_CMD (R277). -/
def Block.segCmd (b : Block) (op : BitVec 2) : Block :=
  let s : BitVec 6 := b.regFld pgXU 0x054 5 0
  if op = 1 then
    if b.xl.inv.isSome then b.flag pgXU 3
    else
      let b := b.xuInvGo 1 s 0
      { b with xl := { b.xl with segs := b.xl.segs.set {} s.toNat b.stagedSeg } }.flag pgXU 4
  else if op = 2 then
    (([0x05C, 0x060, 0x064, 0x068, 0x06C, 0x070, 0x074].zip (b.segm s).words).foldl (fun b (p : Nat × Word) => b.setReg pgXU p.1 p.2) b)
  else b

/-- XU (R277, R285, R289, R294). -/
def Block.applyXu (b : Block) (off : Nat) (v : Word) : Block :=
  let put (v : Word) : Block := b.store pgXU .xu off v
  match off with
  | 0x044 =>
    if !bit v 2 then put v
    else if b.xl.inv.isSome then b.flag pgXU 3
    else (put v).xuInvGo (fld v 1 0) (fld v 13 8) (b.regFld pgXU 0x04C 15 0 ++ b.reg pgXU 0x048)
  | 0x058 => b.segCmd (fld v 1 0)
  | _ => put v

/-- ERW (R245, R247, R249 to R251, R254). -/
def Block.applyErw (b : Block) (off sub : Nat) (v : Word) : Block :=
  let put (v : Word) : Block := b.store pgERW .erw off v
  let r : RingNo := b.regFld pgERW 0x048 13 0
  match off with
  | 0x058 => (b.writeCi r v).1
  | 0x05C => b.setRing r { b.ringOf r with ovf := v }
  | 0x060 => b.ringCmd (fld v 1 0).toNat r
  | 0x06C => { b with fab := { b.fab with share := b.fab.share.set 0x04000100 sub (v &&& 0x07FF01FF) } }
  | _ => put v

/-- VMGR (R259, R266, R268, R271, R275). -/
def Block.applyVmgr (b : Block) (off sub : Nat) (v : Word) : Block :=
  let d := b.dlCh sub
  match off with
  | 0x050 => b.vmgrCmd (fld v 3 0).toNat
  | 0x074 => b.setVif sub { b.vifOf sub with cause := fld v 7 0 }
  | 0x084 => b.setDlCh sub { d with cfg := v &&& 0x1F3F }
  | 0x088 => b.setDlCh sub { d with baseLo := v &&& 0xFFFFF000 }
  | 0x08C => b.setDlCh sub { d with baseHi := v &&& 0xFFFF }
  | 0x090 => b.setDlCh sub { d with threshReg := v &&& 0x1FFFFF }
  | 0x098 => b.writeDlCi sub v
  | _ => b.store pgVMGR .vmgr off v

/-- JL (R307, R308, R310, R319). -/
def Block.applyJl (b : Block) (off : Nat) (v : Word) : Block :=
  let put (v : Word) : Block := b.store pgJL .jl off v
  match off with
  | 0x080 | 0x0A0 | 0x0C0 | 0x0E0 => if bit v 0 then put v else (put v).goDown ((off - 0x080) / 0x20)
  | _ => put v

/-- RM (R373, R376 to R379, R391), for the identity that made the write. -/
def Block.applyRm (b : Block) (id : BitVec 5) (off : Nat) (v : Word) : Block :=
  let put (v : Word) : Block := b.store pgRM .rm off v
  if 0x100 ≤ off ∧ off < 0x200 then b.mbxData id ((off - 0x100) / 4) v
  else match off with
  | 0x054 => b.mbxOwn id v
  | 0x058 => b.mbxCmd id v
  | 0x06C => (put v).clearAlarms
  | _ => put v

/-- RAS (R398, R399, R409). -/
def Block.applyRas (b : Block) (off : Nat) (v : Word) : Block :=
  match off with
  | 0x044 => if fld v 1 0 = 1 then b.warmStart 4 else if fld v 1 0 = 2 then b.dpRestart 6 else b
  | 0x078 =>
    let b := b.store pgRAS .ras off v
    if bit v 6 then b.rasInject else b
  | _ => b.store pgRAS .ras off v

/-- Station (R99, R109, R111). -/
def Block.applyStn (b : Block) (k off : Nat) (v : Word) : Block :=
  let b := b.store (pgSTN k) .stn off v
  match off with
  | 0x040 => if bit v 0 then b else b.setStation k (cacheEmpty (b.station k))
  | 0x044 => if bit v 2 then b.stnInvGo k else b
  | _ => b

/-- Line collector (R84, R112). -/
def Block.applyLc (b : Block) (c off : Nat) (v : Word) : Block :=
  if off = 0x090 then (if bit v 8 then b.lcInject c (fld v 6 0).toNat else b)
  else
    let b := b.store (pgLC c) .lc off v
    if 0x040 ≤ off ∧ off < 0x070 then b.lcWritten c (off % 16 / 4) else b

/-- The wake filter of a partition is cleared (R162). -/
def Block.filtClr (b : Block) (n : Nat) : Block := b.setBank n { b.bank n with filter := .empty }

/-- Engine and partition (R55, R162, R165, R172). -/
def Block.applyRe (b : Block) (n off sub : Nat) (v : Word) : Block :=
  match off with
  | 0x04C =>
    let b := b.store (pgRE n) .re off v
    if bit v 8 then b.filtClr n else b
  | 0x054 => b.writeMask (BitVec.ofNat 20 sub) (bit v 2)
  | 0x058 => b.pinCmd n v
  | _ => b.store (pgRE n) .re off v

/-- Core-slice group (R222, R229). -/
def Block.applyCsg (b : Block) (g off : Nat) (v : Word) : Block :=
  if off = 0x044 then b.csgCmd g v else b.store (pgCSG g) .csg off v

/-- A write takes effect at offset 0x040 or above: identity, page, class, alias part, offset, selection, the stored value, deferred
mode. -/
def Block.applyReg (b : Block) (id : BitVec 5) (pg : Nat) (cl : PgClass) (al : Alias) (off sub : Nat) (v : Word) (defer : Bool) : Block :=
  match cl with
  | .glb => b.applyGlb off v
  | .trn => b.applyTrn off v defer
  | .cpc => b.applyCpc off v
  | .pwr => b.applyPwr id al off v
  | .tu => b.applyTu off v
  | .car => b.applyCar off v defer
  | .last => b.applyLast off v
  | .xu => b.applyXu off v
  | .erw => b.applyErw off sub v
  | .vmgr => b.applyVmgr off sub v
  | .jl => b.applyJl off v
  | .pmu => b.store pgPMU .pmu off v
  | .rm => b.applyRm id off v
  | .ras => b.applyRas off v
  | .stn => b.applyStn (pg - 0x10) off v
  | .lc => b.applyLc (pg - 0x18) off v
  | .re => b.applyRe (pg - 0x28) off sub v
  | .csg => b.applyCsg (pg - 0x40) off v

end Sys2Proof.Machine
end

