-- ==== Sys2Proof/Machine/Turnstile.lean ====
section
/-! DEFINITION. The register port: the Turnstile (R335 to R338), the checks of Table 12-3, alias parts, keys, posted and
deferred writes, the page headers, and the accesses to the four spaces of the port. -/

namespace Sys2Proof.Machine

/-! ### Held writes, headers, write parts -/

/-- A held write of a page makes HELD rise (PG_EVEN). -/
def Block.evenHeld (b : Block) (was : Bool) (pg : Nat) : Block := if !was && b.isHeld pg then b.even pg 0x100 else b

/-- A held copy is discarded, or replaced: each register has one, ERW_VIF_SHARE one per owner (R333). -/
def Block.unhold (b : Block) (pg off sub : Nat) : Block :=
  let keep (h : Held) : Bool := !(h.pg == pg && h.off == off && (h.sub == sub || !(pg == pgERW && off == 0x06C)))
  { b with fab := { b.fab with held := b.fab.held.filter keep } }

/-- A write is held until the page's boundary (R333). -/
def Block.holdWrite (b : Block) (pg off sub : Nat) (v : Word) : Block :=
  let was := b.isHeld pg
  let b := b.unhold pg off sub
  let h : Held := { pg, off, sub, val := v }
  ({ b with fab := { b.fab with held := b.fab.held ++ [h] } }).evenHeld was pg

/-- A write of a header register (R325, R330, R331). -/
def Block.writeHdr (b : Block) (id : BitVec 5) (pg : Nat) (cl : PgClass) (al : Alias) (off : Nat) (v : Word) : Block :=
  let h := b.hdr pg
  match off with
  | 0x008 => b.setHdr pg { h with enable := bit v 0, apply := bit v 1 && cl.boundary != 0, level := bit v 2 }
  | 0x010 =>
    if fld v 31 24 = h.seq then
      let err := bit v 10
      b.setHdr pg { h with flags := h.flags &&& ~~~(fld v 7 0), clrStale := false, err := h.err && !err,
                           errBits := if err then 0 else h.errBits }
    else (b.setHdr pg { h with clrStale := true }).even pg 0x200
  | 0x014 =>
    if v = 0xA53C ||| (BitVec.ofNat 32 pg <<< 16) then (b.setHdr pg { h with unlocked := true }).even pg 0x800
    else (b.setHdr pg { h with unlocked := false }).pgErr pg .keybad id (errOff al off) true
  | 0x024 => b.setHdr pg { h with even := fld v 23 0 }
  | _ => b

/-- What a write through a part makes of a register (R327): the present value, its RW bits, its WO bits, the data. -/
def aliasVal (al : Alias) (cur rw wo d : Word) : Word :=
  match al with
  | .base => d &&& (rw ||| wo)
  | .set => cur ||| (d &&& rw)
  | .clear => cur &&& ~~~(d &&& rw)
  | .toggle => cur ^^^ (d &&& rw)

/-- The fields that only expert level changes, for an identity (R389). -/
def Block.expertOf (b : Block) (id : BitVec 5) (pg : Nat) (cl : PgClass) (df : RegDef) : Word :=
  if cl.levels && !(b.hdr pg).level && id != 3 then df.expert else 0

/-- A write whose checks have passed is posted, held, or takes effect (R333, R334), with the value that the register stores. The
FILT_CLR of a deferred write of RE_WAKE acts at once; a deferred APPLY is held for its region (R339). -/
def Block.commitWrite (b : Block) (id : BitVec 5) (pg : Nat) (cl : PgClass) (al : Alias) (off : Nat) (df : RegDef) (v : Word) : Block :=
  let sub := b.subOf pg off
  let v := storedVal cl off v
  let apply := (b.hdr pg).apply && cl.boundary != 0
  if df.pst then
    let p : Posted := { id, off, al, val := v, defer := apply && !df.atOnce, old := false }
    { b with fab := { b.fab with posted := b.fab.posted.insert pg p } }
  else if apply && !df.atOnce then
    if cl = .re ∧ off = 0x04C then
      ((if bit v 8 then b.filtClr (pg - 0x28) else b).holdWrite pg off sub (v &&& 0x3F))
    else if cl = .trn ∧ off = 0x044 ∧ fld v 1 0 = 1 then (b.rgnCmd 1 true).evenHeld (b.isHeld pg) pg
    else b.holdWrite pg off sub v
  else
    let b' := (b.unhold pg off sub).applyReg id pg cl al off sub v apply
    if apply then b'.evenHeld (b.isHeld pg) pg else b'

/-- A write that changes no expert-only field, with the rules of single registers: PWR_SN_TEST outside a grant (R365),
CPC_SRC.REF to a crystal that is not checked (R367), a bad selection (R172, R254). -/
def Block.ruledWrite (b : Block) (id : BitVec 5) (pg : Nat) (cl : PgClass) (al : Alias) (off : Nat) (df : RegDef) (cur v : Word) :
    Block :=
  let viol (b : Block) : Block := b.pgErr pg .lockviol id (errOff al off) true
  if cl = .pwr ∧ off = 0x070 ∧ b.rm.grant.isNone then viol b
  else
    let (b, bad) := b.selBad pg off
    if bad then b
    else if cl = .cpc ∧ off = 0x040 ∧ !(b.clk.xchk (bit v 0)).checked then
      (viol b).commitWrite id pg cl al off df (blend 1 v cur)
    else b.commitWrite id pg cl al off df v

/-- Rows 6 to 8 of Table 12-3 and R389. `locked`: the page was locked when the part arrived. -/
def Block.writeFields (b : Block) (id : BitVec 5) (pg : Nat) (cl : PgClass) (al : Alias) (off : Nat) (d : Word) (locked : Bool) :
    Block :=
  let df := defOf cl off
  let err (b : Block) (e : PgErr) : Block := b.pgErr pg e id (errOff al off) true
  let b := if al ≠ .base ∧ d &&& ~~~df.rw ≠ 0 then err b .aliased else b
  if 0x40 ≤ off ∧ !(b.hdr pg).enable then err b .lockviol
  else if df.key ∧ locked then err b .lockviol
  else if df.wonce ∧ al = .base ∧ b.fab.instSet then err b .lockviol
  else if df.rw = 0 ∧ (al ≠ .base ∨ df.wo = 0) then b
  else
    let cur := match b.waiting pg off with
      | some x => x
      | none => b.readReg id pg cl off &&& df.rw
    let v := aliasVal al cur df.rw df.wo d
    if off < 0x40 then b.writeHdr id pg cl al off v
    else
      let ex := b.expertOf id pg cl df
      let b := if (v ^^^ cur) &&& ex &&& df.rw ≠ 0 then err b .lockviol else b
      if ex ≠ 0 ∧ (df.rw ||| df.wo) &&& ~~~ex = 0 then b
      else b.ruledWrite id pg cl al off df cur (blend ex v cur)

/-! ### Parts that the Turnstile has passed -/

/-- The units that a register access wakes (R354). -/
def pageUnits (pg off : Nat) : List (GateUnit × Nat) :=
  match pgClass pg with
  | some .stn => [(.station, pg - 0x10)]
  | some .re => [(.engine, pg - 0x28), (.ctxBank, pg - 0x28)] ++ if off = 0x054 then [(.pendBank, pg - 0x28)] else []
  | some .erw => (List.range 4).map fun w => (.writer, w)
  | some .xu => [(.xlate, 0)]
  | _ => []

/-- A register access wakes its units. -/
def Block.wakeUnits (b : Block) (pg off : Nat) : Block := (pageUnits pg off).foldl (fun b u => b.ungate u.1 u.2) b

/-- The owner's access to a mailbox register restarts the idle time (R378). -/
def Block.mbxTouch (b : Block) (id : BitVec 5) (pg off : Nat) : Block :=
  if pg = pgRM ∧ ((0x054 ≤ off ∧ off ≤ 0x05C) ∨ (0x100 ≤ off ∧ off < 0x200)) ∧ b.rm.ownedBy id then
    { b with rm := { b.rm with idleAt := b.clk.ns } }
  else b

/-- A write part behind the Turnstile (Table 12-3 from row 4 on); answers whether it meets an error response. -/
def Block.writeOpen (b : Block) (id : BitVec 5) (pg : Nat) (al : Alias) (off : Nat) (d : Word) : Block × Bool :=
  match pgClass pg with
  | none => (b.tsLog 2 id true pg (off / 4), true)
  | some cl =>
    if cl = .csg ∧ !b.csgBuilt (pg - 0x40) then (b, false)
    else
      let locked := !(b.hdr pg).unlocked
      let b := if off = 0x014 ∧ al = .base then b else b.setHdr pg { b.hdr pg with unlocked := false }
      if (b.fab.posted.find? pg).isSome then (b.pgErr pg .overrun id (errOff al off) true, true)
      else (((b.wakeUnits pg off).writeFields id pg cl al off d locked).mbxTouch id pg off, false)

/-- A read part behind the Turnstile: block, error, data. -/
def Block.readOpen (b : Block) (id : BitVec 5) (pg : Nat) (off : Nat) : Block × Bool × Word :=
  match pgClass pg with
  | none => (b.tsLog 2 id false pg (off / 4), true, 0)
  | some cl =>
    if cl = .csg ∧ !b.csgBuilt (pg - 0x40) then (b, false, if off = 0 then b.readHdr pg cl 0 else 0)
    else
      let (b, bad) := (b.wakeUnits pg off).selBad pg off
      let v := if bad then 0 else b.readReg id pg cl off
      let b := b.mbxTouch id pg off
      (if pg = pgCAR ∧ off = 0x04C then b.slotNext else b, false, v)

/-- The flags that one cycle sets advance the SEQ of a page by 1 only (R329), in the log records of those flags as well: the block
before and after the cycle. -/
def Block.oneSeq (b b' : Block) : Block :=
  let one (pg : Nat) (h : PageHdr) : PageHdr := if h.seq = (b.hdr pg).seq then h else { h with seq := (b.hdr pg).seq + 1 }
  let b' := { b' with fab := { b'.fab with hdr := b'.fab.hdr.remap {} one } }
  let n := b.rm.logq.length
  let mend (r : LogRec) : LogRec :=
    if r.cls = 7 then { r with data := (r.data &&& ~~~(0xFF000000 : BitVec 128)) ||| at' (b'.hdr r.src.toNat).seq 24 } else r
  { b' with rm := { b'.rm with logq := b'.rm.logq.take n ++ (b'.rm.logq.drop n).map mend } }

/-- One 32-bit write part to a register page (Table 12-3 from row 3 on); answers whether it meets an error response. -/
def Block.writePart (b : Block) (port : Bool) (id : BitVec 5) (pg : Nat) (al : Alias) (off : Nat) (d : Word) : Block × Bool :=
  let r := if b.admits port id pg (off / 4) true then b.writeOpen id pg al off d else (b.deny id pg al off true, true)
  (b.oneSeq r.1, r.2)

/-- One 32-bit read part of a register page: block, error, data. -/
def Block.readPart (b : Block) (port : Bool) (id : BitVec 5) (pg : Nat) (al : Alias) (off : Nat) : Block × Bool × Word :=
  let r := if b.admits port id pg (off / 4) false then b.readOpen id pg off else (b.deny id pg al off false, true, 0)
  (b.oneSeq r.1, r.2)

/-! ### When the port serves an access -/

/-- What the register port does with an access: serve it, serve the pages of PD1 to PD4 only (Table 15-1), answer with an
error, answer with an error from PD0 (R363), or leave it waiting for MCLK. -/
inductive PortMode where
  | serve | few | error | asleep | wait
  deriving DecidableEq, Repr

/-- The mode of the port. -/
def Block.portMode (b : Block) : PortMode :=
  if b.clk.hung = some .mclk then .wait
  else if b.accAsleep then .asleep
  else match b.pwr.stage with
    | .held | .sio | .fio | .backup | .scan => .error
    | .check | .lock | .arrays | .dpOff => .few
    | _ => .serve

/-- The pages served before the data plane runs (Table 15-1). -/
def earlyPage (pg : Nat) : Bool := [pgGLB, pgTRN, pgCPC, pgPWR, pgTU, pgRAS].contains pg

/-- A register write of a command code: the field is what the command says. -/
def withOp (w : RegAcc) (m v : Word) : RegAcc := { w with data := blend m w.data v }

/-! ### Accesses of a size at an address (R326, R216) -/

/-- The word of a part in the lanes of its address (Table 17-2). -/
def laneWord (addr : Nat) (d : BitVec 64) : Word := if addr % 8 < 4 then fld d 31 0 else fld d 63 32

/-- A word in the lanes of its address. -/
def inLane (addr : Nat) (w : Word) : BitVec 64 := if addr % 8 < 4 then w.setWidth 64 else at' w 32

/-- The bytes an access addresses, as a mask of the lanes. -/
def laneMask (addr size : Nat) : BitVec 64 := (((1 : BitVec 128) <<< (8 * 2 ^ size)) - 1).setWidth 64 <<< (8 * (addr % 8))

/-- The addresses of the 32-bit parts of an access. -/
def partsOf (addr size : Nat) : List Nat := if size = 3 then [addr, addr + 4] else [addr / 4 * 4]

/-- The page, alias part and offset of an address in register space (R320). -/
def pageOf (addr : Nat) : Nat := addr / 0x4000 % 128
def partOf (addr : Nat) : Alias := aliasOf (addr / 0x1000 % 4)
def offOf (addr : Nat) : Nat := addr % 0x1000 / 4 * 4

/-- An access is misaligned. -/
def misaligned (addr size : Nat) : Bool := addr % 2 ^ size != 0

/-! ### Thread interface pages (R214 to R217) -/

/-- The window of a page offset; none for the seat window. -/
def winOf (off : Nat) : Option Win :=
  match off / 0x400 % 4 with
  | 0 => some .host | 1 => some .guest | 2 => some .user | _ => none

/-- A window offset that the window register tables define. -/
def winDefined (o : Nat) : Bool := decide (o ≤ 0x034)

/-- What a write at a window offset does; none: a read-only register. -/
def winWrite (o : Nat) (d : Word) : Option TifAct :=
  match o with
  | 0x004 => some (.eoi d) | 0x008 => some (.deact d) | 0x010 => some (.gate d) | 0x014 => some (.ctl d)
  | 0x01C => some (.statusClr d) | 0x020 => some (.utag d) | 0x024 => some (.ipi d) | 0x028 => some (.tdlLo d)
  | 0x02C => some (.tdlHi d) | 0x030 => some (.timer d)
  | _ => none

/-- What a read at a window offset does. -/
def winRead (o : Nat) : TifAct := if o = 0 then .ack else .read o

/-- A write part to an absolute page that the Turnstile has passed: block, error. -/
def Block.tifAbsWrite (b : Block) (t off : Nat) (d : Word) : Block × Bool × Word :=
  let o := off % 0x400
  if b.threads ≤ t then (b, true, 0)
  else match winOf off with
    | some w =>
      if !winDefined o then (b, true, 0)
      else match winWrite o d with
        | some a => ((b.tifDo t w a).1, false, 0)
        | none => (b, false, 0)
    | none => (b, !decide (o ≤ 8), 0)

/-- A read part of an absolute page that the Turnstile has passed. -/
def Block.tifAbsRead (b : Block) (t off : Nat) : Block × Bool × Word :=
  let o := off % 0x400
  if b.threads ≤ t then (b, true, 0)
  else match winOf off with
    | some w =>
      if !winDefined o then (b, true, 0) else let r := b.tifDo t w (winRead o); (r.1, false, r.2)
    | none =>
      if o = 0 then (b, false, b.seatWord (2 * t)) else if o = 4 then (b, false, b.seatWord (2 * t + 1))
      else if o = 8 then (b, false, b.linesWord t) else (b, true, 0)

/-- The place of a window in its page. -/
def winBase : Win → Nat
  | .host => 0 | .guest => 0x400 | .user => 0x800

/-- The core's access, or a part of it, fails. -/
def Block.coreErr (b : Block) (t : Nat) (hi : Bool) : Block := b.setThread t ((b.thread t).answer hi { err := true })

/-- One part of a core's access to its self alias. A thread at or above T meets an error everywhere (R214), any
thread during a data-plane restart (R399); an access below the
window's privilege counts, whatever the offset (R215); then an offset that no table defines meets an error. -/
def Block.selfPart (b : Block) (t : ThreadNo) (priv : BitVec 2) (off : Nat) (wr : Option Word) : Block :=
  let o := off % 0x400
  let hi := decide (o % 8 = 4)
  let done (b : Block) : Block := b.setThread t.toNat ((b.thread t.toNat).answer hi {})
  if b.pwr.stage == .restart || b.threads ≤ t.toNat then b.coreErr t.toNat hi
  else match winOf off with
  | some w =>
    let op : TifOp := { thread := t, win := w, via := .self priv }
    if priv.toNat < winPriv w then b.selfOp op priv (.read o)
    else if !winDefined o then b.coreErr t.toNat hi
    else match wr with
      | none => b.selfOp op priv (winRead o)
      | some d => match winWrite o d with
        | some a => b.selfOp op priv a
        | none => done b
  | none => if o ≤ 8 then done b else b.coreErr t.toNat hi

/-- A core's access to its self alias (R214, R216): two parts, lower address first, for 64 bits. It waits for room in the
thread's queue. -/
def Block.selfAccess (b : Block) (t : ThreadNo) (priv : BitVec 2) (a : Access) (wr : Bool) : Block :=
  let addr := a.addr.toNat % 4096
  let h := b.thread t.toNat
  let n := (partsOf addr a.size.toNat).length
  if a.size.toNat < 2 || misaligned addr a.size.toNat then b.setThread t.toNat
    (({ h with wide := none } : Thread).answer false { err := true })
  else
    let b := b.setThread t.toNat { h with wide := if 1 < n then some ({}, n) else none }
    (partsOf addr a.size.toNat).foldl (fun b x => b.selfPart t priv x (if wr then some (laneWord x a.data) else none)) b

/-! ### The port (R324, R326) -/

/-- Rows 1 and 2 of Table 12-3, and the size rules of the apertures: the size or alignment error of an access. -/
def badAccess (a : Access) (wr : Bool) : Option PgErr :=
  if a.size.toNat < 2 && (wr || a.space != .regs) then some .size
  else if misaligned a.addr.toNat a.size.toNat then some .align else none

/-- A size or alignment error of an access to register space is recorded in an assigned page. -/
def Block.sizeErr (b : Block) (e : PgErr) (a : Access) (wr : Bool) : Block :=
  let addr := a.addr.toNat
  if a.space == .regs && (pgClass (pageOf addr)).isSome then b.pgErr (pageOf addr) e a.rid (BitVec.ofNat 14 addr) wr else b

/-- The page number that the Turnstile checks for a part at an address (Table 12-2). -/
def tpnOf (a : Access) (x : Nat) : Nat :=
  match a.space with
  | .regs => pageOf x
  | .vif => 0x1000 + x / 4096 % 4096
  | .tif => 0x2000 + x / 4096 % 4096
  | _ => 0x3000

/-- A part passes the Turnstile. -/
def Block.admitsPart (b : Block) (a : Access) (wr : Bool) (x : Nat) : Bool := b.admits true a.rid (tpnOf a x) (x % 4096 / 4) wr

/-- A part that the Turnstile refuses (R338). -/
def Block.denyPart (b : Block) (a : Access) (wr : Bool) (x : Nat) : Block :=
  match a.space with
  | .regs => b.deny a.rid (pageOf x) (partOf x) (offOf x) wr
  | _ => b.tsLog 1 a.rid wr (tpnOf a x) (x % 4096 / 4)

/-- What a part behind the Turnstile does: block, error, data. -/
def Block.openPart (b : Block) (a : Access) (wr : Bool) (x : Nat) : Block × Bool × Word :=
  let d := laneWord x a.data
  let n := x / 4096 % 4096
  match a.space, wr with
  | .regs, true => let r := b.writeOpen a.rid (pageOf x) (partOf x) (offOf x) d; (r.1, r.2, 0)
  | .regs, false => b.readOpen a.rid (pageOf x) (offOf x)
  | .vif, true => (b.vifPageWrite n (x % 4096) d, false, 0)
  | .vif, false => (b, false, b.vifPageRead n (x % 4096))
  | .tif, true => b.tifAbsWrite n (x % 4096) d
  | .tif, false => b.tifAbsRead n (x % 4096)
  | .pmu, false => match b.pmuUser (x % 4096) with
    | some v => (b, false, v)
    | none => (b, true, 0)
  | .pmu, true => (b, true, 0)
  | .core _ _, _ => (b, true, 0)

/-! #### Parts that wait for a grant in the data plane -/

/-- What a write of a register waits for: RE_EVSTAT for the bank of its event (R56, R443), ERW_RING_CI for the ring descriptor table; a
write that another check ends, or that is held for a boundary, waits for nothing. -/
def Block.regAsk (b : Block) (pg off : Nat) : PortAsk :=
  if !(b.hdr pg).enable || (b.fab.posted.find? pg).isSome then .none
  else if pgClass pg = some .re ∧ off = 0x054 then
    if b.evselOk pg && !(b.hdr pg).apply then .mask (b.regFld pg 0x050 19 0) else .none
  else if pg = pgERW ∧ off = 0x058 then .ring (b.regFld pgERW 0x048 13 0)
  else .none

/-- What a write of a VIF page waits for: VIF_RING_CI for the ring descriptor table. -/
def Block.vifAsk (b : Block) (v off : Nat) : PortAsk :=
  if (b.vifOf v).state == .active && decide (0x100 ≤ off ∧ off < 0x200 ∧ off % 16 = 0) then
    match b.slotRing v ((off - 0x100) / 16) with
    | some r => .ring r
    | none => .none
  else .none

/-- What an operation through an absolute page waits for: the bank of the context in its window's seat (R214, R217). -/
def Block.tifAsk (b : Block) (t off : Nat) (wr : Bool) : PortAsk :=
  let o := off % 0x400
  match winOf off with
  | some w =>
    if b.threads ≤ t || !winDefined o || (wr && (winWrite o 0).isNone) then .none
    else match (b.seatOf (b.winSeat t w)).ctx with
      | some c => .bank (ctxBank c)
      | none => .none
  | none => .none

/-- What a part behind the Turnstile waits for. -/
def Block.partAsk (b : Block) (a : Access) (wr : Bool) (x : Nat) : PortAsk :=
  match a.space with
  | .regs => if wr then b.regAsk (pageOf x) (offOf x) else .none
  | .vif => if wr then b.vifAsk (x / 4096 % 4096) (x % 4096) else .none
  | .tif => b.tifAsk (x / 4096 % 4096) (x % 4096) wr
  | _ => .none

/-- The head's part asks for its grant; a CI write of a ring that has not been read back moves its line to the front (R362). -/
def Block.putAsk (b : Block) (q : PortAsk) : Block :=
  let b := { b with fab := { b.fab with ask := q } }
  match q with
  | .ring r => b.frontLine r
  | .bank n => b.setBank n { b.bank n with in16 := (b.bank n).in16 ++ [.port] }
  | _ => b

/-- The arbiter of the resource that the head waits for picks it (R38). -/
def Block.askPicked (b : Block) : Bool :=
  match b.fab.ask with
  | .none => true
  | .mask e => b.pendPick (evBank e) == some 13 && !(b.fab.masks.any fun m => evBank m.1 == evBank e)
  | .ring r => b.ringPick (ringWriter r) == some 1
  | .bank q => b.bankPick q == some 16 && (b.bank q).in16.head? == some .port

/-- The head's part is granted: it waits no more. -/
def Block.takeGrant (b : Block) : Block :=
  let b' := { b with fab := { b.fab with ask := .none, askOld := false } }
  match b.fab.ask with
  | .none => b
  | .mask e => b'.granted (.pendBank (evBank e)) 13
  | .ring r => b'.granted (.ringTable (ringWriter r)) 1
  | .bank q => (b'.bankPop q 16).granted (.ctxBank q) 16

/-- The head's part waits no more, ungranted. -/
def Block.dropAsk (b : Block) : Block :=
  let b' := { b with fab := { b.fab with ask := .none, askOld := false } }
  match b.fab.ask with
  | .none => b
  | .bank q => b'.setBank q { b'.bank q with in16 := (b'.bank q).in16.erase .port }
  | _ => b'

/-! #### The queue of the port -/

/-- The access at the head of the port is answered. -/
def Block.endAccess (b : Block) (r : PortRsp) : Block :=
  { b with fab := { b.fab with q := b.fab.q.drop 1, done := none, rsp := some r } }

/-- The head of the port leaves its queue while a part of it is performed. -/
def Block.popHead (b : Block) : Block := { b with fab := { b.fab with q := b.fab.q.drop 1, done := none } }

/-- A part of the head is performed, by `f`: the access goes back for its second part, or is answered. -/
def Block.doPart (b : Block) (a : Access) (wr : Bool) (x : Nat) (f : Block → Block × Bool × Word) : Block :=
  let p := b.fab.done.getD {}
  let r := f b.popHead
  let q : PortRsp := { err := p.err || r.2.1, data := p.data ||| inLane x r.2.2 }
  let data := if wr then 0 else q.data &&& laneMask a.addr.toNat a.size.toNat
  let b' := b.popHead.oneSeq r.1
  if a.size.toNat = 3 && b.fab.done.isNone then { b' with fab := { b'.fab with q := (a, wr) :: b'.fab.q, done := some q } }
  else { b' with fab := { b'.fab with rsp := some { q with data } } }

/-- The address of the part of the head that comes next. -/
def Block.nextPart (b : Block) (a : Access) : Nat :=
  if a.size.toNat = 3 then a.addr.toNat + (if b.fab.done.isSome then 4 else 0) else a.addr.toNat / 4 * 4

/-- The mode in which an access meets the port. During a data-plane restart the thread interface answers with an error (R399). -/
def Block.modeOf (b : Block) (a : Access) : PortMode :=
  match b.portMode with
  | .few => if a.space == .regs && earlyPage (pageOf a.addr.toNat) then .serve else .error
  | .serve => if a.space == .tif && b.pwr.stage == .restart then .error else .serve
  | m => m

/-- A part of the head that has been checked: it is performed, or asks for its grant. -/
def Block.tryPart (b : Block) (a : Access) (wr : Bool) (x : Nat) (granted : PortAsk) : Block :=
  let q := b.partAsk a wr x
  if q = .none || q = granted then b.doPart a wr x (·.openPart a wr x) else b.putAsk q

/-- One step of the head of the port: it is answered by the mode of the port, or its next part is checked, asks, is granted and
performed (R324, R326); none: nothing to do, or the head waits. -/
def Block.portStep (b : Block) : Option Block :=
  match b.fab.q with
  | [] => none
  | (a, wr) :: _ =>
    let x := b.nextPart a
    match b.modeOf a with
    | .wait => none
    | .serve => match badAccess a wr with
      | some e => some ((b.sizeErr e a wr).endAccess { err := true })
      | none =>
        if b.fab.ask = .none then
          some (if b.admitsPart a wr x then b.tryPart a wr x .none else b.doPart a wr x fun b => (b.denyPart a wr x, true, 0))
        else if b.askPicked then some (b.takeGrant.tryPart a wr x b.fab.ask)
        else none
    | .asleep => some (({ b.dropAsk with pwr := { b.pwr with asleepAcc := true } }).endAccess { err := true })
    | _ => some (b.dropAsk.endAccess { err := true })

/-- The port performs accesses in their order of arrival as far as it can. -/
def Block.servePort (b : Block) : Nat → Block
  | 0 => b
  | fuel + 1 => match b.portStep with
    | some b' => Block.servePort b' fuel
    | none => b

/-- The port goes on: an access takes at most four steps. -/
def Block.runPort (b : Block) : Block := b.servePort (4 * b.fab.q.length)

/-- An access of any space: a core's own, or one that arrives at the register port behind those that wait there (R324). -/
def Block.access (b : Block) (a : Access) (wr : Bool) : Block :=
  match a.space with
  | .core t priv => b.selfAccess t priv a wr
  | _ => ({ b with fab := { b.fab with q := b.fab.q ++ [(a, wr)] } } : Block).runPort

/-- The access to a register page that a command names. -/
def regAccess (pg off : Nat) (al : Alias) (id : BitVec 5) (d : Word) : Access :=
  { space := .regs, addr := BitVec.ofNat 24 (0x4000 * pg + 0x1000 * aliasNum al + off), size := 2, data := inLane off d, rid := id }

/-- A register write that its command names: page and offset fixed, data as given. -/
def Block.regCmd (b : Block) (pg off : Nat) (w : RegAcc) : Block := b.access (regAccess pg off w.als w.rid w.data) true

/-- The data an operation writes. -/
def TifAct.word : TifAct → Word
  | .ack | .read _ => 0
  | .eoi d | .deact d | .gate d | .ctl d | .statusClr d | .utag d | .ipi d | .tdlLo d | .tdlHi d | .timer d => d

/-- A thread operation (R217): through the self alias, or the absolute page on the register port. -/
def Block.tifOp (b : Block) (o : TifOp) (a : TifAct) : Block :=
  match o.via with
  | .self priv => b.selfOp o priv a
  | .absolute id =>
    let off := winBase o.win + a.off
    b.access { space := .tif, addr := BitVec.ofNat 24 (4096 * o.thread.toNat + off), size := 2, data := inLane off a.word, rid := id }
      (!a.isRead)

end Sys2Proof.Machine
end

