-- ==== Sys2Proof/Machine/RegCmds.lean ====
section
/-! DEFINITION. The commands that are register accesses: each is the write or read that its row names, with the command code
it names, through every check of the register port; and the operations of the thread interface. -/

namespace Sys2Proof.Machine

/-- A field of a command word that must not be one of the defined codes `lo` to `hi`: a defined one gives 0. -/
def undefOp (d m : Word) (lo hi : Nat) : Word :=
  if lo ≤ (d &&& m).toNat ∧ (d &&& m).toNat ≤ hi then 0 else d

/-! ### Stations and line collectors (R84, R99, R109, R112) -/

/-- STN_INV: GO is written. -/
def execStnInv (k : Fin 8) (w : RegAcc) (s : State) : Host.Outcome State Fault Refusal :=
  .next { s with blk := s.blk.regCmd (pgSTN k) 0x044 (withOp w 4 4) }

/-- STN_CTL. -/
def execStnCtl (k : Fin 8) (w : RegAcc) (s : State) : Host.Outcome State Fault Refusal :=
  .next { s with blk := s.blk.regCmd (pgSTN k) 0x040 w }

/-- LC_EN r. -/
def execLcEn (c : Fin 16) (r : Fin 4) (w : RegAcc) (s : State) : Host.Outcome State Fault Refusal :=
  .next { s with blk := s.blk.regCmd (pgLC c) (0x040 + 4 * r.val) w }

/-- LC_LEVEL r. -/
def execLcLevel (c : Fin 16) (r : Fin 4) (w : RegAcc) (s : State) : Host.Outcome State Fault Refusal :=
  .next { s with blk := s.blk.regCmd (pgLC c) (0x050 + 4 * r.val) w }

/-- LC_POL r. -/
def execLcPol (c : Fin 16) (r : Fin 4) (w : RegAcc) (s : State) : Host.Outcome State Fault Refusal :=
  .next { s with blk := s.blk.regCmd (pgLC c) (0x060 + 4 * r.val) w }

/-- LC_INJECT: GO is written. -/
def execLcInject (c : Fin 16) (w : RegAcc) (s : State) : Host.Outcome State Fault Refusal :=
  .next { s with blk := s.blk.regCmd (pgLC c) 0x090 (withOp w 0x100 0x100) }

/-! ### The thread interface (R73 to R76, R159, R195, R217 to R219) -/

/-- ACK. -/
def execAck (o : TifOp) (s : State) : Host.Outcome State Fault Refusal :=
  .next { s with blk := s.blk.tifOp o .ack }

/-- A write of EOI. -/
def execEoi (o : TifOp) (data : Word) (s : State) : Host.Outcome State Fault Refusal :=
  .next { s with blk := s.blk.tifOp o (.eoi data) }

/-- A write of DEACT. -/
def execDeact (o : TifOp) (data : Word) (s : State) : Host.Outcome State Fault Refusal :=
  .next { s with blk := s.blk.tifOp o (.deact data) }

/-- A write of GATE. -/
def execGateWrite (o : TifOp) (data : Word) (s : State) : Host.Outcome State Fault Refusal :=
  .next { s with blk := s.blk.tifOp o (.gate data) }

/-- A write of CTL. -/
def execCtlWrite (o : TifOp) (data : Word) (s : State) : Host.Outcome State Fault Refusal :=
  .next { s with blk := s.blk.tifOp o (.ctl data) }

/-- A write of STATUS_CLR. -/
def execStatusClr (o : TifOp) (data : Word) (s : State) : Host.Outcome State Fault Refusal :=
  .next { s with blk := s.blk.tifOp o (.statusClr data) }

/-- A write of UTAG. -/
def execUtagWrite (o : TifOp) (data : Word) (s : State) : Host.Outcome State Fault Refusal :=
  .next { s with blk := s.blk.tifOp o (.utag data) }

/-- A write of IPI_SEND. -/
def execIpiSend (o : TifOp) (data : Word) (s : State) : Host.Outcome State Fault Refusal :=
  .next { s with blk := s.blk.tifOp o (.ipi data) }

/-- A write of TDL_LO. -/
def execTdlLoWrite (o : TifOp) (data : Word) (s : State) : Host.Outcome State Fault Refusal :=
  .next { s with blk := s.blk.tifOp o (.tdlLo data) }

/-- A write of TIMER. -/
def execTimerWrite (o : TifOp) (data : Word) (s : State) : Host.Outcome State Fault Refusal :=
  .next { s with blk := s.blk.tifOp o (.timer data) }

/-- ACK_PEEK. -/
def execAckPeek (o : TifOp) (s : State) : Host.Outcome State Fault Refusal :=
  .next { s with blk := s.blk.tifOp o (.read 0x034) }

/-! ### Residency commands (R222 to R226) -/

/-- CSG_CMD LOAD. -/
def execCtxLoad (g : Fin 32) (w : RegAcc) (s : State) : Host.Outcome State Fault Refusal :=
  .next { s with blk := s.blk.regCmd (pgCSG g) 0x044 (withOp w 0xF 1) }

/-- CSG_CMD UNLOAD. -/
def execCtxUnload (g : Fin 32) (w : RegAcc) (s : State) : Host.Outcome State Fault Refusal :=
  .next { s with blk := s.blk.regCmd (pgCSG g) 0x044 (withOp w 0xF 2) }

/-- CSG_CMD SEAT. -/
def execCtxSeat (g : Fin 32) (w : RegAcc) (s : State) : Host.Outcome State Fault Refusal :=
  .next { s with blk := s.blk.regCmd (pgCSG g) 0x044 (withOp w 0xF 3) }

/-- CSG_CMD UNSEAT. -/
def execCtxUnseat (g : Fin 32) (w : RegAcc) (s : State) : Host.Outcome State Fault Refusal :=
  .next { s with blk := s.blk.regCmd (pgCSG g) 0x044 (withOp w 0xF 4) }

/-- CSG_CMD MOVE. -/
def execCtxMove (g : Fin 32) (w : RegAcc) (s : State) : Host.Outcome State Fault Refusal :=
  .next { s with blk := s.blk.regCmd (pgCSG g) 0x044 (withOp w 0xF 5) }

/-- CSG_CMD with an undefined OP: one of 1 to 5 is taken as 0. -/
def execCsgBadop (g : Fin 32) (w : RegAcc) (s : State) : Host.Outcome State Fault Refusal :=
  .next { s with blk := s.blk.regCmd (pgCSG g) 0x044 (withOp w 0xF (undefOp w.data 15 1 5)) }

/-! ### Route engines (R55, R157, R162, R165) -/

/-- RE_PIN, OP 1. -/
def execRePin (n : Fin 16) (w : RegAcc) (s : State) : Host.Outcome State Fault Refusal :=
  .next { s with blk := s.blk.regCmd (pgRE n) 0x058 (withOp w 0x30000 0x10000) }

/-- RE_PIN, OP 2. -/
def execReUnpin (n : Fin 16) (w : RegAcc) (s : State) : Host.Outcome State Fault Refusal :=
  .next { s with blk := s.blk.regCmd (pgRE n) 0x058 (withOp w 0x30000 0x20000) }

/-- RE_WAKE.FILT_CLR. -/
def execFiltClr (n : Fin 16) (w : RegAcc) (s : State) : Host.Outcome State Fault Refusal :=
  .next { s with blk := s.blk.regCmd (pgRE n) 0x04C (withOp w 0x100 0x100) }

/-- M of the selected event is set, through the SET alias of RE_EVSTAT. -/
def execMaskSet (n : Fin 16) (w : RegAcc) (s : State) : Host.Outcome State Fault Refusal :=
  .next { s with blk := s.blk.regCmd (pgRE n) 0x054 { withOp w 4 4 with als := .set } }

/-- M of the selected event is cleared, through the CLEAR alias of RE_EVSTAT. -/
def execMaskClear (n : Fin 16) (w : RegAcc) (s : State) : Host.Outcome State Fault Refusal :=
  .next { s with blk := s.blk.regCmd (pgRE n) 0x054 { withOp w 4 4 with als := .clear } }

/-! ### The Last (R127, R128, R134, R140) -/

/-- LAST_CMD LOAD. -/
def execLastLoad (w : RegAcc) (s : State) : Host.Outcome State Fault Refusal :=
  .next { s with blk := s.blk.regCmd pgLAST 0x040 (withOp w 7 1) }

/-- LAST_CMD COMMIT. -/
def execCommit (w : RegAcc) (s : State) : Host.Outcome State Fault Refusal :=
  .next { s with blk := s.blk.regCmd pgLAST 0x040 (withOp w 7 2) }

/-- LAST_CMD ROLLBACK. -/
def execRollback (w : RegAcc) (s : State) : Host.Outcome State Fault Refusal :=
  .next { s with blk := s.blk.regCmd pgLAST 0x040 (withOp w 7 3) }

/-- LAST_CMD ABORT. -/
def execAbort (w : RegAcc) (s : State) : Host.Outcome State Fault Refusal :=
  .next { s with blk := s.blk.regCmd pgLAST 0x040 (withOp w 7 4) }

/-- LAST_CMD BUILD. -/
def execBuild (w : RegAcc) (s : State) : Host.Outcome State Fault Refusal :=
  .next { s with blk := s.blk.regCmd pgLAST 0x040 (withOp w 7 5) }

/-- LAST_CMD with OP 0, 6 or 7: another is taken as 0. -/
def execLastBadop (w : RegAcc) (s : State) : Host.Outcome State Fault Refusal :=
  .next { s with blk := s.blk.regCmd pgLAST 0x040 (withOp w 7 (undefOp w.data 7 1 5)) }

/-- CFG_CRC_COMMIT. -/
def execCfgCrcCommit (w : RegAcc) (s : State) : Host.Outcome State Fault Refusal :=
  .next { s with blk := s.blk.regCmd pgLAST 0x07C (withOp w 1 1) }

/-- CFG_CRC_REF. -/
def execCfgCrcRef (w : RegAcc) (s : State) : Host.Outcome State Fault Refusal :=
  .next { s with blk := s.blk.regCmd pgLAST 0x074 w }

/-! ### The Carousel and the time unit (R174 to R178, R186, R190, R192) -/

/-- CAR_PERIOD. -/
def execCarPeriodWrite (w : RegAcc) (s : State) : Host.Outcome State Fault Refusal :=
  .next { s with blk := s.blk.regCmd pgCAR 0x040 w }

/-- CAR_SLOT_DATA, a write. -/
def execCarSlotDataWrite (w : RegAcc) (s : State) : Host.Outcome State Fault Refusal :=
  .next { s with blk := s.blk.regCmd pgCAR 0x04C w }

/-- CAR_SLOT_DATA, a read. -/
def execCarSlotDataRead (rid : BitVec 5) (s : State) : Host.Outcome State Fault Refusal :=
  .next { s with blk := s.blk.access (regAccess pgCAR 0x04C .base rid 0) false }

/-- CAR_CTL. -/
def execCarCtlWrite (w : RegAcc) (s : State) : Host.Outcome State Fault Refusal :=
  .next { s with blk := s.blk.regCmd pgCAR 0x050 w }

/-- TU_FREQ_ADJ_LO. -/
def execTuFreqAdjLo (w : RegAcc) (s : State) : Host.Outcome State Fault Refusal :=
  .next { s with blk := s.blk.regCmd pgTU 0x054 w }

/-- TU_STEP_LO. -/
def execTuStepLo (w : RegAcc) (s : State) : Host.Outcome State Fault Refusal :=
  .next { s with blk := s.blk.regCmd pgTU 0x05C w }

/-- TU_SET_LO. -/
def execTuSetLo (w : RegAcc) (s : State) : Host.Outcome State Fault Refusal :=
  .next { s with blk := s.blk.regCmd pgTU 0x064 w }

/-- TU_CTL. -/
def execTuCtlWrite (w : RegAcc) (s : State) : Host.Outcome State Fault Refusal :=
  .next { s with blk := s.blk.regCmd pgTU 0x040 w }

/-! ### Rings (R245, R247, R250) -/

/-- ERW_RING_CI. -/
def execErwRingCi (w : RegAcc) (s : State) : Host.Outcome State Fault Refusal :=
  .next { s with blk := s.blk.regCmd pgERW 0x058 w }

/-- ERW_RING_CMD CLEAR_FAULT. -/
def execClearFault (w : RegAcc) (s : State) : Host.Outcome State Fault Refusal :=
  .next { s with blk := s.blk.regCmd pgERW 0x060 (withOp w 3 1) }

/-- ERW_RING_CMD RESET. -/
def execRingReset (w : RegAcc) (s : State) : Host.Outcome State Fault Refusal :=
  .next { s with blk := s.blk.regCmd pgERW 0x060 (withOp w 3 2) }

/-- ERW_VIF_SHARE. -/
def execErwVifShare (w : RegAcc) (s : State) : Host.Outcome State Fault Refusal :=
  .next { s with blk := s.blk.regCmd pgERW 0x06C w }

/-! ### VIFs (R257 to R271) -/

/-- VMGR_CMD CREATE. -/
def execVifCreate (w : RegAcc) (s : State) : Host.Outcome State Fault Refusal :=
  .next { s with blk := s.blk.regCmd pgVMGR 0x050 (withOp w 0xF 1) }

/-- VMGR_CMD RESET. -/
def execVifReset (w : RegAcc) (s : State) : Host.Outcome State Fault Refusal :=
  .next { s with blk := s.blk.regCmd pgVMGR 0x050 (withOp w 0xF 2) }

/-- VMGR_CMD DESTROY. -/
def execVifDestroy (w : RegAcc) (s : State) : Host.Outcome State Fault Refusal :=
  .next { s with blk := s.blk.regCmd pgVMGR 0x050 (withOp w 0xF 3) }

/-- VMGR_CMD SET_CTX. -/
def execSetCtx (w : RegAcc) (s : State) : Host.Outcome State Fault Refusal :=
  .next { s with blk := s.blk.regCmd pgVMGR 0x050 (withOp w 0xF 4) }

/-- VMGR_CMD SET_RING. -/
def execSetRing (w : RegAcc) (s : State) : Host.Outcome State Fault Refusal :=
  .next { s with blk := s.blk.regCmd pgVMGR 0x050 (withOp w 0xF 5) }

/-- VMGR_CMD SET_NOTIFY. -/
def execSetNotify (w : RegAcc) (s : State) : Host.Outcome State Fault Refusal :=
  .next { s with blk := s.blk.regCmd pgVMGR 0x050 (withOp w 0xF 6) }

/-- VMGR_CMD DIRTY_START. -/
def execDirtyStart (w : RegAcc) (s : State) : Host.Outcome State Fault Refusal :=
  .next { s with blk := s.blk.regCmd pgVMGR 0x050 (withOp w 0xF 7) }

/-- VMGR_CMD DIRTY_STOP. -/
def execDirtyStop (w : RegAcc) (s : State) : Host.Outcome State Fault Refusal :=
  .next { s with blk := s.blk.regCmd pgVMGR 0x050 (withOp w 0xF 8) }

/-- VMGR_CMD HARVEST. -/
def execHarvest (w : RegAcc) (s : State) : Host.Outcome State Fault Refusal :=
  .next { s with blk := s.blk.regCmd pgVMGR 0x050 (withOp w 0xF 9) }

/-- VMGR_CMD DRAIN. -/
def execDrain (w : RegAcc) (s : State) : Host.Outcome State Fault Refusal :=
  .next { s with blk := s.blk.regCmd pgVMGR 0x050 (withOp w 0xF 10) }

/-- VMGR_CMD RING_IDX. -/
def execRingIdx (w : RegAcc) (s : State) : Host.Outcome State Fault Refusal :=
  .next { s with blk := s.blk.regCmd pgVMGR 0x050 (withOp w 0xF 11) }

/-- VMGR_CMD with an undefined OP: one of 1 to 11 is taken as 0. -/
def execVmgrBadop (w : RegAcc) (s : State) : Host.Outcome State Fault Refusal :=
  .next { s with blk := s.blk.regCmd pgVMGR 0x050 (withOp w 0xF (undefOp w.data 15 1 11)) }

/-- VMGR_DL_CI. -/
def execVmgrDlCi (w : RegAcc) (s : State) : Host.Outcome State Fault Refusal :=
  .next { s with blk := s.blk.regCmd pgVMGR 0x098 w }

/-- The access to a register of a VIF page that a command names. -/
def vifAccess (v : VifNo) (off : Nat) (id : BitVec 5) (d : Word) : Access :=
  { space := .vif, addr := BitVec.ofNat 24 (4096 * v.toNat + off), size := 2, data := inLane off d, rid := id }

/-- VIF_HVDB through a VIF page (R266, R267). -/
def execVifHvdb (v : VifNo) (rid : BitVec 5) (data : Word) (s : State) : Host.Outcome State Fault Refusal :=
  .next { s with blk := s.blk.access (vifAccess v 0x00C rid data) true }

/-- VIF_RING_CI of slot j through a VIF page (R267). -/
def execVifRingCi (v : VifNo) (j : Fin 16) (rid : BitVec 5) (data : Word) (s : State) : Host.Outcome State Fault Refusal :=
  .next { s with blk := s.blk.access (vifAccess v (0x100 + 16 * j.val) rid data) true }

/-! ### Translation (R277, R289) -/

/-- XU_SEG_CMD APPLY. -/
def execSegApply (w : RegAcc) (s : State) : Host.Outcome State Fault Refusal :=
  .next { s with blk := s.blk.regCmd pgXU 0x058 (withOp w 3 1) }

/-- XU_SEG_CMD FETCH. -/
def execSegFetch (w : RegAcc) (s : State) : Host.Outcome State Fault Refusal :=
  .next { s with blk := s.blk.regCmd pgXU 0x058 (withOp w 3 2) }

/-- XU_INV: GO is written. -/
def execXuInv (w : RegAcc) (s : State) : Host.Outcome State Fault Refusal :=
  .next { s with blk := s.blk.regCmd pgXU 0x044 (withOp w 4 4) }

/-! ### Juwa (R310) -/

/-- JL_Pn_CTL. -/
def execJlPortCtl (p : Fin 4) (w : RegAcc) (s : State) : Host.Outcome State Fault Refusal :=
  .next { s with blk := s.blk.regCmd pgJL (0x080 + 0x20 * p.val) w }

/-! ### The register fabric and the Turnstile (R322, R326, R330, R331, R334, R339, R342) -/

/-- A write of any space. -/
def execRegisterWrite (a : Access) (s : State) : Host.Outcome State Fault Refusal :=
  .next { s with blk := s.blk.access a true }

/-- A read of any space. -/
def execRegisterRead (a : Access) (s : State) : Host.Outcome State Fault Refusal :=
  .next { s with blk := s.blk.access a false }

/-- An access to a reserved page; one to another page is not this command. -/
def execReservedPageAccess (a : Access) (wr : Bool) (s : State) : Host.Outcome State Fault Refusal :=
  .next { s with blk := if a.space = .regs ∧ (pgClass (pageOf a.addr.toNat)).isNone then s.blk.access a wr else s.blk }

/-- PG_STATCLR of a page. -/
def execPgStatclr (pg : BitVec 7) (w : RegAcc) (s : State) : Host.Outcome State Fault Refusal :=
  .next { s with blk := s.blk.regCmd pg.toNat 0x010 w }

/-- PG_KEY of a page. -/
def execPgKey (pg : BitVec 7) (w : RegAcc) (s : State) : Host.Outcome State Fault Refusal :=
  .next { s with blk := s.blk.regCmd pg.toNat 0x014 w }

/-- A posted write lands (R334): its page is free again; the value is held in deferred mode, else it takes effect. A write of the
Ringmaster's page does not land while MCLK hangs (R351). -/
def effPostedLand (b : Block) (pg : Nat) : Block :=
  match b.fab.posted.find? pg, pgClass pg with
  | some p, some cl =>
    if pg = pgRM ∧ b.rmFrozen then b else
    let b := { b with fab := { b.fab with posted := b.fab.posted.erase pg } }
    let sub := b.subOf pg p.off
    if p.defer then b.holdWrite pg p.off sub p.val
    else b.oneSeq ((b.unhold pg p.off sub).applyReg p.id pg cl p.al p.off sub p.val false)
  | _, _ => b

/-- POSTED_WRITE_LAND. -/
def execPostedWriteLand (pg : BitVec 7) (s : State) : Host.Outcome State Fault Refusal :=
  .next { s with blk := effPostedLand s.blk pg.toNat }

/-- TRN_RGN_CMD APPLY. -/
def execTrnApply (w : RegAcc) (s : State) : Host.Outcome State Fault Refusal :=
  .next { s with blk := s.blk.regCmd pgTRN 0x044 (withOp w 3 1) }

/-- TRN_RGN_CMD FETCH. -/
def execTrnFetch (w : RegAcc) (s : State) : Host.Outcome State Fault Refusal :=
  .next { s with blk := s.blk.regCmd pgTRN 0x044 (withOp w 3 2) }

/-- TRN_EPOCH: GO is written. -/
def execTrnEpoch (w : RegAcc) (s : State) : Host.Outcome State Fault Refusal :=
  .next { s with blk := s.blk.regCmd pgTRN 0x058 (withOp w 1 1) }

/-- The drain of an epoch ends (R339): no access part checked before it remains. -/
def effTrnDrained (b : Block) : Block :=
  if b.fab.draining && b.oldParts == 0 then { b with fab := { b.fab with draining := false } }.flag pgTRN 3 else b

/-- TRN_DRAINED. -/
def execTrnDrained (s : State) : Host.Outcome State Fault Refusal :=
  .next { s with blk := effTrnDrained s.blk }

/-- GLB_INST. -/
def execGlbInst (w : RegAcc) (s : State) : Host.Outcome State Fault Refusal :=
  .next { s with blk := s.blk.regCmd pgGLB 0x048 w }

/-- GLB_CTL.ADMIT_EN. -/
def execAdmitEn (w : RegAcc) (s : State) : Host.Outcome State Fault Refusal :=
  .next { s with blk := s.blk.regCmd pgGLB 0x054 w }

/-- Nothing a station took before admission stopped is left (R342): no write or wired arrival in its intake, its lanes, its
miss buffer or its output queues; re-entries do not count. -/
def Station.atRest (s : Station) : Bool :=
  s.intake.isEmpty && s.wired.all (fun i => i.kind == .reentry) && s.parked.all (fun p => p.item.kind == .reentry) &&
    (s.resumedMsg ++ s.resumedWired).all (fun r => r.item.kind == .reentry) &&
    s.outq.cells.all fun q => q.2.all fun x => x.1.kind == .reentry

/-- Admission comes to rest (R342). -/
def effAdmitStopped (b : Block) : Block :=
  if b.regBit pgGLB 0x054 0 || b.fab.stopped || !(b.stn.cells.all fun p => p.2.atRest) then b
  else { b with fab := { b.fab with stopped := true } }.flag pgGLB 1

/-- ADMIT_STOPPED. -/
def execAdmitStopped (s : State) : Host.Outcome State Fault Refusal :=
  .next { s with blk := effAdmitStopped s.blk }

/-! ### Clocks and power (R349, R350, R352, R357, R365, R369) -/

/-- CPC_DPLL. -/
def execCpcDpll (w : RegAcc) (s : State) : Host.Outcome State Fault Refusal :=
  .next { s with blk := s.blk.regCmd pgCPC 0x04C w }

/-- CPC_SRC. -/
def execCpcSrc (w : RegAcc) (s : State) : Host.Outcome State Fault Refusal :=
  .next { s with blk := s.blk.regCmd pgCPC 0x040 w }

/-- CPC_CMD RECHECK. -/
def execRecheck (w : RegAcc) (s : State) : Host.Outcome State Fault Refusal :=
  .next { s with blk := s.blk.regCmd pgCPC 0x074 (withOp w 3 1) }

/-- PWR_CMD SLEEP. -/
def execPwrSleep (w : RegAcc) (s : State) : Host.Outcome State Fault Refusal :=
  .next { s with blk := s.blk.regCmd pgPWR 0x040 (withOp w 3 1) }

/-- PWR_CMD with OP 0, 2 or 3: 1 is taken as 0. -/
def execPwrBadop (w : RegAcc) (s : State) : Host.Outcome State Fault Refusal :=
  .next { s with blk := s.blk.regCmd pgPWR 0x040 (withOp w 3 (undefOp w.data 3 1 1)) }

/-- PWR_SN_TEST. -/
def execPwrSnTest (w : RegAcc) (s : State) : Host.Outcome State Fault Refusal :=
  .next { s with blk := s.blk.regCmd pgPWR 0x070 w }

/-! ### The mailbox (R376 to R388) -/

/-- MBX_OWN.TAKE. -/
def execTake (w : RegAcc) (s : State) : Host.Outcome State Fault Refusal :=
  .next { s with blk := s.blk.regCmd pgRM 0x054 (withOp w 1 1) }

/-- MBX_OWN.RELEASE. -/
def execRelease (w : RegAcc) (s : State) : Host.Outcome State Fault Refusal :=
  .next { s with blk := s.blk.regCmd pgRM 0x054 (withOp w 2 2) }

/-- MBX_CMD INFO. -/
def execInfo (w : RegAcc) (s : State) : Host.Outcome State Fault Refusal :=
  .next { s with blk := s.blk.regCmd pgRM 0x058 (withOp w 0xFF 1) }

/-- MBX_CMD LOG_CLEAR. -/
def execLogClear (w : RegAcc) (s : State) : Host.Outcome State Fault Refusal :=
  .next { s with blk := s.blk.regCmd pgRM 0x058 (withOp w 0xFF 3) }

/-- MBX_CMD FW_STAGE. -/
def execFwStage (w : RegAcc) (s : State) : Host.Outcome State Fault Refusal :=
  .next { s with blk := s.blk.regCmd pgRM 0x058 (withOp w 0xFF 4) }

/-- MBX_CMD FW_ACTIVATE. -/
def execFwActivate (w : RegAcc) (s : State) : Host.Outcome State Fault Refusal :=
  .next { s with blk := s.blk.regCmd pgRM 0x058 (withOp w 0xFF 5) }

/-- MBX_CMD LAST_UPDATE. -/
def execLastUpdate (w : RegAcc) (s : State) : Host.Outcome State Fault Refusal :=
  .next { s with blk := s.blk.regCmd pgRM 0x058 (withOp w 0xFF 6) }

/-- MBX_CMD LAST_FACTORY. -/
def execLastFactory (w : RegAcc) (s : State) : Host.Outcome State Fault Refusal :=
  .next { s with blk := s.blk.regCmd pgRM 0x058 (withOp w 0xFF 7) }

/-- MBX_CMD PRESENCE_END. -/
def execPresenceEnd (w : RegAcc) (s : State) : Host.Outcome State Fault Refusal :=
  .next { s with blk := s.blk.regCmd pgRM 0x058 (withOp w 0xFF 9) }

/-- MBX_CMD AWL. -/
def execAwl (w : RegAcc) (s : State) : Host.Outcome State Fault Refusal :=
  .next { s with blk := s.blk.regCmd pgRM 0x058 (withOp w 0xFF 10) }

/-- The samples of PRESENT_N of the last second (R386). -/
def Block.presence (b : Block) (held : Bool) : Block := { b with rm := { b.rm with present := held, presentSec := held } }

/-- MBX_CMD PRESENCE_OPEN, with what PRESENT_N was for the last second. -/
def execPresenceOpen (w : RegAcc) (held : Bool) (s : State) : Host.Outcome State Fault Refusal :=
  .next { s with blk := (s.blk.presence held).regCmd pgRM 0x058 (withOp w 0xFF 8) }

/-- MBX_CMD with an unknown OP: a known one is taken as 0. -/
def execMbxBadop (w : RegAcc) (s : State) : Host.Outcome State Fault Refusal :=
  .next { s with blk := s.blk.regCmd pgRM 0x058 (withOp w 0xFF (if fld w.data 7 0 = 2 then w.data else undefOp w.data 255 1 10)) }

/-- An access of the Awl port waits: a write that needs a grant in the data plane, which the arbiter does not give now, or which the head
of the register port asks for before it. -/
def Block.awlWaits (b : Block) (q : PortAsk) : Bool :=
  q != .none && (b.fab.ask != .none || !({ b with fab := { b.fab with ask := q } } : Block).askPicked)

/-- An access of the Awl port completes (R388): a 32-bit access to a register page under identity 4. -/
def effAwlDone (b : Block) : Block :=
  match b.rm.awl.op with
  | none => b
  | some op =>
    let a := b.rm.awl
    let addr := 4 * a.word.toNat
    let pg := pageOf addr
    let served := b.portMode = .serve ∨ (b.portMode = .few ∧ earlyPage pg)
    let q := if decide served && op.isSome && b.admits false 4 pg (offOf addr / 4) true then b.regAsk pg (offOf addr) else .none
    if b.portMode = .wait ∨ b.awlWaits q then b else
      let denied := decide served && !b.admits false 4 pg (offOf addr / 4) op.isSome
      let b := if q = .none then b else ({ b with fab := { b.fab with ask := q } } : Block).takeGrant
      let r : Block × Bool × Word :=
        if served then match op with
          | some d => let r := b.writePart false 4 pg (partOf addr) (offOf addr) d; (r.1, r.2, a.data)
          | none => b.readPart false 4 pg (partOf addr) (offOf addr)
        else (b, true, 0)
      let b := r.1
      { b with rm := { b.rm with awl := { b.rm.awl with op := none, data := r.2.2, done := true, err := r.2.1, denied } } }

/-- AWL_ACCESS_DONE. -/
def execAwlAccessDone (s : State) : Host.Outcome State Fault Refusal :=
  .next { s with blk := effAwlDone s.blk }

/-! ### Resets and error injection (R397 to R399, R409) -/

/-- WARM_RESET on the block: the pin, or RAS_CMD WARM. -/
def effWarmReset (b : Block) : WarmSrc → Block
  | .pin => b.warmStart 3
  | .command w => b.regCmd pgRAS 0x044 (withOp w 3 1)

/-- WARM_RESET. -/
def execWarmReset (src : WarmSrc) (s : State) : Host.Outcome State Fault Refusal :=
  .next { s with blk := effWarmReset s.blk src }

/-- DP_RESTART on the block: the DCLK watchdog, or RAS_CMD RESTART. -/
def effDpRestart (b : Block) : RestartSrc → Block
  | .watchdog => b.dpRestart 5
  | .command w => b.regCmd pgRAS 0x044 (withOp w 3 2)

/-- DP_RESTART. -/
def execDpRestart (src : RestartSrc) (s : State) : Host.Outcome State Fault Refusal :=
  .next { s with blk := effDpRestart s.blk src }

/-- RAS_INJECT: GO is written. -/
def execRasInject (w : RegAcc) (s : State) : Host.Outcome State Fault Refusal :=
  .next { s with blk := s.blk.regCmd pgRAS 0x078 (withOp w 0x40 0x40) }

end Sys2Proof.Machine
end

