-- ==== Sys2Proof/Machine/Boundary.lean ====
section
/-! DEFINITION. Processed boundaries (R185): what a slot boundary and a revolution boundary do, the configuration sweep and
drift (R133 to R136), the taking of a slot period (R186), and the two first boundaries of a start and of a wake. -/

namespace Sys2Proof.Machine

/-- Boundaries are processed: while the data plane runs, and during a data-plane restart (the Carousel is never gated and a
restart keeps the slot tables). -/
def Block.carOn (b : Block) : Bool := b.dpOn || b.pwr.stage == .restart

/-! ### The configuration sweep (R133, R325) -/

/-- The swept bits of a register: its RW fields, or its WONCE field; none of a counter. -/
def RegDef.swept (d : RegDef) : Word := if d.ctr then 0 else if d.wonce then d.wo else d.rw

/-- The register a page sweeps at an offset, with the held value where a write is held. -/
def Block.sweptWord (b : Block) (pg : Nat) (cl : PgClass) (off : Nat) : Word :=
  if pg = pgRM ∧ 0x100 ≤ off then b.rm.data.get 0 ((off - 0x100) / 4)
  else if cl = .csg ∧ !b.csgBuilt (pg - 0x40) then 0
  else b.readReg 0 pg cl off

/-- The bytes of a page's contribution: its swept registers in ascending offset order, 4 little-endian bytes each; the CAR
page adds its slot table (R203). -/
def Block.pageBytes (b : Block) (pg : Nat) (cl : PgClass) : List Byte :=
  let regs := (hdrRows ++ regRows cl).flatMap fun r =>
    if r.d.swept = 0 then [] else r.offs.flatMap fun off => leBytes 4 (b.sweptWord pg cl off &&& r.d.swept).toNat
  if cl = .car then regs ++ (List.range 4096).flatMap fun p => leBytes 4 (b.slotWord p).toNat else regs

/-- The pages the sweep covers with their contributions, in page order. -/
def Block.pageCrcs (b : Block) : List (Nat × Word) :=
  (List.range 0x60).filterMap fun pg => (pgClass pg).map fun cl => (pg, crc32c (b.pageBytes pg cl))

/-- A bank's RTE, SLOT and INR sections and RING compiled fields, in that order. -/
def Bank.bytes (k : Bank) (threads : Nat) : List Byte :=
  ((List.range 4096).flatMap fun c => leBytes 32 (rteBits (k.rteAt threads (BitVec.ofNat 12 c))).toNat) ++
  ((List.range 16384).map fun i => k.slot.get 0xFF i) ++
  ([k.portEn.setWidth 8 ||| at' k.portDown 4] ++ List.replicate 63 0 ++
    ((List.range 256).map fun i => inrBits (k.inrGroup.get {} i)) ++ (List.range 256).map fun i => inrBits (k.inrMember.get {} i)) ++
  (List.range 16384).flatMap fun r => leBytes 16 (ringCfgBits (k.ringAt (BitVec.ofNat 14 r))).toNat

/-- The result of a sweep: the CRC over the pages' contributions and the active bank (DEDUCED, log 45). -/
def Block.sweepCrc (b : Block) (pages : List (Nat × Word)) : Word :=
  crc32c ((pages.flatMap fun p => leBytes 4 p.2.toNat) ++ b.act.bytes b.threads)

/-! ### Drift (R135, R136) -/

/-- AUTO_ROLLBACK on a new drift. -/
def Block.autoRollback (b : Block) (data : BitVec 128) : Block :=
  let l := b.last
  if l.inactive == .previous && (l.activity == .idle || l.activity == .pass1) then
    let b := if l.activity == .pass1 then b.loadErr { reason := 23 } else b
    ({ b with last := { b.last with activity := .rollbackPend } }.flag pgLAST 5).rmLog 6 2 6 data
  else b.flag pgLAST 6

/-- The comparison at a boundary. -/
def Block.drift (b : Block) : Block :=
  let ref := b.reg pgLAST 0x074
  if !b.last.refValid || b.last.crcCur == ref then b
  else
    let was := bit (b.hdr pgLAST).flags 4
    let b := b.cntHalf pgLAST 0x080 true
    if was then b
    else
      let data : BitVec 128 := b.last.crcCur.setWidth 128 ||| at' ref 32
      let b := ((b.flag pgLAST 4).rasEvent 17).rmLog 6 1 6 data
      if b.regBit pgLAST 0x070 0 then b.autoRollback data else b

/-- The sweep that ends at a boundary: of a complete revolution it gives PG_CRC of every page, CFG_CRC_CUR and SWEEP_SEQ, and
the comparison; of an incomplete one nothing (R187). -/
def Block.sweep (b : Block) : Block :=
  if b.car.incomplete then { b with car := { b.car with incomplete := false } }
  else
    let pages := b.pageCrcs
    let cur := b.sweepCrc pages
    let b := pages.foldl (fun b p => b.setHdr p.1 { b.hdr p.1 with crc := p.2 }) b
    { b with last := { b.last with crcCur := cur, sweepSeq := b.last.sweepSeq + 1 } }.drift

/-! ### Held writes (R333) -/

/-- A held write takes effect. A mask write is presented at its event's bank, where it may have to wait (R443). -/
def Block.applyHeld (b : Block) (h : Held) : Block :=
  match pgClass h.pg with
  | some cl =>
    if cl = .re ∧ h.off = 0x054 then
      { b with fab := { b.fab with masks := b.fab.masks ++ [(BitVec.ofNat 20 h.sub, bit h.val 2)] } }.wakeUnits h.pg h.off
    else (b.wakeUnits h.pg h.off).applyReg 0 h.pg cl .base h.off h.sub h.val false
  | none => b

/-- The held writes of the pages of some boundaries take effect in one cycle. -/
def Block.releaseHeld (b : Block) (at? : BitVec 2 → Bool) : Block :=
  let due (h : Held) : Bool := match pgClass h.pg with
    | some cl => at? cl.boundary
    | none => false
  let hs := b.fab.held.filter due
  if hs.isEmpty then b else
  let b' := hs.foldl Block.applyHeld { b with fab := { b.fab with held := b.fab.held.filter fun h => !due h } }
  (List.range 16).foldl (fun b q => b.grantMasks q 64) (b.oneSeq b')

/-- Held APPLYs change their regions (R339). -/
def Block.releaseRgns (b : Block) : Block :=
  let l := b.fab.rgnHeld
  { b with fab := { b.fab with rgnHeld := [] } }.setRgns l

/-! ### Boundaries -/

/-- A pending switch enters cycle B: the lanes pause until cycle S (R129). -/
def Block.startSwitch (b : Block) : Block :=
  match b.last.activity with
  | .commitPend | .rollbackPend => { b with last := { b.last with paused := true } }
  | _ => b

/-- The duties of a revolution boundary. The samples of the revolution are due (R372). -/
def Block.revolution (b : Block) : Block :=
  let b := b.startSwitch.sweep.slotCopy
  let b := (b.scanFar b.slotNow).followRev
  let b := (List.range 4).foldl Block.sendTime b
  let b := { b with ras := { b.ras with revs := b.ras.revs + 1 }, rm := { b.rm with due := true } }
  (b.releaseHeld (· == 2)).releaseRgns

/-- The duties of every slot boundary: deferred writes of slot pages, the position reached, its word. -/
def Block.slotDuties (b : Block) : Block :=
  let b := b.releaseHeld fun k => k == 1 || k == 3
  { b with car := { b.car with n := b.slotNow } }.latchSlot

/-- The duties of a processed boundary; `rev`: the revolution changes. A step seen here is one made before it: a held step or set that
the boundary itself releases is seen at the next one (R185, R187). -/
def Block.duties (b : Block) (rev : Bool) : Block :=
  let stepped := b.car.stepped
  let b := { b with car := { b.car with stepped := false } }
  let b := if rev then b.revolution else b
  let b := b.slotDuties
  if stepped then b.stepSeen else b

/-- A processed boundary. A bucket that is not finished is an overrun (R191); a step empties or moves the buckets and is none. -/
def Block.boundary (b : Block) (rev : Bool) : Block := (if b.car.stepped then b else b.lagCheck).duties rev

/-- The revolution number differs from that of the last processed boundary (R185). -/
def Block.newRev (b : Block) : Bool := b.slotNow / 4096 != b.car.n / 4096

/-- SLOT_BOUNDARY on the block: N has changed and the revolution has not. -/
def effSlotBoundary (b : Block) : Block :=
  if !b.carOn || b.periodDue || b.slotNow == b.car.n || b.newRev then b else b.boundary false

/-- SLOT_BOUNDARY. -/
def execSlotBoundary (s : State) : Host.Outcome State Fault Refusal := .next { s with blk := effSlotBoundary s.blk }

/-- REVOLUTION_BOUNDARY on the block: the revolution has changed. -/
def effRevolutionBoundary (b : Block) : Block :=
  if !b.carOn || b.periodDue || !b.newRev then b else b.boundary true

/-- REVOLUTION_BOUNDARY. -/
def execRevolutionBoundary (s : State) : Host.Outcome State Fault Refusal :=
  .next { s with blk := effRevolutionBoundary s.blk }

/-- PERIOD_TAKEN on the block (R186): the scheduled period is in force, every item is linked anew, and a revolution boundary
is processed; it cuts the old revolution short unless that ends there too (R187). -/
def effPeriodTaken (b : Block) : Block :=
  if !b.carOn || !b.periodDue then b
  else
    let b := if b.car.stepped then b else b.lagCheck
    let cur : BitVec 13 := b.regFld pgCAR 0x040 12 0
    let cut := b.car.takeAt.toNat % (4096 * b.car.cur.toNat) != 0
    let b := { b with car := { b.car with cur, pend := false, incomplete := b.car.incomplete || cut } }
    (b.flag pgCAR 0).relinkAll.duties true

/-- PERIOD_TAKEN. -/
def execPeriodTaken (s : State) : Host.Outcome State Fault Refusal := .next { s with blk := effPeriodTaken s.blk }

/-! ### First boundaries -/

/-- The first boundary of a start or a wake (R393, R361). -/
def Block.firstBoundary (b : Block) : Block := if b.periodDue then effPeriodTaken b else b.boundary b.newRev

/-- The arrays are initialised (Table 15-1, R395): the 8 steps of 0.5 µs have passed, and then 4,096 DCLK cycles. -/
def Block.arraysDone (b : Block) : Bool :=
  b.pwr.stage == .arrays && decide ((b.clk.ns - b.pwr.at_ - 4000) * b.dclkMhz ≥ 4096 * 1000)

/-- DP_READY on the block (R393): the arrays are initialised, the stations accept. A start whose clocks are there and that waits for
DP_PGOOD goes on with it from its 3,447.0 µs step: no command of its own names DP_PGOOD's rise in a start (log 99). -/
def effDpReady (b : Block) : Block :=
  if b.startClocks && !b.pwr.dpGood then { b with pwr := { b.pwr with dpGood := true } }.goOn
  else if !b.arraysDone then b
  else
    let pwr := { b.pwr with stage := .run, dpGood := true, intermission := false, dom := 0xFFFFFFFF }
    let b := { b with pwr, ras := { b.ras with dpReady := true } }
    b.sampleGt.firstBoundary

/-- DP_READY. -/
def execDpReady (s : State) : Host.Outcome State Fault Refusal := .next { s with blk := effDpReady s.blk }

/-- WAKE_RESTORE on the block (Table 13-8, 5.0 µs). -/
def effWakeRestore (b : Block) : Block := if b.restoreDue then b.wakeUp.firstBoundary else b

/-- WAKE_RESTORE. -/
def execWakeRestore (s : State) : Host.Outcome State Fault Refusal := .next { s with blk := effWakeRestore s.blk }

end Sys2Proof.Machine
end

