-- ==== Sys2Proof/Machine/Walks.lean ====
section
/-! DEFINITION. Walks (R284 to R286) and what their results do to the operations that wait for them (Table 10-5), the end of an
invalidation (R289), fault reports (R292, R293), and uncorrectable errors (R402). -/

namespace Sys2Proof.Machine

/-! ### The result of a walk for an operation that waited -/

/-- A read of another requester than a station has its address. -/
def Block.readAt (b : Block) (c : Cont) (pa : BitVec 64) (dev : Bool) : Block :=
  let r := gotAddr b (b.contLines c) c pa dev
  r.1.setPhase c r.2

/-- The phase a read of another requester than a station waits in is a walk. -/
def Block.walking (b : Block) (c : Cont) : Bool := b.phaseOf c == some .walk

/-- The records of a ring that wait for their walk have an answer. -/
def Block.ringWalked (b : Block) (r : RingNo) (res : Option (BitVec 64 × Bool)) : Block :=
  match (b.unissued r).filter (·.ph == .walk) with
  | [] => b
  | g => match res with
    | some (pa, dev) => b.groupAt r g pa dev
    | none => b.ringFault r

/-- The index write of a ring that waits for its walk has an answer. -/
def Block.indexWalked (b : Block) (w : Nat) (r : RingNo) (res : Option (BitVec 64 × Bool)) : Block :=
  let k := b.writer w
  if !k.idxWait.any (fun x => x.ring == r && x.pa.isNone) then b
  else match res with
    | some a => b.setWriter w { k with idxWait := k.idxWait.map fun x => if x.ring == r then { x with pa := some a } else x }
    | none => b.indexFault r

/-- Writes for a context that wait for their walk have an answer: the first of that place. -/
def Block.wbWalked (b : Block) (w : Nat) (q : XReq) (res : Option (BitVec 64 × Bool)) : Block :=
  let k := b.writer w
  let hit (x : WbReq) : Bool := x.ctx == fld q.obj 15 0 && x.seg == q.seg && x.off == q.off
  match k.wbq.find? hit with
  | none => b
  | some x =>
    let b := b.setWriter w { k with wbq := eraseFirst hit k.wbq }
    match res with
    | some (pa, dev) => b.issueWb x pa dev
    | none =>
      let b := match x.kind with
        | .spill c => match b.spillOf c with
          | some s => match s.ph with
            | .written _ => b.spillLost c
            | _ => b.spillDrop c
          | none => b.spillDrop c
        | _ => b
      b.kickCtx x.ctx

/-- A dirty-log write that waits for its walk has an answer (R269): it waits for the port. -/
def Block.logWalked (b : Block) (w : Nat) (ch : BitVec 6) (e : BitVec 64) (q : XReq) (res : Option (BitVec 64 × Bool)) : Block :=
  match res with
  | some (pa, dev) =>
    (b.present w { req := 2, seg := q.seg, m := { kind := .log ch, pa, bytes := leBytes 8 e.toNat, dev, tag := q.tag } }).grantPort w 64
  | none =>
    let d := b.dlCh ch.toNat
    ((b.setDlCh ch.toNat { d with ovf := true }).flag pgVMGR 5).vifCause d.vif.toNat 5

/-- A descriptor read of a LOAD is answered with an error, or faulted: its bucket is unreadable (R223, Table 10-5). -/
def Block.descFault (b : Block) (c : CtxNo) (j : Nat) : Block :=
  match b.loads.find? c.toNat with
  | some l =>
    let l := { l with descs := l.descs.filter (·.1 != j), bad := l.bad ++ [j] }
    ({ b with loads := b.loads.insert c.toNat l }).kickLoad c
  | none => b

/-- The walk of the loader's reads has ended (R278, R290): with an address they go on, with a fault the pass ends there. -/
def Block.loaderWalked (b : Block) (res : Option (BitVec 64 × Bool)) : Block :=
  let l := b.last.load
  match res with
  | some (pa, dev) =>
    let b := b.readAt .loader pa dev
    match l.data with
    | some r => b.loadRun (readFuel r)
    | none => b
  | none => b.loadStop (b.loadLine l.pos)

/-- The walk of writer w's next save-area write has ended (R357, R358). -/
def Block.saveWalked (b : Block) (w : Nat) (res : Option (BitVec 64 × Bool)) : Block :=
  if b.pwr.stage != .entry then b
  else match res, b.nextSave w with
    | some (pa, dev), some x => (b.saveAt w x pa dev).pumpSave w 64
    | some _, none => b
    | none, _ => b.saveFault

/-- The walk of a read that goes on by itself has ended: the read is issued, or the operation meets the fault. -/
def Block.readWalked (b : Block) (c : Cont) (res : Option (BitVec 64 × Bool)) (fault : Block → Block) : Block :=
  if !b.walking c then b
  else match res with
    | some (pa, dev) => b.readAt c pa dev
    | none => fault b

/-- An operation's translation has an answer (Table 10-5): its address and device mark, or none for a fault. -/
def Block.onXlate (b : Block) (q : XReq) (res : Option (BitVec 64 × Bool)) : Block :=
  match q.cont with
  | .fill k a => match res with
    | some (pa, dev) => b.fillAt k a pa dev
    | none => b.fillFault k a
  | .refresh k a => match res with
    | some (pa, dev) => b.refreshAt k a pa dev
    | none => b.refreshFault k a
  | .ring _ r => b.ringWalked r res
  | .index w r => b.indexWalked w r res
  | .wb w => b.wbWalked w q res
  | .log w ch e => b.logWalked w ch e q res
  | .save w => b.saveWalked w res
  | .fw => b.fwWalked res
  | .loader => if b.walking .loader then b.loaderWalked res else b
  | .loadDesc c j => b.readWalked q.cont res fun b => b.descFault c j
  | .mcs n => b.readWalked q.cont res fun b => match (b.engine n).mcq with
    | m :: _ => (b.setGone n m).drainMc n 200
    | [] => b
  | .spillDesc c => b.readWalked q.cont res fun b => match b.spillOf c with
    | some s => (b.pushDesc s .err).kickCtx c
    | none => b
  | .spillEntry c => b.readWalked q.cont res fun b => ((b.dropSpill c).entryFault c).kickCtx c
  | .refill c => b.readWalked q.cont res fun b => match b.rec? c with
    | some x => match x.refill with
      | some f => b.takeBucket c x f .err
      | none => b
    | none => b
  | .loadEntry c => b.readWalked q.cont res fun b => b.loadFail c resFault
  | .ringBack l => b.readWalked q.cont res fun b =>
      ({ b with pwr := { b.pwr with back := b.pwr.back.erase l } }).lineFault l
  | .ctxBack j => b.readWalked q.cont res fun b =>
      ({ b with pwr := { b.pwr with ctxBack := b.pwr.ctxBack.erase j } }).entriesBack j .err
  | .prefetch | .stale => b

/-- A waiting operation is a prefetch, or one that has gone: no fault of its walk is reported for it (R287). -/
def XReq.silent (q : XReq) : Bool := q.cont == .prefetch || q.cont == .stale

/-- An operation meets a fault: reported, then its effect (R291, R292). -/
def Block.xFault (cause : BitVec 4) (level : BitVec 3) (b : Block) (q : XReq) : Block :=
  if q.silent then b else (b.xReport q cause level).onXlate q none

/-- An operation finds its page's entry: its rights decide (R281). -/
def Block.xServe (e : TlbEnt) (b : Block) (q : XReq) : Block :=
  if q.silent then b
  else match xHit b q e (BitVec.ofNat 48 (xVa (b.segm q.seg) q.off)) with
    | (b, .ok pa dev) => b.onXlate q (some (pa, dev))
    | (b, _) => b.onXlate q none

/-! ### Walks -/

/-- A walk ends in a fault for everything attached to it, in the order of attachment (R286). -/
def Block.walkFault (b : Block) (w : Nat) (x : Walker) (cause : BitVec 4) (level : BitVec 3) : Block :=
  let b := { b with xl := { b.xl with walkers := b.xl.walkers.erase w } }
  x.waiting.foldl (Block.xFault cause level) b

/-- A walk reads its next table entry, or faults where it lies in a device window (R285). -/
def Block.walkNext (b : Block) (w : Nat) (x : Walker) : Block :=
  if inDevWindow b (walkAddr x) then b.walkFault w x 6 x.level
  else { b with xl := { b.xl with walkers := b.xl.walkers.insert w x } }

/-- A walk that was in flight at an invalidation has served its operations: those of them that are not issued are waited for too (R289);
`was`: the accesses that were not issued before. -/
def Block.staleServed (b : Block) (was : XuHeld) : Block :=
  { b with xl := { b.xl with inv := b.xl.inv.map fun v => { v with held := v.held.grow was b.unissuedNow } } }

/-- A walk ends at its leaf: the entry is installed unless an invalidation came meanwhile, and each attached operation takes
it. -/
def Block.walkLeaf (b : Block) (w : Nat) (x : Walker) (e : BitVec 64) : Block :=
  if bit e 2 && bit e 3 then b.walkFault w x 5 1
  else
    let t : TlbEnt := { seg := x.seg, vpn := x.va.extractLsb' 12 36, ppn := e.extractLsb' 12 52, r := bit e 1, w := bit e 2,
                        u := bit e 4, s := bit e 5, dev := x.dev, unused := x.waiting.all XReq.silent }
    let b := { b with xl := { b.xl with walkers := b.xl.walkers.erase w } }
    let b := if x.noInstall then b else tlbInstall b t
    let b' := x.waiting.foldl (Block.xServe t) b
    if x.noInstall then b'.staleServed b.unissuedNow else b'

/-- WALK_READ_RESPONSE on the block. -/
def effWalkRead (b : Block) (w : Nat) (r : WalkResp) : Block :=
  match b.xl.walkers.find? w with
  | none => b
  | some x => match r with
    | .ok e =>
      if !bit e 0 then b.walkFault w x 3 x.level
      else if x.level.toNat ≤ 1 then b.walkLeaf w x e
      else b.walkNext w { x with table := e.extractLsb' 12 52, level := x.level - 1 }
    | _ => b.walkFault w x 7 x.level

/-- WALK_READ_RESPONSE. -/
def execWalkReadResponse (w : BitVec 6) (r : WalkResp) (s : State) : Host.Outcome State Fault Refusal :=
  .next { s with blk := effWalkRead s.blk w.toNat r }

/-- WALK_START on the block: the oldest waiting miss takes the lowest-numbered free walker with every other waiting miss of its
page, or attaches to a walk of its page; a page installed since serves it. -/
def effWalkStart (b : Block) : Block :=
  match b.xl.waitq with
  | [] => b
  | q :: rest =>
    let pop (b : Block) (l : List XReq) : Block := { b with xl := { b.xl with waitq := l } }
    let touched (b : Block) (e : TlbEnt) : Block :=
      let i := tlbSet e.seg e.vpn
      { b with xl := { b.xl with tlb := b.xl.tlb.set [] i (tlbTouch (b.xl.tlb.get [] i) e) } }
    let vpn := reqVpn b q
    match segCheck (b.segm q.seg) q.off with
    | some c => (pop b rest).xFault c 0 q
    | none => match (b.xl.tlb.get [] (tlbSet q.seg vpn)).find? fun e => e.seg == q.seg && e.vpn == vpn with
      | some e => (touched (pop b rest) e).xServe e q
      | none => match walkOf b q.seg vpn with
        | some w =>
          let walkers := b.xl.walkers.mapVals fun j x => if j = w then { x with waiting := x.waiting ++ [q] } else x
          pop { b with xl := { b.xl with walkers } } rest
        | none => match freeWalker b with
          | none => b
          | some w =>
            let same (y : XReq) : Bool := y.seg == q.seg && reqVpn b y == vpn
            let b := beginWalk (pop b (rest.filter fun y => !same y)) w q (rest.filter same)
            match b.xl.walkers.find? w with
            | some x => b.walkNext w x
            | none => b

/-- WALK_START. -/
def execWalkStart (s : State) : Host.Outcome State Fault Refusal := .next { s with blk := effWalkStart s.blk }

/-! ### The end of an invalidation (R289) -/

/-- XU_INV_DONE on the block. -/
def effXuInvDone (b : Block) : Block :=
  match b.xl.inv with
  | none => b
  | some v =>
    if (b.xl.walkers.cells.any fun p => p.2.noInstall) || v.held.inter b.unissuedNow != {} then b
    else { b with xl := { b.xl with inv := none, invCount := b.xl.invCount + 1 } }.flag pgXU 2

/-- XU_INV_DONE. -/
def execXuInvDone (s : State) : Host.Outcome State Fault Refusal := .next { s with blk := effXuInvDone s.blk }

/-! ### Fault reports -/

/-- The report at the head of the queue is made (R292). -/
def Block.makeReport (b : Block) : Block :=
  match b.xl.reports with
  | [] => b
  | r :: rest =>
    let slot := b.xl.flogNext
    let b := { b with xl := { b.xl with reports := rest, flog := b.xl.flog.insert slot.toNat r, flogNext := slot + 1 } }
    let ring := b.reg pgXU 0x078
    let prio : Prio := fld (b.reg pgXU 0x07C) 21 16
    let w1 : Word := slot.setWidth 32 ||| at' r.cause 6 ||| at' r.op 10 ||| at' r.owner 14
    let b := if bit ring 15 then b.ownRecord (fld ring 13 0) { vevent := 0x00903, prio, type := 0xB, w1, gt := r.gt } true false else b
    ((b.ownerCause r.owner 6).cnt pgXU 0x0C4).flag pgXU 0

/-- RANK_INSERT on the block: requester r's head insert, if the arbiter of the bank picks it. The last insert that the residency queue
held for a LOAD ends it (R223); the insert of a fault report makes the report (R293). -/
def effRankInsert (b : Block) (q r : Nat) : Block :=
  match b.bankHead q r with
  | some i =>
    if b.bankPick q = some r then
      let b := (b.grantHead q r i).granted (.ctxBank q) r
      let b := if i.report then b.makeReport else b
      if r = 18 then (b.kickLoad i.ctx).startReloads else b
    else b
  | none => b

/-- RANK_INSERT. -/
def execRankInsert (b : Fin 16) (q : Fin 19) (s : State) : Host.Outcome State Fault Refusal :=
  .next { s with blk := effRankInsert s.blk b q }

/-- The insert of the report at the head of the queue stands in an intake. -/
def Block.reportAsked (b : Block) : Bool :=
  b.cb.cells.any fun p => p.2.in16.any fun o => match o with
    | .ins i => i.report
    | _ => false

/-- FAULT_REPORT on the block: the report at the head of the queue is made; one that makes an insert asks for it, and is made in the
cycle of its grant (R293). -/
def effFaultReport (b : Block) : Block :=
  let ev := b.reg pgXU 0x07C
  if b.xl.reports.isEmpty then b
  else if !bit ev 22 then b.makeReport
  else
    let c : CtxNo := fld ev 15 0
    let b := if b.reportAsked then b else b.ask16 { ctx := c, entry := bankedEntry 0x00903 (fld ev 21 16) 0, report := true }
    match b.bankHead (ctxBank c) 16 with
    | some i => if i.report then effRankInsert b (ctxBank c) 16 else b
    | none => b

/-- FAULT_REPORT. -/
def execFaultReport (s : State) : Host.Outcome State Fault Refusal := .next { s with blk := effFaultReport s.blk }

/-! ### Uncorrectable errors (R402, R403, Table 15-3) -/

/-- The reads in flight and the rings with issued records, in a fixed order: what a tracker error (source 12) ends, each by its
fault. -/
def Block.tracked (b : Block) : List (Block → Block) :=
  let issued (p : Phase) : Bool := p.isIssued
  (b.stn.cells.flatMap fun p =>
    ((p.2.fills.filter fun f => issued f.phase).map fun f (b : Block) => effFillResponse b p.1 f.addr .err) ++
    ((p.2.refreshes.filter fun f => issued f.phase).map fun f (b : Block) => effRefreshResponse b p.1 f.addr .err)) ++
  (b.eng.cells.filterMap fun p => match p.2.mcq with
    | m :: _ => if (m.phase.map issued).getD false then some fun (b : Block) => effMcsSetReadDone b p.1 .err else none
    | [] => none) ++
  (b.ctx.cells.filterMap fun p => match p.2.refill with
    | some f =>
      if issued f.phase then some fun (b : Block) => effRefillDone b (BitVec.ofNat 16 p.1) [{ prio := f.prio, resp := .err }] else none
    | none => none) ++
  (b.cb.cells.flatMap fun p => p.2.spills.filterMap fun s => match s.ph with
    | .entryRead ph => if issued ph then some fun (b : Block) => effCtxtEntryRead b s.ctx .err else none
    | .descRead ph => if issued ph then some fun (b : Block) => effSpillPush b s.ctx .err else none
    | _ => none) ++
  (b.loads.cells.flatMap fun p => match p.2.ph with
    | .entry ph => if issued ph then [fun (b : Block) => effCtxLoadComplete b (BitVec.ofNat 16 p.1) .err []] else []
    | _ => (p.2.descs.filter fun d => issued d.2).map fun d (b : Block) =>
      (b.descFault (BitVec.ofNat 16 p.1) d.1).freeLines 1) ++
  (match b.last.load.phase with
    | some ph => if issued ph then [fun (b : Block) => (b.freeLines b.last.load.window).loadStop (b.loadLine b.last.load.pos)] else []
    | none => []) ++
  (match b.rm.busy, b.rm.fw with
    | some m, some f => if (f.phase.map issued).getD false then
        [fun (b : Block) => (b.freeLines f.window).mbxEnd m.op m.id mbFault [] 0] else []
    | _, _ => []) ++
  ((b.pwr.back.cells.filter fun p => issued p.2).map fun p (b : Block) => b.lineAnswer (p.1, .err)) ++
  ((b.pwr.ctxBack.cells.filter fun p => issued p.2).map fun p (b : Block) => b.entriesAnswer (p.1, .err)) ++
  (b.wr.cells.flatMap fun p => (p.2.recs.filter (·.ph == .issued)).map fun x (b : Block) => b.ringFault x.ring)

/-- An uncorrectable error meets its array. -/
def Block.ueEffect (b : Block) (source : BitVec 5) (index : BitVec 24) : Block :=
  if source = 12 then match b.tracked[index.toNat]? with
    | some f => f b
    | none => b
  else b.ueArray source index

/-- ECC_UE on the block: reported as UE, as FATAL for the VIF table, as CE where the entry is fetched again. -/
def effEccUe (b : Block) (source : BitVec 5) (index : BitVec 24) (synd : BitVec 8) : Block :=
  if !b.arrayOn source then b
  else
    let owner := b.ueOwner source index
    let b := b.useInject source true
    if source = 4 ∨ source = 11 then (b.ueArray source index).rasCe source index synd owner
    else
      let sev : BitVec 2 := if source = 10 then 2 else 1
      (b.ueEffect source index).rasPost { gt := b.gt, sev, source, owner, index := ueIndex source index, synd }

/-- ECC_UE. -/
def execEccUe (src : BitVec 5) (index : BitVec 24) (synd : BitVec 8) (s : State) : Host.Outcome State Fault Refusal :=
  .next { s with blk := effEccUe s.blk src index synd }

end Sys2Proof.Machine
end

