-- ==== Sys2Proof/Machine/Dispatch.lean ====
section
/-! DEFINITION. The command dispatch: one arm per constructor of `Instr`. -/

namespace Sys2Proof.Machine

def exec (i : Instr) (s : State) : Host.Outcome State Fault Refusal :=
  match i with
  | .lineEdge c lv => Sys2Proof.Machine.execLineEdge c lv s
  | .lineAssert c lv => Sys2Proof.Machine.execLineAssert c lv s
  | .levelSample c => Sys2Proof.Machine.execLevelSample c s
  | .collectorOffer c => Sys2Proof.Machine.execCollectorOffer c s
  | .edgeLatchCapture c lv => Sys2Proof.Machine.execEdgeLatchCapture c lv s
  | .latchTransfer c lv => Sys2Proof.Machine.execLatchTransfer c lv s
  | .shortDoorbell k id beats => Sys2Proof.Machine.execShortDoorbell k id beats s
  | .longDoorbell k id beats => Sys2Proof.Machine.execLongDoorbell k id beats s
  | .doorbellRead k id addr rbeats => Sys2Proof.Machine.execDoorbellRead k id addr rbeats s
  | .stationResponse k id => Sys2Proof.Machine.execStationResponse k id s
  | .stationLookup k lane => Sys2Proof.Machine.execStationLookup k lane s
  | .fillResponse k a r => Sys2Proof.Machine.execFillResponse k a r s
  | .refreshSweep k => Sys2Proof.Machine.execRefreshSweep k s
  | .refreshResponse k a r => Sys2Proof.Machine.execRefreshResponse k a r s
  | .stnInv k w => Sys2Proof.Machine.execStnInv k w s
  | .stnInvDone k => Sys2Proof.Machine.execStnInvDone k s
  | .stnCtl k w => Sys2Proof.Machine.execStnCtl k w s
  | .lcEn c r w => Sys2Proof.Machine.execLcEn c r w s
  | .lcLevel c r w => Sys2Proof.Machine.execLcLevel c r w s
  | .lcPol c r w => Sys2Proof.Machine.execLcPol c r w s
  | .lcInject c w => Sys2Proof.Machine.execLcInject c w s
  | .arrivalAdmit b k => Sys2Proof.Machine.execArrivalAdmit b k s
  | .routeArrival n => Sys2Proof.Machine.execRouteArrival n s
  | .mcsSetReadDone n r => Sys2Proof.Machine.execMcsSetReadDone n r s
  | .rankInsert b q => Sys2Proof.Machine.execRankInsert b q s
  | .ctxtEntryRead c r => Sys2Proof.Machine.execCtxtEntryRead c r s
  | .spillPush c desc => Sys2Proof.Machine.execSpillPush c desc s
  | .refillDone c buckets => Sys2Proof.Machine.execRefillDone c buckets s
  | .reevaluate c => Sys2Proof.Machine.execReevaluate c s
  | .deliveryGrant t => Sys2Proof.Machine.execDeliveryGrant t s
  | .notify t => Sys2Proof.Machine.execNotify t s
  | .withdraw t => Sys2Proof.Machine.execWithdraw t s
  | .ackResponse t => Sys2Proof.Machine.execAckResponse t s
  | .confirm t => Sys2Proof.Machine.execConfirm t s
  | .sliceLinkUp sl => Sys2Proof.Machine.execSliceLinkUp sl s
  | .sliceLinkDown sl => Sys2Proof.Machine.execSliceLinkDown sl s
  | .ack o => Sys2Proof.Machine.execAck o s
  | .eoi o data => Sys2Proof.Machine.execEoi o data s
  | .deact o data => Sys2Proof.Machine.execDeact o data s
  | .ackPeek o => Sys2Proof.Machine.execAckPeek o s
  | .gateWrite o data => Sys2Proof.Machine.execGateWrite o data s
  | .ctlWrite o data => Sys2Proof.Machine.execCtlWrite o data s
  | .statusClr o data => Sys2Proof.Machine.execStatusClr o data s
  | .utagWrite o data => Sys2Proof.Machine.execUtagWrite o data s
  | .ipiSend o data => Sys2Proof.Machine.execIpiSend o data s
  | .tdlLoWrite o data => Sys2Proof.Machine.execTdlLoWrite o data s
  | .timerWrite o data => Sys2Proof.Machine.execTimerWrite o data s
  | .timerFineLoad c => Sys2Proof.Machine.execTimerFineLoad c s
  | .timerFire c => Sys2Proof.Machine.execTimerFire c s
  | .renotifyCheck c => Sys2Proof.Machine.execRenotifyCheck c s
  | .ctxLoad g w => Sys2Proof.Machine.execCtxLoad g w s
  | .ctxLoadComplete c entry descs => Sys2Proof.Machine.execCtxLoadComplete c entry descs s
  | .ctxUnload g w => Sys2Proof.Machine.execCtxUnload g w s
  | .ctxSeat g w => Sys2Proof.Machine.execCtxSeat g w s
  | .ctxUnseat g w => Sys2Proof.Machine.execCtxUnseat g w s
  | .ctxMove g w => Sys2Proof.Machine.execCtxMove g w s
  | .handoffEnd g => Sys2Proof.Machine.execHandoffEnd g s
  | .csgBadop g w => Sys2Proof.Machine.execCsgBadop g w s
  | .rePin n w => Sys2Proof.Machine.execRePin n w s
  | .reUnpin n w => Sys2Proof.Machine.execReUnpin n w s
  | .filtClr n w => Sys2Proof.Machine.execFiltClr n w s
  | .maskSet n w => Sys2Proof.Machine.execMaskSet n w s
  | .maskClear n w => Sys2Proof.Machine.execMaskClear n w s
  | .lastLoad w => Sys2Proof.Machine.execLastLoad w s
  | .loadPass1Done img => Sys2Proof.Machine.execLoadPass1Done img s
  | .loadPass2Done img => Sys2Proof.Machine.execLoadPass2Done img s
  | .commit w => Sys2Proof.Machine.execCommit w s
  | .rollback w => Sys2Proof.Machine.execRollback w s
  | .abort w => Sys2Proof.Machine.execAbort w s
  | .build w => Sys2Proof.Machine.execBuild w s
  | .buildDone => Sys2Proof.Machine.execBuildDone s
  | .lastBadop w => Sys2Proof.Machine.execLastBadop w s
  | .bankFlip => Sys2Proof.Machine.execBankFlip s
  | .ringSettle r => Sys2Proof.Machine.execRingSettle r s
  | .cfgCrcCommit w => Sys2Proof.Machine.execCfgCrcCommit w s
  | .cfgCrcRef w => Sys2Proof.Machine.execCfgCrcRef w s
  | .slotBoundary => Sys2Proof.Machine.execSlotBoundary s
  | .revolutionBoundary => Sys2Proof.Machine.execRevolutionBoundary s
  | .carPeriodWrite w => Sys2Proof.Machine.execCarPeriodWrite w s
  | .periodTaken => Sys2Proof.Machine.execPeriodTaken s
  | .carSlotDataWrite w => Sys2Proof.Machine.execCarSlotDataWrite w s
  | .carSlotDataRead rid => Sys2Proof.Machine.execCarSlotDataRead rid s
  | .carCtlWrite w => Sys2Proof.Machine.execCarCtlWrite w s
  | .windowExpiry r => Sys2Proof.Machine.execWindowExpiry r s
  | .tuFreqAdjLo w => Sys2Proof.Machine.execTuFreqAdjLo w s
  | .tuStepLo w => Sys2Proof.Machine.execTuStepLo w s
  | .tuSetLo w => Sys2Proof.Machine.execTuSetLo w s
  | .tuCtlWrite w => Sys2Proof.Machine.execTuCtlWrite w s
  | .ppsEdge => Sys2Proof.Machine.execPpsEdge s
  | .tickPulse => Sys2Proof.Machine.execTickPulse s
  | .followHoldover => Sys2Proof.Machine.execFollowHoldover s
  | .recordIntake w n => Sys2Proof.Machine.execRecordIntake w n s
  | .recordAdmit w r => Sys2Proof.Machine.execRecordAdmit w r s
  | .ringWriteIssue r => Sys2Proof.Machine.execRingWriteIssue r s
  | .ringWriteAccept r => Sys2Proof.Machine.execRingWriteAccept r s
  | .indexWrite r => Sys2Proof.Machine.execIndexWrite r s
  | .indexWriteAccept r => Sys2Proof.Machine.execIndexWriteAccept r s
  | .erwRingCi w => Sys2Proof.Machine.execErwRingCi w s
  | .clearFault w => Sys2Proof.Machine.execClearFault w s
  | .ringReset w => Sys2Proof.Machine.execRingReset w s
  | .erwVifShare w => Sys2Proof.Machine.execErwVifShare w s
  | .vifCreate w => Sys2Proof.Machine.execVifCreate w s
  | .vifReset w => Sys2Proof.Machine.execVifReset w s
  | .vifDestroy w => Sys2Proof.Machine.execVifDestroy w s
  | .setCtx w => Sys2Proof.Machine.execSetCtx w s
  | .setRing w => Sys2Proof.Machine.execSetRing w s
  | .setNotify w => Sys2Proof.Machine.execSetNotify w s
  | .dirtyStart w => Sys2Proof.Machine.execDirtyStart w s
  | .dirtyStop w => Sys2Proof.Machine.execDirtyStop w s
  | .harvest w => Sys2Proof.Machine.execHarvest w s
  | .drain w => Sys2Proof.Machine.execDrain w s
  | .ringIdx w => Sys2Proof.Machine.execRingIdx w s
  | .vmgrBadop w => Sys2Proof.Machine.execVmgrBadop w s
  | .purgeEnd => Sys2Proof.Machine.execPurgeEnd s
  | .quiescence v => Sys2Proof.Machine.execQuiescence v s
  | .drained v => Sys2Proof.Machine.execDrained v s
  | .snap ch => Sys2Proof.Machine.execSnap ch s
  | .dlChannelFree ch => Sys2Proof.Machine.execDlChannelFree ch s
  | .vmgrDlCi w => Sys2Proof.Machine.execVmgrDlCi w s
  | .vifHvdb v rid data => Sys2Proof.Machine.execVifHvdb v rid data s
  | .vifRingCi v j rid data => Sys2Proof.Machine.execVifRingCi v j rid data s
  | .segApply w => Sys2Proof.Machine.execSegApply w s
  | .segFetch w => Sys2Proof.Machine.execSegFetch w s
  | .xuInv w => Sys2Proof.Machine.execXuInv w s
  | .xuInvDone => Sys2Proof.Machine.execXuInvDone s
  | .walkStart => Sys2Proof.Machine.execWalkStart s
  | .walkReadResponse w r => Sys2Proof.Machine.execWalkReadResponse w r s
  | .faultReport => Sys2Proof.Machine.execFaultReport s
  | .eventFrame p vc1 arr => Sys2Proof.Machine.execEventFrame p vc1 arr s
  | .creditFrame p beats => Sys2Proof.Machine.execCreditFrame p beats s
  | .timeFrame p beats => Sys2Proof.Machine.execTimeFrame p beats s
  | .hello p beats => Sys2Proof.Machine.execHello p beats s
  | .sleep p beats => Sys2Proof.Machine.execSleep p beats s
  | .sleepAck p beats => Sys2Proof.Machine.execSleepAck p beats s
  | .juwaTransmit p n => Sys2Proof.Machine.execJuwaTransmit p n s
  | .escape p n => Sys2Proof.Machine.execEscape p n s
  | .creditReturn p => Sys2Proof.Machine.execCreditReturn p s
  | .helloSend p => Sys2Proof.Machine.execHelloSend p s
  | .wakeSend p => Sys2Proof.Machine.execWakeSend p s
  | .portUp p => Sys2Proof.Machine.execPortUp p s
  | .portDown p => Sys2Proof.Machine.execPortDown p s
  | .jlPortCtl p w => Sys2Proof.Machine.execJlPortCtl p w s
  | .registerWrite a => Sys2Proof.Machine.execRegisterWrite a s
  | .reservedPageAccess a wr => Sys2Proof.Machine.execReservedPageAccess a wr s
  | .pgStatclr pg w => Sys2Proof.Machine.execPgStatclr pg w s
  | .pgKey pg w => Sys2Proof.Machine.execPgKey pg w s
  | .postedWriteLand pg => Sys2Proof.Machine.execPostedWriteLand pg s
  | .trnApply w => Sys2Proof.Machine.execTrnApply w s
  | .trnFetch w => Sys2Proof.Machine.execTrnFetch w s
  | .trnEpoch w => Sys2Proof.Machine.execTrnEpoch w s
  | .trnDrained => Sys2Proof.Machine.execTrnDrained s
  | .glbInst w => Sys2Proof.Machine.execGlbInst w s
  | .admitEn w => Sys2Proof.Machine.execAdmitEn w s
  | .admitStopped => Sys2Proof.Machine.execAdmitStopped s
  | .xchkWindow x count => Sys2Proof.Machine.execXchkWindow x count s
  | .crystalMonitorTrip x => Sys2Proof.Machine.execCrystalMonitorTrip x s
  | .fioMonitorTrip => Sys2Proof.Machine.execFioMonitorTrip s
  | .dclkMonitorTrip => Sys2Proof.Machine.execDclkMonitorTrip s
  | .pllLock p => Sys2Proof.Machine.execPllLock p s
  | .pllStartNoref => Sys2Proof.Machine.execPllStartNoref s
  | .cpcDpll w => Sys2Proof.Machine.execCpcDpll w s
  | .slewDone => Sys2Proof.Machine.execSlewDone s
  | .cpcSrc w => Sys2Proof.Machine.execCpcSrc w s
  | .clkMuxHung m => Sys2Proof.Machine.execClkMuxHung m s
  | .recheck w => Sys2Proof.Machine.execRecheck w s
  | .unitGate u n gate => Sys2Proof.Machine.execUnitGate u n gate s
  | .pwrSleep w => Sys2Proof.Machine.execPwrSleep w s
  | .pwrBadop w => Sys2Proof.Machine.execPwrBadop w s
  | .intermissionEnter accepted => Sys2Proof.Machine.execIntermissionEnter accepted s
  | .wakeCause causes => Sys2Proof.Machine.execWakeCause causes s
  | .wakeRestore => Sys2Proof.Machine.execWakeRestore s
  | .woke => Sys2Proof.Machine.execWoke s
  | .ringsRestored rs => Sys2Proof.Machine.execRingsRestored rs s
  | .reloaded failed => Sys2Proof.Machine.execReloaded failed s
  | .accAsleep a => Sys2Proof.Machine.execAccAsleep a s
  | .snSwitch => Sys2Proof.Machine.execSnSwitch s
  | .snReturn => Sys2Proof.Machine.execSnReturn s
  | .pwrSnTest w => Sys2Proof.Machine.execPwrSnTest w s
  | .sensorSample temps volts => Sys2Proof.Machine.execSensorSample temps volts s
  | .logWrite => Sys2Proof.Machine.execLogWrite s
  | .ringmasterRestart => Sys2Proof.Machine.execRingmasterRestart s
  | .ready fw => Sys2Proof.Machine.execReady fw s
  | .take w => Sys2Proof.Machine.execTake w s
  | .release w => Sys2Proof.Machine.execRelease w s
  | .mbxIdleTimeout => Sys2Proof.Machine.execMbxIdleTimeout s
  | .info w => Sys2Proof.Machine.execInfo w s
  | .logClear w => Sys2Proof.Machine.execLogClear w s
  | .fwStage w => Sys2Proof.Machine.execFwStage w s
  | .fwActivate w => Sys2Proof.Machine.execFwActivate w s
  | .lastUpdate w => Sys2Proof.Machine.execLastUpdate w s
  | .lastFactory w => Sys2Proof.Machine.execLastFactory w s
  | .presenceOpen w held => Sys2Proof.Machine.execPresenceOpen w held s
  | .presenceEnd w => Sys2Proof.Machine.execPresenceEnd w s
  | .awl w => Sys2Proof.Machine.execAwl w s
  | .mbxBadop w => Sys2Proof.Machine.execMbxBadop w s
  | .mbxCommandEnd e => Sys2Proof.Machine.execMbxCommandEnd e s
  | .grantExpiry => Sys2Proof.Machine.execGrantExpiry s
  | .sealBreak => Sys2Proof.Machine.execSealBreak s
  | .awlAddr d => Sys2Proof.Machine.execAwlAddr d s
  | .awlData d => Sys2Proof.Machine.execAwlData d s
  | .awlAccessDone => Sys2Proof.Machine.execAwlAccessDone s
  | .coldStart logKept sealClosed dpGood => Sys2Proof.Machine.execColdStart logKept sealClosed dpGood s
  | .dpReady => Sys2Proof.Machine.execDpReady s
  | .partialColdStart dpGood => Sys2Proof.Machine.execPartialColdStart dpGood s
  | .dpLoss => Sys2Proof.Machine.execDpLoss s
  | .warmReset src => Sys2Proof.Machine.execWarmReset src s
  | .warmDrainEnd => Sys2Proof.Machine.execWarmDrainEnd s
  | .dpRestart src => Sys2Proof.Machine.execDpRestart src s
  | .restartEnd => Sys2Proof.Machine.execRestartEnd s
  | .restartScan b => Sys2Proof.Machine.execRestartScan b s
  | .eccCe src index synd => Sys2Proof.Machine.execEccCe src index synd s
  | .eccUe src index synd => Sys2Proof.Machine.execEccUe src index synd s
  | .scrubPass => Sys2Proof.Machine.execScrubPass s
  | .rasReport => Sys2Proof.Machine.execRasReport s
  | .rasInject w => Sys2Proof.Machine.execRasInject w s
  | .counterWrap fixed n => Sys2Proof.Machine.execCounterWrap fixed n s
  | .memResponseUnknownId walk id => Sys2Proof.Machine.execMemResponseUnknownId walk id s
  | .scanMode => Sys2Proof.Machine.execScanMode s
  | .sioJudged => Sys2Proof.Machine.execSioJudged s
  | .fioUsable => Sys2Proof.Machine.execFioUsable s
  | .fioBadCleared => Sys2Proof.Machine.execFioBadCleared s
  | .gtStopped => Sys2Proof.Machine.execGtStopped s
  | .spillWriteAccept c => Sys2Proof.Machine.execSpillWriteAccept c s
  | .coldReset vbkp => Sys2Proof.Machine.execColdReset vbkp s
  | .registerRead a => Sys2Proof.Machine.execRegisterRead a s

end Sys2Proof.Machine
end

