-- ==== Sys2Proof/Machine/Time.lean ====
section
/-! DEFINITION. What passes with time when no command waits: one edge of the clock GT counts, with the DCLK cycles that fall
to it (R173, R180; log 40). In each of them the requests that wait at arbitrated resources grow older (R37), and what has no command of
its own goes on. -/

namespace Sys2Proof.Machine

/-! ### One DCLK cycle -/

/-- Port and owner tokens gain one DCLK cycle's bandwidth (R249, R250), in 1/8 byte, up to 128 bytes. -/
def Block.refillTokens (b : Block) : Block :=
  let cap := (fld (b.reg pgERW 0x044) 8 0).toNat
  let own (o n : Nat) : Nat := min 1024 (n + (fld (b.shareOf o) 8 0).toNat)
  { b with wr := b.wr.mapVals fun _ w =>
      { w with tokens := min 1024 (w.tokens + cap), ownTok := w.ownTok.remap 1024 own } }

/-- A requester's request at a resource is eligible (R37). Reads of walkers are issued in the step that makes them: none waits. -/
def Block.eligible (b : Block) : Res → Nat → Bool
  | .pendBank q => b.pendElig q
  | .classBank q => b.classElig q
  | .ctxBank q => b.bankElig q
  | .ringTable w => b.ringElig w
  | .intake w => b.intakeElig w
  | .dport d => b.dportElig d
  | .wmem w => (b.writer w).eligible
  | .fillPort => b.fillEligible
  | .walkPort => fun _ => false
  | .juwaTx p => b.txElig p

/-- The resources at which something may wait: those of a kind are left out where no unit holds anything for one. -/
def Block.live (b : Block) : List Res :=
  let all (n : Nat) (r : Nat → Res) (on : Bool) : List Res := if on then (List.range n).map r else []
  let scrub := !b.ras.scrub.cells.isEmpty
  let port := !b.fab.q.isEmpty || !b.fab.masks.isEmpty
  let eng := !b.eng.cells.isEmpty
  let wr := !b.wr.cells.isEmpty
  let jp := !b.jp.cells.isEmpty
  all 16 .pendBank (scrub || port || jp || !b.stn.cells.isEmpty) ++ all 16 .classBank (scrub || eng) ++
    all 16 .ctxBank (scrub || eng || !b.cb.cells.isEmpty) ++ all 4 .ringTable (scrub || port || wr || !b.car.windows.cells.isEmpty) ++
    all 4 .intake eng ++ all 4 .dport (!b.seat.cells.isEmpty) ++ all 4 .wmem wr ++ all 1 (fun _ => .fillPort) (!b.xl.trkWait.isEmpty) ++
    all 4 .juwaTx (jp || eng)

/-- Every eligible request that has not been granted grows older (R37). -/
def Block.ageCycle (b : Block) : Block := b.live.foldl (fun b r => b.ageAll r (b.eligible r)) b

/-- The scrubber reads a word at every port that picks it (R404). -/
def Block.scrubCycle (b : Block) : Block :=
  if b.ras.scrub.cells.isEmpty then b
  else scrubPorts.foldl (fun b p => if b.pick p.1 (b.eligible p.1) = some p.2.1 then b.scrubbed p.1 p.2.1 else b) b

/-- Reads of the loader and of FW_STAGE that waited for trackers go on with what memory has answered (R127, R382). -/
def Block.readersRun (b : Block) : Block :=
  (match b.last.load.data with
    | some r => b.loadRun (readFuel r)
    | none => b).fwRun 4098

/-- What waits at arbitrated resources and has no command of its own is granted where the arbiters pick it (log 70). -/
def Block.grantAll (b : Block) : Block :=
  let b := (List.range 16).foldl (fun b q => b.grantMasks q 64) b
  let b := b.grantOps 4096 (List.range 16)
  let b := (List.range 4).foldl (fun b w => b.grantPort w 64) b
  let b := (List.range 4).foldl (fun b p => b.sendWaiting p 64) b
  b.kickTrackers.runPort.scrubCycle

/-- What goes on by itself once it may: loads and records that leave, the reads of the loader, the ring restore and the reload, the
writes of the save area. -/
def Block.goOnAll (b : Block) : Block := b.readersRun.kickMoves.startReloads.restoreCycle.pumpSaves

/-- One DCLK cycle of the data plane. -/
def Block.dclkCycle (b : Block) : Block :=
  let b := ({ b with clk := { b.clk with dclk := b.clk.dclk + 1 } } : Block).sampleGt
  if b.carOn then b.ageCycle.dryLanes.gateCycle.pmuCycle.refillTokens.grantAll.goOnAll else b.runPort

/-- `n` DCLK cycles. -/
def Block.dclkCycles (b : Block) : Nat → Block
  | 0 => b
  | n + 1 => Block.dclkCycles b.dclkCycle n

/-! ### One edge -/

/-- DCLK runs: the data plane is powered, its multiplexer does not hang and its source toggles. -/
def Block.dclkRuns (b : Block) : Bool :=
  b.clk.hung != some .dclk && bit b.clk.present (if b.clk.dclkUsed then 5 else 4) && (match b.pwr.stage with
    | .arrays | .run | .entry | .opening | .drain | .restart => true
    | _ => false)

/-- A nanosecond passes for the delays and the observation output; a slew makes a step each microsecond (R346, R350, R353). -/
def Block.clockNs (b : Block) : Block :=
  let b := { b with clk := ({ b.clk with ns := b.clk.ns + 1 } : Clk).delays }.monTick
  if b.clk.ns % 1000 = 0 then b.slewStep else b

/-- A nanosecond passes: the DCLK cycles of it. -/
def Block.nanosecond (b : Block) : Block :=
  if b.dclkRuns then
    let part := b.clk.dclkPart + b.dclkMhz
    ({ b with clk := { b.clk with dclkPart := part % 1000 } }.clockNs).dclkCycles (part / 1000)
  else b.clockNs

/-- The domains that a start or a wake has switched on by now (Tables 13-8, 15-1). -/
def Block.domTick (b : Block) : Block :=
  match b.pwr.stage with
  | .arrays => { b with pwr := { b.pwr with dom := 0x1F ||| domsAfter startDoms (b.clk.ns - b.pwr.at_) } }
  | .waking => { b with pwr := { b.pwr with dom := b.wakeDomsAt } }
  | _ => b

/-- The tick pulse ends (R183). -/
def Block.tickOver (b : Block) : Block :=
  match b.tu.tickEnd with
  | some t => if t ≤ b.clk.ns then { b with tu := { b.tu with tickEnd := none } } else b
  | none => b

/-- The steps of the entry to Intermission that wait for nothing but the drain (R357, R311). -/
def Block.entryTick (b : Block) : Block :=
  if b.pwr.stage == .entry then ((List.range 4).foldl Block.sendSleep b).entryStep else b

/-- A TPLL cycle of GT, with what the follower removes from it (R173, R314). -/
def Block.tpllCycle (b : Block) : Block :=
  let b := b.advance (incOf b.tu.adj - b.tu.removing)
  { b with tu := { b.tu with removeLeft := b.tu.removeLeft - 1 } }

/-- One crystal edge in Intermission: GT advances by the crystal's period (R173). -/
def Block.crystalEdge (b : Block) : Block :=
  let khz := (fld (b.reg pgCPC 0x064) 15 0).toNat
  let b := b.advance (nearest (incOf b.tu.adj * 10 ^ 6) khz)
  { b with clk := { b.clk with ns := b.clk.ns + 10 ^ 6 / khz } }

/-- An edge in Intermission and at a wake: the crystal's, until the TPLL is locked or coasts again; none of GT where the crystal is
lost (R179, R361). -/
def Block.sleepEdge (b : Block) : Block :=
  if b.pwr.stage == .waking && decide (b.pwr.causeNs + b.wakeLocked ≤ b.clk.ns) then b.tpllCycle.clockNs
  else if b.crystalLost then b.clockNs else b.crystalEdge

/-- One XA edge on backup (R180). -/
def Block.backupEdge (b : Block) : Block :=
  let b := { b with clk := { b.clk with ns := b.clk.ns + 40 } }
  if b.tu.gtStopped then b else b.advance ((b.reg pgTU 0x07C).toNat * 2 ^ 32)

/-- One edge of the clock that GT counts; before GT runs, a nanosecond. -/
def Block.tick (b : Block) : Block :=
  if b.tu.onBkp then b.backupEdge
  else if !b.gtRuns then b.nanosecond
  else match b.pwr.stage with
    | .asleep | .waking => b.sleepEdge.tickOver.domTick
    | _ => b.tpllCycle.nanosecond.tickOver.domTick.entryTick

end Sys2Proof.Machine
end

