-- ==== Sys2Proof/Safety.lean ====
section
/-! DEFINITION. The terms that statements use: what a command makes of the block, when the register port takes a write and
what the register gets, and the properties that every step keeps. -/

namespace Sys2Proof.Machine

/-- The command answers a next state: the block becomes `b`, the queue stays. -/
def Makes (s : State) (c : Instr) (b : Block) : Prop := exec c s = .next { s with blk := b }

/-- The command answers a next state whose block has a property; the queue stays. -/
def Gives (s : State) (c : Instr) (p : Block → Prop) : Prop :=
  ∃ t, exec c s = .next t ∧ t.pending = s.pending ∧ p t.blk

/-- One block differs from another in registers and headers of the named pages and in the records offered to the retention log
or held for it only: it has counted, flagged and reported. -/
structure Block.Notes (pgs : List Nat) (b b' : Block) : Prop where
  rest : b' = { b with fab := { b.fab with regs := b'.fab.regs, hdr := b'.fab.hdr }, rm := { b.rm with logq := b'.rm.logq, evHeld := b'.rm.evHeld } }
  reg : ∀ pg off, pg ∉ pgs → off < 4096 → b'.reg pg off = b.reg pg off
  hdr : ∀ pg, pg ∉ pgs → b'.hdr pg = b.hdr pg

/-! ### Writes at the register port (Table 12-3, R326 to R334) -/

/-- Nothing stands at the register port (R324). -/
def Block.portFree (b : Block) : Bool := b.fab.q.isEmpty && b.fab.ask == .none && b.fab.done.isNone

/-- A part that needs a grant in the data plane would have it at once (R38, R40). -/
def Block.turnFree (b : Block) (q : PortAsk) : Bool := q == .none || (b.putAsk q).askPicked

/-- The part has had the grant that it needs. -/
def Block.turn (b : Block) (q : PortAsk) : Block := if q = .none then b else (b.putAsk q).takeGrant

/-- The port's last answer. -/
def Block.answer (b : Block) (err : Bool) (data : BitVec 64) : Block := { b with fab := { b.fab with rsp := some { err, data } } }

/-- The command is one access part: the block becomes `b`, but for the flags of the cycle, which advance SEQ by 1 only (R329). -/
def Puts (s : State) (c : Instr) (b : Block) : Prop := Makes s c (s.blk.oneSeq b)

/-- A page as a write to it leaves the key: locked again (R331). -/
def Block.relock (b : Block) (pg : Nat) : Block := b.setHdr pg { b.hdr pg with unlocked := false }

/-- What the write part makes of the register: the present value of its RW bits, its RW and WO bits, the data (R327). -/
def Block.wval (b : Block) (pg off : Nat) (w : RegAcc) : Word :=
  match pgClass pg with
  | some cl => aliasVal w.als (b.readReg w.rid pg cl off &&& (defOf cl off).rw) (defOf cl off).rw (defOf cl off).wo w.data
  | none => 0

/-- What the register stores of it (R327, R344): the value, within the field's range. -/
def Block.stval (b : Block) (pg off : Nat) (w : RegAcc) : Word :=
  match pgClass pg with
  | some cl => storedVal cl off (b.wval pg off w)
  | none => 0

/-- Table 12-3 has no objection to a write to a register at 0x040 or above: nothing stands before it at the port, which serves the
page, the Turnstile admits the part, the page is built, enabled and takes no posted write, it was unlocked if the register asks
for the key, no value of the page waits for a boundary, no field is one that basic level keeps, the grant that it may need is had
at once (R443), no once-only field has been written, nothing but RW bits is named through an alias part, the selection is valid,
PWR_SN_TEST has a grant (R365), and CPC_SRC.REF names a crystal that is checked (R367). -/
def Block.takes (b : Block) (pg off : Nat) (w : RegAcc) : Bool :=
  match pgClass pg with
  | none => false
  | some cl =>
    let df := defOf cl off
    b.portFree && decide (0x40 ≤ off) && (b.portMode == .serve || (b.portMode == .few && earlyPage pg)) &&
      b.admits true w.rid pg (off / 4) true && (cl != .csg || b.csgBuilt (pg - 0x40)) &&
      (b.fab.posted.find? pg).isNone && (b.hdr pg).enable && (!df.key || (b.hdr pg).unlocked) &&
      !b.isHeld pg && b.expertOf w.rid pg cl df == 0 && (!df.wonce || !b.fab.instSet) &&
      (if w.als = .base then df.rw ||| df.wo != 0 else df.rw != 0 && w.data &&& ~~~df.rw == 0) &&
      b.turnFree (b.regAsk pg off) && !(b.selBad pg off).2 && !(cl == .pwr && off == 0x070 && b.rm.grant.isNone) &&
      !(cl == .cpc && off == 0x040 && !(b.clk.xchk (bit ((b.relock pg).wval pg off w) 0)).checked)

/-- A posted write is on its way to a page's slow domain. -/
def Block.post (b : Block) (pg : Nat) (p : Posted) : Block :=
  { b with fab := { b.fab with posted := b.fab.posted.insert pg p } }

/-- A page without a posted write. -/
def Block.unpost (b : Block) (pg : Nat) : Block := { b with fab := { b.fab with posted := b.fab.posted.erase pg } }

/-- The write acts at once (R333, R334): the register is not marked PST and the page is in immediate mode. -/
def Block.immediate (b : Block) (pg off : Nat) : Bool :=
  match pgClass pg with
  | some cl => !(defOf cl off).pst && !(b.hdr pg).apply
  | none => false

/-- The write is posted (R334) and takes effect when it lands: the register is marked PST and the page is in immediate mode. -/
def Block.postedAt (b : Block) (pg off : Nat) : Bool :=
  match pgClass pg with
  | some cl => (defOf cl off).pst && !(b.hdr pg).apply
  | none => false

/-- The write has no obstacle and acts at once. -/
def Block.writes (b : Block) (pg off : Nat) (w : RegAcc) : Bool := b.takes pg off w && b.immediate pg off

/-- The write has no obstacle and is posted. -/
def Block.posts (b : Block) (pg off : Nat) (w : RegAcc) : Bool := b.takes pg off w && b.postedAt pg off

/-- A block after an accepted write part (R331, R354, R378): its grant had, the page locked, its units awake, the idle time of the
mailbox's owner restarted where the register is one of the mailbox's, the answer OK. -/
def Block.wrote (b : Block) (pg off : Nat) (w : RegAcc) : Block :=
  ((((b.turn (b.regAsk pg off)).relock pg).wakeUnits pg off).mbxTouch w.rid pg off).answer false 0

/-- The command is a posted write (R334): it answers with the write on its way to the page's slow domain, and where that write
lands the block becomes what `f` makes of it. -/
def Lands (s : State) (c : Instr) (pg : Nat) (off : Nat) (w : RegAcc) (f : Block → Block) : Prop :=
  let b := s.blk.oneSeq ((s.blk.wrote pg off w).post pg
    { id := w.rid, off, al := w.als, val := s.blk.stval pg off w, defer := false, old := false })
  Makes s c b ∧ Makes { s with blk := b } (.postedWriteLand (BitVec.ofNat 7 pg)) (b.oneSeq (f (b.unpost pg)))

/-! ### The mailbox (R376 to R379) -/

/-- The mailbox starts a command of this identity (R371, R377): the Ringmaster is READY, the identity owns the mailbox, none runs. -/
def Block.mbxOpen (b : Block) (id : BitVec 5) : Bool := b.rm.ready && b.rm.ownedBy id && b.rm.busy.isNone

/-- Argument k of a mailbox command: word k of MBX_DATA. -/
def Block.mbxArg (b : Block) (k : Nat) : Word := b.rm.data.get 0 k

/-- The command that a write of MBX_CMD starts: its code, its sender, its four arguments. -/
def Block.mbxOp (b : Block) (op : BitVec 8) (id : BitVec 5) : MbxOp := { op, id, args := (List.range 4).map b.mbxArg }

/-- The mailbox with that command running: BUSY is 1, DONE 0. -/
def Block.mbxBusy (b : Block) (op : BitVec 8) (id : BitVec 5) : Block :=
  { b with rm := { b.rm with busy := some (b.mbxOp op id), done := false } }

/-! ### Steps of GT (R177, R186) -/

/-- When a scheduled period is taken after GT has been given another value: one that is due stays due; otherwise at the first multiple
of 4,096 × NEXT from that value on. -/
def Block.retake (b : Block) (ns : Gt) : Gt :=
  if b.car.pend = true then (if b.periodDue then ns else BitVec.ofNat 64 (takeGt ns.toNat (b.regFld pgCAR 0x040 12 0).toNat))
  else b.car.takeAt

/-! ### Thread operations (R214 to R217) -/

/-- A thread's operation would be granted at once at the port of the bank that it goes to (R38, R444): nothing waits at requester 16
there, no re-notification check at requester 17, and the arbiter picks it. An empty seat needs no grant. -/
def Block.opFree (b : Block) (t : Nat) (w : Win) : Bool :=
  match (b.seatOf (b.winSeat t w)).ctx with
  | none => true
  | some c =>
    let k := b.bank (ctxBank c)
    let check (x : BankOp) : Bool := match x with
      | .check _ => true
      | _ => false
    k.in16.isEmpty && !k.car17.any check &&
      (b.setBank (ctxBank c) { k with in16 := [.thread (BitVec.ofNat 11 t)] }).bankPick (ctxBank c) == some 16

/-- A thread operation acts at once: on the register port, past the Turnstile, with its bank's grant; or through the self alias, with
the privilege its window needs, a lane in which nothing else is on its way, and its bank's grant. -/
def Block.reaches (b : Block) (o : TifOp) (a : TifAct) : Bool :=
  let t := o.thread.toNat
  let off := winBase o.win + a.off
  decide (t < b.threads) && match o.via with
    | .absolute id => b.portFree && b.portMode == .serve && b.pwr.stage != .restart &&
        b.admits true id (0x2000 + t) (off / 4) (!a.isRead) && b.turnFree (b.tifAsk t off (!a.isRead))
    | .self priv =>
      let h := b.thread t
      b.dpOn && b.pwr.stage != .drain && decide (winPriv o.win ≤ priv.toNat) && b.linkUp t && h.held.isEmpty && h.upq.isEmpty &&
        h.up.isEmpty && h.ops.isEmpty && h.respCh.isEmpty && h.asked.isNone && h.wide.isNone && !b.opWaits t o a && b.opFree t o.win

/-- The seat a thread operation acts on holds this context, which is resident with this record. -/
def Block.actsOn (b : Block) (o : TifOp) (c : CtxNo) (x : Ctx) : Prop :=
  (b.seatOf (b.winSeat o.thread.toNat o.win)).ctx = some c ∧ b.rec? c = some x

/-- What a thread operation makes of the block, but for its answer: through an absolute page the flags of the cycle advance SEQ by
1 only. -/
def Block.did (b : Block) (o : TifOp) (x : Block) : Block :=
  match o.via with
  | .absolute _ => b.oneSeq x
  | .self _ => x

/-- One block is another but for what carries an operation and its answer: the lanes of the threads, the last response of the
register port, the ages of requests. The queues of the context banks are the same. -/
structure Block.Answers (b b' : Block) : Prop where
  rest : b' = { b with thr := b'.thr, cb := b'.cb, ages := b'.ages, fab := { b.fab with rsp := b'.fab.rsp, askOld := b'.fab.askOld } }
  bank : ∀ q, b'.bank q = b.bank q

/-- The value a thread operation answers with: on the register port in the lanes of its offset, through the self alias to the core,
or, for an ACK, on its way to the slice (R209). -/
def Block.answered (b' : Block) (o : TifOp) (a : TifAct) (v : Word) : Prop :=
  match o.via with
  | .absolute _ => b'.fab.rsp = some { err := false, data := inLane a.off v }
  | .self _ => match a with
    | .ack => ∃ r, (b'.thread o.thread.toNat).respCh.getLast? = some r ∧ r.data = v ∧ r.err = false
    | .read _ => (b'.thread o.thread.toNat).coreRsp = some { err := false, data := v.setWidth 64 }
    | _ => (b'.thread o.thread.toNat).coreRsp = some {}

/-! ### What every step keeps -/

/-- Physical presence guards the Awl port, and the seal guards presence (R386, R388): the port is enabled only under a grant,
and no grant is open once the seal has been broken. -/
def Block.guarded (b : Block) : Prop :=
  (b.rm.awlEn = true → b.rm.grant.isSome = true) ∧ (b.rm.grant.isSome = true → b.rm.sealBroken = false)

end Sys2Proof.Machine
end

