-- ==== Sys2Proof/WellFormed.lean ====
section
/-! DEFINITION. Which operands a port of the block can present with a command: lengths of what memory answers, of frames and
of samples, numbers that must be in a range their bits do not already give. The step does not ask for it: it gives every
command its effect as it stands (log 1). -/

namespace Sys2Proof

/-- A memory answer of one of some lengths in bytes; an answer without data has none. -/
def MemResp.sized (ns : List Nat) : MemResp → Bool
  | .ok bytes => ns.contains bytes.length
  | _ => true

/-- An image read lists no offset twice, and names a line of an image of at most 4 GiB as the one in error (R127, R132). -/
def ImgRead.wf (r : ImgRead) : Bool :=
  decide (r.bytes.map Prod.fst).Nodup && (match r.stop with
    | some n => decide (n < 2 ^ 26)
    | none => true)

/-- A write at a station port has a beat. -/
def beatsWf (bs : List Beat) : Bool := !bs.isEmpty

/-- A frame has one to five beats (R300). -/
def frameWf (bs : List (BitVec 128)) : Bool := decide (1 ≤ bs.length ∧ bs.length ≤ 5)

/-- An access to register space at a reserved page (R322). -/
def Access.reserved (a : Access) : Bool :=
  a.space == .regs && (Machine.pgClass (a.addr.toNat / 0x4000 % 128)).isNone

/-- The operands are ones that the command's port can carry. -/
def Instr.wf : Instr → Bool
  | .shortDoorbell _ _ bs | .longDoorbell _ _ bs => beatsWf bs
  | .fillResponse _ _ r | .refreshResponse _ _ r => r.sized [16, 64]
  | .mcsSetReadDone _ r => r.sized [192]
  | .ctxtEntryRead _ r => r.sized [16, 64]
  | .spillPush _ r => r.sized [16, 64]
  | .refillDone _ bs => bs.all fun x => x.resp.sized [256]
  | .ctxLoadComplete _ e ds => e.sized [128] && ds.all (·.sized [16, 64])
  | .loadPass1Done img | .loadPass2Done img => img.wf
  | .eventFrame _ _ bs => decide (bs.length ≤ 5)
  | .creditFrame _ bs | .timeFrame _ bs | .hello _ bs | .sleep _ bs | .sleepAck _ bs => frameWf bs
  | .reservedPageAccess a _ => a.reserved
  | .ringsRestored ls => ls.all fun p => decide (p.1 < 8192) && p.2.sized [64]
  | .reloaded ls => ls.all fun p => decide (p.1 < 5120) && p.2.sized [64]
  | .ready fw => fw.copy0.length == 64 && fw.copy1.length == 64
  | .sensorSample temps volts => temps.length == 8 && volts.length == 16
  | .counterWrap fixed i => !fixed || decide (i.toNat < 16)
  | .lineEdge _ _ | .lineAssert _ _ | .levelSample _ | .collectorOffer _ | .edgeLatchCapture _ _ | .latchTransfer _ _
  | .doorbellRead _ _ _ _ | .stationResponse _ _ | .stationLookup _ _ | .refreshSweep _ | .stnInv _ _ | .stnInvDone _
  | .stnCtl _ _ | .lcEn _ _ _ | .lcLevel _ _ _ | .lcPol _ _ _ | .lcInject _ _ | .arrivalAdmit _ _ | .routeArrival _
  | .rankInsert _ _ | .reevaluate _ | .deliveryGrant _ | .notify _ | .withdraw _ | .ackResponse _ | .confirm _
  | .sliceLinkUp _ | .sliceLinkDown _ | .ack _ | .eoi _ _ | .deact _ _ | .ackPeek _ | .gateWrite _ _ | .ctlWrite _ _
  | .statusClr _ _ | .utagWrite _ _ | .ipiSend _ _ | .tdlLoWrite _ _ | .timerWrite _ _ | .timerFineLoad _ | .timerFire _
  | .renotifyCheck _ | .ctxLoad _ _ | .ctxUnload _ _ | .ctxSeat _ _ | .ctxUnseat _ _ | .ctxMove _ _ | .handoffEnd _
  | .csgBadop _ _ | .rePin _ _ | .reUnpin _ _ | .filtClr _ _ | .maskSet _ _ | .maskClear _ _ | .lastLoad _ | .commit _
  | .rollback _ | .abort _ | .build _ | .buildDone | .lastBadop _ | .bankFlip | .ringSettle _ | .cfgCrcCommit _
  | .cfgCrcRef _ | .slotBoundary | .revolutionBoundary | .carPeriodWrite _ | .periodTaken | .carSlotDataWrite _
  | .carSlotDataRead _ | .carCtlWrite _ | .windowExpiry _ | .tuFreqAdjLo _ | .tuStepLo _ | .tuSetLo _ | .tuCtlWrite _
  | .ppsEdge | .tickPulse | .followHoldover | .recordIntake _ _ | .recordAdmit _ _ | .ringWriteIssue _
  | .ringWriteAccept _ | .indexWrite _ | .indexWriteAccept _ | .erwRingCi _ | .clearFault _ | .ringReset _
  | .erwVifShare _ | .vifCreate _ | .vifReset _ | .vifDestroy _ | .setCtx _ | .setRing _ | .setNotify _ | .dirtyStart _
  | .dirtyStop _ | .harvest _ | .drain _ | .ringIdx _ | .vmgrBadop _ | .purgeEnd | .quiescence _ | .drained _ | .snap _
  | .dlChannelFree _ | .vmgrDlCi _ | .vifHvdb _ _ _ | .vifRingCi _ _ _ _ | .segApply _ | .segFetch _ | .xuInv _
  | .xuInvDone | .walkStart | .walkReadResponse _ _ | .faultReport | .juwaTransmit _ _ | .escape _ _ | .creditReturn _
  | .helloSend _ | .wakeSend _ | .portUp _ | .portDown _ | .jlPortCtl _ _ | .registerWrite _ | .pgStatclr _ _ | .pgKey _ _
  | .postedWriteLand _ | .trnApply _ | .trnFetch _ | .trnEpoch _ | .trnDrained | .glbInst _ | .admitEn _ | .admitStopped
  | .xchkWindow _ _ | .crystalMonitorTrip _ | .fioMonitorTrip | .dclkMonitorTrip | .pllLock _ | .pllStartNoref
  | .cpcDpll _ | .slewDone | .cpcSrc _ | .clkMuxHung _ | .recheck _ | .unitGate _ _ _ | .pwrSleep _ | .pwrBadop _
  | .intermissionEnter _ | .wakeRestore | .woke | .accAsleep _ | .snSwitch | .snReturn | .pwrSnTest _ | .logWrite
  | .ringmasterRestart | .take _ | .release _ | .mbxIdleTimeout | .info _ | .logClear _ | .fwStage _
  | .fwActivate _ | .lastUpdate _ | .lastFactory _ | .presenceOpen _ _ | .presenceEnd _ | .awl _ | .mbxBadop _
  | .mbxCommandEnd _ | .grantExpiry | .sealBreak | .awlAddr _ | .awlData _ | .awlAccessDone | .coldStart _ _ _ | .dpReady
  | .partialColdStart _ | .dpLoss | .warmReset _ | .warmDrainEnd | .dpRestart _ | .restartEnd | .restartScan _
  | .eccCe _ _ _ | .eccUe _ _ _ | .scrubPass | .rasReport | .rasInject _ | .memResponseUnknownId _ _ | .scanMode
  | .wakeCause _ | .sioJudged | .fioUsable | .fioBadCleared | .gtStopped | .spillWriteAccept _ | .coldReset _ | .registerRead _ => true

end Sys2Proof
end

