-- ==== Sys2Proof/Certificates/Slice0/Obligations.lean ====
section
/-! DEFINITION. The statements for the provers. `Makes s c b`: command c answers a next state whose block is b, the queue unchanged;
`Gives s c p`: it answers one whose block has p. -/

open Sys2Proof Sys2Proof.Machine

/-- When a command c stands at the front of the queue, step is exec of c on the state with the rest of the queue. On an
empty queue step answers a next state in which one TPLL edge has passed, the queue still empty; that an idle step is one
edge is the model's choice (log 40). (00_scope.md Scope; 06_carousel_and_time.md R173) -/
def Obligations.StepRunsTheFrontCommand : Prop :=
  (∀ (s : State) (c : Instr) (rest : List Instr), s.pending = c :: rest → step s = exec c { s with pending := rest }) ∧
  (∀ (s : State), s.pending = [] → step s = .next { s with blk := s.blk.tick })

/-- Whatever the state, every command of the table answers a next state, never a fault or a refusal, and leaves the queue of
waiting commands as it found it: a command that the state gives no occasion for changes nothing, and errors set flags,
counters and log entries (the model's reading of the steps, log 23). (95_what_each_step_holds.md What each step holds) -/
def Obligations.EveryCommandAnswers : Prop :=
  ∀ (c : Instr) (s : State), ∃ b, exec c s = .next { s with blk := b }

/-- In State.reset and after COLD_RESET, region 0 has FIRST 0, COUNT 16,384, WLO 0, WHI 1,023 and both masks 0xB, every
other region has COUNT 0, and for every page and word a read or a write passes the regions exactly under identities 0, 1 and
3; on the register port identity 3 is refused whatever the regions say. (12_registers_and_turnstile.md R336) -/
def Obligations.TheTurnstileAfterColdReset : Prop :=
  ∀ b : Block, (b = State.reset.blk ∨ ∃ s v t, exec (.coldReset v) s = .next t ∧ b = t.blk) →
    b.fab.rgn.get {} 0 = { first := 0, count := 16384, wlo := 0, whi := 1023, rmask := 0xB, wmask := 0xB } ∧
    (∀ n, n ≠ 0 → (b.fab.rgn.get {} n).count = 0) ∧
    ∀ (id : BitVec 5) (tpn w : Nat) (wr : Bool), tpn < 16384 → w < 1024 →
      (b.admits false id tpn w wr = true ↔ id = 0 ∨ id = 1 ∨ id = 3) ∧ (b.admits true id tpn w wr = true ↔ id = 0 ∨ id = 1)

/-- In State.reset and after COLD_RESET, bank A is active and holds the basic image of the BASIC registers, which stand at
their reset values; bank B is EMPTY; every LC_EN register reads 0 and MSG_EN is 0; and every wired or message event gets
class 0 from the image, which routes nowhere and names no ring. (04_the_last.md R143) -/
def Obligations.TheLastAfterColdReset : Prop :=
  ∀ b : Block, (b = State.reset.blk ∨ ∃ s v t, exec (.coldReset v) s = .next t ∧ b = t.blk) →
    b.last.active = false ∧ b.last.a.basic = some b.basicImg ∧ (∀ off, 0x100 ≤ off → off < 0x180 → b.reg pgLAST off = resetOf pgLAST off) ∧
    b.last.inactive = .empty ∧ b.last.b = {} ∧ (∀ c, c < 16 → b.lcBits c 0x040 = 0) ∧ b.regBit pgLAST 0x100 1 = false ∧
    (∀ e : Event, (basicWired b.basicImg e).cls = 0 ∧ (basicMsg b.basicImg e).cls = 0) ∧
    (b.rte 0).kind = 0 ∧ (b.rte 0).ringValid = false

/-- In State.reset the Awl port is disabled and no grant is open, so physical presence guards the port and the seal guards
presence. (14_ringmaster.md R386; 14_ringmaster.md R388) -/
def Obligations.PresenceGuardsHoldAtReset : Prop :=
  State.reset.blk.guarded ∧ State.reset.blk.rm.awlEn = false ∧ State.reset.blk.rm.grant = none

/-- From every state in which the Awl port is enabled only under an open grant and no grant is open once the seal is broken,
any step that answers a next state gives one of which the same holds, whatever command stands in front and when none does;
and the built parameters of the block are what they were. (14_ringmaster.md R386; 14_ringmaster.md R387; 14_ringmaster.md R388; 13_clocks_power_supplies.md R364; 15_startup_reset_errors.md R396) -/
def Obligations.EveryStepKeepsThePresenceGuards : Prop :=
  ∀ (s s' : State), s.blk.guarded → step s = .next s' → s'.blk.guarded ∧ s'.blk.prm = s.blk.prm

/-- LINE_EDGE and LINE_ASSERT. While the data plane runs, a new sample of a collector's synchronised levels raises exactly
the enabled lines whose active level has risen, edge-type and level-type alike; those found already raised are absorbed and
counted in LC_MERGED, saturating. Nothing else of the block changes. LEVEL_SAMPLE: the oldest sample asked for is taken off
the list, and its line is raised if it is asserted, enabled and level-type; nothing else changes. COLLECTOR_OFFER: when the
wired lane is free and the miss buffer has room, the first raised line from the scan pointer on (from line 0 when none is at
or above it) is cleared, the pointer moves just past it, and the lane holds the event of that line; besides, only
performance counters, their flags and the log queue can change. (03_ingress.md R79; 03_ingress.md R80; 03_ingress.md R81; 02_event_model.md R54; 03_ingress.md R82; 03_ingress.md R443) -/
def Obligations.LinesAreSampledAndOffered : Prop :=
  (∀ (s : State) (c : Fin 16) (lv : BitVec 128), s.blk.dpOn = true →
    let x := s.blk.coll c
    let pol := s.blk.lcBits c 0x060
    let rose := (lv ^^^ pol) &&& ~~~(x.sync ^^^ pol) &&& s.blk.lcBits c 0x040
    let n := popCount (x.raise &&& rose)
    let b := s.blk.setColl c { x with sync := lv, raise := x.raise ||| rose }
    let r := if n = 0 then b else b.setReg (pgLC c) 0x094 (satAdd (s.blk.reg (pgLC c) 0x094) n)
    Makes s (.lineEdge c lv) r ∧ Makes s (.lineAssert c lv) r) ∧
  ((∀ (s : State) (c : Fin 16) (i : BitVec 7) (rest : List (BitVec 7)), s.blk.dpOn = true → (s.blk.coll c).sample = i :: rest →
    let x := s.blk.coll c
    let m : BitVec 128 := (1 : BitVec 128) <<< i.toNat
    let on := m &&& (x.sync ^^^ s.blk.lcBits c 0x060) &&& s.blk.lcBits c 0x040 &&& s.blk.lcBits c 0x050
    Makes s (.levelSample c) (s.blk.setColl c { x with sample := rest, raise := if on = 0 then x.raise else x.raise ||| m })) ∧
  (∀ (s : State) (c : Fin 16) (i : Nat), s.blk.admitOn = true → s.blk.last.paused = false →
    (s.blk.station (c / 2)).wired = none → (s.blk.station (c / 2)).reentry = [] → (s.blk.station (c / 2)).resumedWired = [] →
    missUsed (s.blk.station (c / 2)) < 384 → i < 128 →
    (let x := s.blk.coll c
     x.raise.getLsbD i = true ∧
      ((x.scan.toNat ≤ i ∧ ∀ j, x.scan.toNat ≤ j → j < i → x.raise.getLsbD j = false) ∨
       ((∀ j, x.scan.toNat ≤ j → x.raise.getLsbD j = false) ∧ ∀ j, j < i → x.raise.getLsbD j = false))) →
    Gives s (.collectorOffer c) fun b =>
      let x := s.blk.coll c
      let n := 128 * c.val + i
      Block.Notes [pgPMU, pgRM]
        ((s.blk.setColl c { x with raise := setBit x.raise i false, scan := BitVec.ofNat 7 (i + 1) }).setStation (c / 2)
          { s.blk.station (c / 2) with
            wired := some { kind := .wired, src := .line (BitVec.ofNat 11 n), pevent := BitVec.ofNat 20 n } }) b))

/-- LC_EN, LC_LEVEL, LC_POL, through any alias part that names RW bits only: when Table 12-3 has no objection and the page
is in immediate mode, the register takes the written value, disabled lines lose their raise bits, and each line of the
register that is then enabled, level-type and asserted is raised; no edge arrival is raised. LC_INJECT: an enabled line is
raised, counting in LC_MERGED if it already was; a disabled one sets INJECT_IGNORED. In each case the page is locked again,
the port answers OK, and nothing else changes. EDGE_LATCH_CAPTURE: while the latch captures, an enabled line that becomes
active sets its latch bit; the first bit of any collector latches the wired wake cause; nothing else changes.
LATCH_TRANSFER: on wake the latched edge-type lines and the asserted enabled level-type lines are raised, LC_LATCH shows the
latch, the latch is cleared, and WAKE is set if a latched bit of the collector caused the wake; nothing else changes. (03_ingress.md R84; 03_ingress.md R112; 12_registers_and_turnstile.md Table 12-3; 03_ingress.md R85; 03_ingress.md R86; 03_ingress.md LC_LATCH) -/
def Obligations.LineRegistersAndTheEdgeLatch : Prop :=
  ((∀ (s : State) (c : Fin 16) (r : Fin 4) (i : Instr) (base : Nat) (w : RegAcc),
    ((base = 0x040 ∧ i = .lcEn c r w) ∨ (base = 0x050 ∧ i = .lcLevel c r w) ∨ (base = 0x060 ∧ i = .lcPol c r w)) →
    s.blk.writes (pgLC c) (base + 4 * r.val) w = true →
    let b := (s.blk.wrote (pgLC c) (base + 4 * r.val) w).setReg (pgLC c) (base + 4 * r.val) (s.blk.stval (pgLC c) (base + 4 * r.val) w)
    let x := s.blk.coll c
    let en := b.lcBits c 0x040
    let asserted := (x.sync ^^^ b.lcBits c 0x060) &&& en &&& b.lcBits c 0x050 &&& (0xFFFFFFFF#128 <<< (32 * r.val))
    Puts s i (b.setColl c { x with raise := (x.raise &&& en) ||| asserted })) ∧
  (∀ (s : State) (c : Fin 16) (w : RegAcc), w.als = .base → s.blk.writes (pgLC c) 0x090 (withOp w 0x100 0x100) = true →
    let line := (fld w.data 6 0).toNat
    let x := s.blk.coll c
    let b := s.blk.wrote (pgLC c) 0x090 (withOp w 0x100 0x100)
    let raised := b.setColl c { x with raise := x.raise ||| (1 : BitVec 128) <<< line }
    (bit (s.blk.lcBits c 0x040) line = true →
      Puts s (.lcInject c w) (if bit x.raise line = true then raised.cnt (pgLC c) 0x094 else raised)) ∧
    (bit (s.blk.lcBits c 0x040) line = false → Puts s (.lcInject c w) (b.flag (pgLC c) 1)))) ∧
  ((∀ (s : State) (c : Fin 16) (lv : BitVec 128),
    (s.blk.coll c).latchOn = true →
    let x := s.blk.coll c
    let rose := (lv ^^^ x.pd0Pol) &&& ~~~(x.pd0Level ^^^ x.pd0Pol) &&& x.pd0En
    let first := rose ≠ 0 ∧ ∀ p ∈ s.blk.col.cells, p.2.pd0 = 0
    let b (woke : Bool) : Block := s.blk.setColl c { x with pd0 := x.pd0 ||| rose, pd0Level := lv, woke }
    (first → Makes s (.edgeLatchCapture c lv) { b true with pwr := { s.blk.pwr with latched := s.blk.pwr.latched ||| 1 } }) ∧
    (¬ first → Makes s (.edgeLatchCapture c lv) (b x.woke))) ∧
  (∀ (s : State) (c : Fin 16) (lv : BitVec 128), s.blk.pwr.stage = .opening → (s.blk.coll c).latchOn = true →
    let x := s.blk.coll c
    let lvl := s.blk.lcBits c 0x050
    let raised := (x.pd0 &&& ~~~lvl) ||| ((lv ^^^ s.blk.lcBits c 0x060) &&& lvl &&& s.blk.lcBits c 0x040)
    let b := s.blk.setColl c { x with sync := lv, latch := x.pd0, pd0 := 0, latchOn := false, woke := false, raise := x.raise ||| raised }
    Makes s (.latchTransfer c lv) (if x.woke = true ∧ bit s.blk.pwr.cause 0 = true then b.flag (pgLC c) 0 else b)))

/-- SHORT_DOORBELL and LONG_DOORBELL. A well-formed write, taken while admission is on and the intake FIFO has room for its
beats, joins the end of the intake with the source tag of its first beat, its event word's DEVEVT, its page and offset, and
owes one response, not decided yet. A long one carries L_EFF = min(LEN, 48, bytes written after the word) payload bytes,
TRUNC when LEN exceeds 48, and when it has payload, no earlier write waits and an entry is free, it claims one free
reassembly entry of its station that holds exactly those bytes. Of the block, only the token, the station, the payload
entries, registers, flags and the log queue change. DOORBELL_READ: whatever offset it names, a read taken while the block
runs and fewer than 64 decided responses wait owes an OK response of the beats asked for; in Intermission and its wake the
station answers RETRY at once, before its domain is out of reset ERR. STATION_RESPONSE: the earliest response owed to the
identifier leaves once it is decided, with its code and beats, and every other response stays in order. Nothing else
changes. STN_CTL, through any alias part that names its RW bit only: the register takes the value, and a value of 0 empties
the cache. STN_INV with GO: with no invalidation in progress one starts with the written SCOPE and the argument register,
and the reads already issued will not be installed; with one in progress INV_IGNORED is set. STN_INV_DONE: the entries the
scope names go, BUSY falls, INV_COUNT rises by one, INV_DONE is set. The page is locked again by a write, the port answers
OK, and nothing else changes. (03_ingress.md R88; 03_ingress.md R89; 03_ingress.md R90; 03_ingress.md R91; 03_ingress.md R93; 03_ingress.md R92; 03_ingress.md R99; 03_ingress.md R109; 03_ingress.md R111) -/
def Obligations.DoorbellWritesAreTaken : Prop :=
  ((∀ (s : State) (k : Fin 8) (id : BitVec 12) (bs : List Beat) (x : Beat) (e : Event), s.blk.admitOn = true →
    (s.blk.station k).rsps.countP (·.code.isSome) < 64 → bs.head? = some x → writeKind bs = .short e →
    fifoUsed (s.blk.station k) + bs.length ≤ 64 →
    let st := s.blk.station k
    let tok := s.blk.tok + 1
    let i : Item := { kind := .message, src := .tag x.tag, tag := x.tag, devevt := e, page := BitVec.ofNat 13 (writePlace bs / 4096),
                      off := BitVec.ofNat 12 (writePlace bs), beats := bs.length, tok }
    let st' : Station := { st with rsps := st.rsps ++ [{ tok, id, beats := 1, code := none }], intake := st.intake ++ [i] }
    Gives s (.shortDoorbell k id bs) (Block.Notes [pgPMU, pgRM] (({ s.blk with tok } : Block).setStation k st'))) ∧
  (∀ (s : State) (k : Fin 8) (id : BitVec 12) (bs : List Beat) (x : Beat) (w : Word) (p : List Byte), s.blk.admitOn = true →
    (s.blk.station k).rsps.countP (·.code.isSome) < 64 → bs.head? = some x → writeKind bs = .long w p →
    fifoUsed (s.blk.station k) + bs.length ≤ 64 → ((s.blk.station k).intake.all fun j => j.bytes.isEmpty) = true →
    ((List.range 128).any fun j => (s.blk.pays.find? (128 * k.val + j)).isNone) = true →
    let st := s.blk.station k
    let tok := s.blk.tok + 1
    let len := (fld w 25 20).toNat
    let eff := min (min len 48) p.length
    Gives s (.longDoorbell k id bs) fun b =>
      b = { s.blk with tok, stn := b.stn, pays := b.pays, fab := b.fab, rm := b.rm } ∧
      (b.station k).rsps = st.rsps ++ [{ tok, id, beats := 1, code := none }] ∧
      ∃ i : Item, (b.station k).intake = st.intake ++ [i] ∧ i.kind = .message ∧ i.src = .tag x.tag ∧ i.devevt = fld w 19 0 ∧
        i.plen = BitVec.ofNat 6 eff ∧ i.trunc = decide (48 < len) ∧ i.tok = tok ∧ i.beats = bs.length ∧ i.bytes = [] ∧
        (eff = 0 → i.pay = none ∧ b.pays = s.blk.pays) ∧
        (0 < eff → ∃ n, 128 * k.val ≤ n ∧ n < 128 * k.val + 128 ∧ s.blk.pays.find? n = none ∧ i.pay = some n ∧
          b.pays = s.blk.pays.insert n { bytes := p.take eff, readers := 1 }))) ∧
  (((∀ (s : State) (k : Fin 8) (id : BitVec 12) (addr : BitVec 25) (n : BitVec 3),
    let st := s.blk.station k
    (s.blk.pwr.stage = .run → st.rsps.countP (·.code.isSome) < 64 →
      Makes s (.doorbellRead k id addr n)
        (s.blk.setStation k { st with rsps := st.rsps ++ [{ tok := 0, id, beats := n.toNat + 1, code := some 0 }] })) ∧
    ((s.blk.pwr.stage = .entry ∨ s.blk.pwr.stage = .asleep ∨ s.blk.pwr.stage = .waking ∨ s.blk.pwr.stage = .opening) →
      Makes s (.doorbellRead k id addr n) (s.blk.setStation k { st with rspOut := some (id, 2, n.toNat + 1) })) ∧
    (s.blk.stnDark = true → Makes s (.doorbellRead k id addr n) (s.blk.setStation k { st with rspOut := some (id, 1, n.toNat + 1) }))) ∧
  (∀ (s : State) (k : Fin 8) (id : BitVec 12) (pre post : List StnRsp) (r : StnRsp) (code : BitVec 2),
    (s.blk.station k).rsps = pre ++ r :: post → (∀ q ∈ pre, q.id ≠ id) → r.id = id → r.code = some code →
    Makes s (.stationResponse k id)
      (s.blk.setStation k { s.blk.station k with rsps := pre ++ post, rspOut := some (id, code, r.beats) }))) ∧
  ((∀ (s : State) (k : Fin 8) (w : RegAcc), s.blk.writes (pgSTN k) 0x040 w = true →
    let v := s.blk.stval (pgSTN k) 0x040 w
    let b := (s.blk.wrote (pgSTN k) 0x040 w).setReg (pgSTN k) 0x040 (blend 1 (s.blk.reg (pgSTN k) 0x040) v)
    Puts s (.stnCtl k w) (if bit v 0 = true then b else b.setStation k { s.blk.station k with sets := .empty })) ∧
  (∀ (s : State) (k : Fin 8) (w : RegAcc), w.als = .base → s.blk.writes (pgSTN k) 0x044 (withOp w 4 4) = true →
    let b := (s.blk.wrote (pgSTN k) 0x044 (withOp w 4 4)).setReg (pgSTN k) 0x044 (blend 3 (s.blk.reg (pgSTN k) 0x044) w.data)
    let st := s.blk.station k
    let late (f : Fill) : Fill := match f.phase with
      | .issued _ _ _ => { f with stale := true }
      | _ => f
    (st.inv = none → Puts s (.stnInv k w) (b.setStation k { st with
      inv := some { scope := fld w.data 1 0, arg := (s.blk.reg (pgSTN k) 0x048).setWidth 64 },
      fills := st.fills.map late, refreshes := st.refreshes.map late })) ∧
    (st.inv.isSome = true → Puts s (.stnInv k w) (b.flag (pgSTN k) 5))) ∧
  (∀ (s : State) (k : Fin 8) (o : InvOp), (s.blk.station k).inv = some o →
    let st := cacheMap (s.blk.station k) fun key v => if o.names key = true then none else some v
    Makes s (.stnInvDone k) ((s.blk.setStation k { st with inv := none, invCount := st.invCount + 1 }).flag (pgSTN k) 4))))

/-- STATION_LOOKUP in both lanes, with a basic image active. A message of doorbell page 0 whose DEVEVT is a message-range
event, with messages on, leaves the intake for the output queue of its event's bank with the basic attributes, and its
write's response is decided OK. A wired event leaves the wired lane for the output queue of its bank. Besides the station,
only performance counters, their flags and the log queue can change. FILL_RESPONSE: an issued EVA fill with one wired event
attached ends; the event leaves the miss buffer for the wired lane with the attributes its 16 bytes give it, and with the
cache off nothing is installed. REFRESH_SWEEP: 3.75 us of GT after the last visit the sweep moves to the next set and notes
the time; a set with no valid entry starts no read. REFRESH_RESPONSE: an issued refresh read ends, and every entry read from
that address takes the memory content, or is removed when its key is gone or the read failed. Nothing else changes when no
read waits for a tracker. (03_ingress.md R83; 03_ingress.md R101; 04_the_last.md R142; 03_ingress.md R93; 03_ingress.md R104; 04_the_last.md R138; 03_ingress.md R99) -/
def Obligations.StationLookupHandsOver : Prop :=
  (∀ (s : State) (k : Fin 8) (m : BasicImg), s.blk.lanesOn = true → s.blk.act.basic = some m →
    let st := s.blk.station k
    (∀ (i : Item) (rest : List Item), st.resumedMsg = [] → st.intake = i :: rest → i.bytes = [] → i.kind = .message → i.page = 0 →
      bit m.ctl 1 = true → msgRange i.devevt = true → (st.out (evBank i.devevt)).length < 16 →
      let st' : Station := { st with
        intake := rest,
        outq := st.outq.upd [] (evBank i.devevt) (· ++ [({ i with pevent := i.devevt }, basicMsg m i.devevt)]),
        rsps := if i.tok = 0 then st.rsps
          else modifyFirst (fun r => r.tok == i.tok && r.code.isNone) (fun r => { r with code := some 0 }) st.rsps }
      Gives s (.stationLookup k .message) (Block.Notes [pgPMU, pgRM] (s.blk.setStation k st'))) ∧
    (∀ (i : Item), st.resumedWired = [] → st.reentry = [] → st.wired = some i → i.kind = .wired → i.tok = 0 →
      wiredRange i.pevent = true → (st.out (evBank i.pevent)).length < 16 →
      let st' : Station := { st with
        wired := none, outq := st.outq.upd [] (evBank i.pevent) (· ++ [(i, basicWired m i.pevent)]) }
      Gives s (.stationLookup k .wired) (Block.Notes [pgPMU, pgRM] (s.blk.setStation k st')))) ∧
  ((∀ (s : State) (k : Fin 8) (a : SegAddr) (f : Fill) (pa : BitVec 64) (dev sh : Bool) (p : Parked) (bytes : List Byte),
    let st := s.blk.station k
    st.fills = [f] → f.addr = a → f.phase = .issued pa dev sh → f.dead = false → st.parked = [p] → p.on = .fill a →
    p.item.kind = .wired → p.item.tok = 0 → s.blk.regBit (pgSTN k) 0x040 0 = false → s.blk.xl.trkWait = [] →
    let r : Resumed := { item := p.item, attr := some (evaOf (leBits 64 (bytes.take 8))).settle, holds := true }
    Makes s (.fillResponse k a (.ok bytes))
      (s.blk.setStation k { st with fills := [], parked := [], resumedWired := st.resumedWired ++ [r] })) ∧
  (∀ (s : State) (k : Fin 8), s.blk.dpOn = true → (s.blk.station k).sweepGt.toNat + 3750 ≤ s.blk.gt.toNat →
    ((s.blk.station k).sets.get {} (s.blk.station k).sweepSet.toNat).ways.cells = [] →
    Makes s (.refreshSweep k)
      (s.blk.setStation k { s.blk.station k with sweepSet := (s.blk.station k).sweepSet + 1, sweepGt := s.blk.gt })) ∧
  (∀ (s : State) (k : Fin 8) (a : SegAddr) (f : Fill) (pa : BitVec 64) (dev sh : Bool) (r : MemResp),
    let st := s.blk.station k
    st.refreshes = [f] → f.addr = a → f.phase = .issued pa dev sh → f.stale = false → s.blk.xl.trkWait = [] →
    let now (key : CKey) (v : CVal) : Option CVal :=
      if keyAddr s.blk.act key = a then (match r with
        | .ok bytes => refreshed bytes key
        | _ => none) else some v
    Makes s (.refreshResponse k a r) (s.blk.setStation k (cacheMap { st with refreshes := [] } now))))

/-- ARRIVAL_ADMIT, where the arbiter of the bank picks the station: the head of the station's output queue to the bank
leaves it and counts in STN_ADMIT. With P = 0 and M = 0, P is set and the arrival joins its engine with the GT of the grant;
with P = 0 and M = 1, P is set and nothing is routed; with P = 1 and an arrival in flight, an arrival without payload only
raises the merge count; with P = 1 under M it counts as merged while held. Nothing else changes, but for performance
counters, their flags and the log queue in the last three cases. (02_event_model.md R53; 02_event_model.md R24; 02_event_model.md R55; 05_routing.md R157) -/
def Obligations.AdmissionSetsHoldsOrMerges : Prop :=
  ∀ (s : State) (q : Fin 16) (k : Fin 8) (i : Item) (a : EvaAttr) (rest : List (Item × EvaAttr)),
    s.blk.pendPick q = some k.val → (s.blk.station k).out q = (i, a) :: rest → i.kind ≠ .reentry →
    let st := s.blk.station k
    let p := s.blk.pendOf i.pevent
    let b := (s.blk.setStation k { st with outq := st.outq.set [] q rest }).cnt48 (pgSTN k) 0x058 0x05C
    (p.p = false → p.m = false →
      Makes s (.arrivalAdmit q k)
        (((b.setPend i.pevent { p with p := true, fl := some { payl := i.pay.isSome, gt := s.blk.gt, attr := some a } }).toEngine
          { ev := i.pevent, attr := a, src := i.src, tag24 := i.tag, pay := i.pay, plen := i.plen, trunc := i.trunc,
            gt := s.blk.gt }).granted (.pendBank q) k)) ∧
    (p.p = false → p.m = true → i.pay = none →
      Gives s (.arrivalAdmit q k) (Block.Notes [pgPMU, pgRM] ((b.setPend i.pevent { p with p := true }).granted (.pendBank q) k))) ∧
    (∀ f, p.p = true → p.fl = some f → (f.scan && p.m) = false → i.pay = none →
      Gives s (.arrivalAdmit q k)
        (Block.Notes [pgPMU, pgRM]
          ((b.setPend i.pevent { p with fl := some { f with merge := satAdd f.merge 1 } }).granted (.pendBank q) k))) ∧
    (p.p = true → p.held = true → i.pay = none →
      Gives s (.arrivalAdmit q k) (Block.Notes [pgPMU, pgRM] ((b.cnt (pgRE q) 0x070).granted (.pendBank q) k)))

/-- ROUTE_ARRIVAL where the arbiter of the class's bank picks the engine, for an arrival without payload and with an ACTIVE
owner that the engine can act on, its multicast queue empty, whose class names no ring: the arrival leaves the input queue
and counts as a class read. A discard class (KIND 0) places it: P clears. KIND 1 queues one insert to the target's bank, and
the arrival stays in flight until it is granted. KIND 4 without PIN puts its frame at the end of the VC0 lane of the port
that its INR entry names, with the time it waits from. Besides the ledger's slots, only performance counters, their flags
and the log queue can change. (05_routing.md R152; 05_routing.md R153; 05_routing.md R156; 02_event_model.md R50) -/
def Obligations.RoutingFollowsTheClass : Prop :=
  ∀ (s : State) (n : Fin 16) (a : Arrival) (rest : List Arrival) (f : Flight), s.blk.nextArrival n = some a →
    s.blk.classPick (a.attr.cls.toNat % 16) = some n.val → f.frees = [] → (s.blk.engine n).mcq = [] → (s.blk.engine n).inq = a :: rest → a.recOnly = false → a.pay = none →
    s.blk.badClass a.attr.cls = false → s.blk.ownerActive a.attr.owner = true → (s.blk.pendOf a.ev).fl = some f →
    let g := s.blk.engine n
    let p := s.blk.pendOf a.ev
    let r := s.blk.rte a.attr.cls
    let left := s.blk.setEngine n { g with inq := rest }
    r.ringValid = false →
    (r.kind = 0 →
      Gives s (.routeArrival n) (Block.Notes [pgPMU, pgRM]
        ((((left.setPend a.ev { p with p := false, fl := none }).owe n 2).cnt48 (pgRE n) 0x068 0x06C).granted
          (.classBank (a.attr.cls.toNat % 16)) n))) ∧
    (r.kind = 1 →
      Gives s (.routeArrival n) (Block.Notes [pgPMU, pgRM]
        ((((left.setPend a.ev { p with fl := some { f with left := 1 } }).enqueueIns n
          (insertOf a r r.target none)).cnt48 (pgRE n) 0x068 0x06C).granted (.classBank (a.attr.cls.toNat % 16)) n))) ∧
    (∀ pt, r.kind = 4 → r.pin = false → s.blk.outPort r.inst = .inl pt →
      let l := g.lane pt.toNat
      let x := { s.blk.frameOf a r with since := s.blk.clk.dclk }
      Gives s (.routeArrival n) (Block.Notes [pgPMU, pgRM]
        (((((left.setPend a.ev { p with fl := some { f with left := 0 } }).setEngine n
          { g with inq := rest, lanes := g.lanes.set {} pt.toNat { l with vc0 := l.vc0 ++ [x] } }).owe n 3).cnt48
          (pgRE n) 0x068 0x06C).granted (.classBank (a.attr.cls.toNat % 16)) n)))

/-- MCS_SET_READ_DONE, for the set at the head of an engine's multicast queue whose lines that were asked for are issued and
hold their trackers, with no other item in the queue and no read waiting for a tracker. Where they are the last lines that
COUNT needs, memory content with members, all of whose banks have room for all of them, gives each member its insert in
member order, with the first of them telling the record; the item leaves the queue, and the arrival waits for as many grants
as there are members. A read error places the arrival without an insert and lets its record go. Nothing else changes. (05_routing.md R154; 04_the_last.md R122) -/
def Obligations.MulticastReadIssuesItsMembers : Prop :=
  ∀ (s : State) (n : Fin 16) (m : McItem) (pa : BitVec 64) (dev sh : Bool) (f : Flight),
    (s.blk.engine n).mcq = [m] → m.phase = some (.issued pa dev sh) → m.members = none → m.rte.kind = 2 →
    (s.blk.pendOf m.arr.ev).fl = some f → f.frees = [] →
    s.blk.xl.trkWait = [] → s.blk.xl.orphans = [] →
    let b := { s.blk with otherFills := s.blk.otherFills - m.lines }
    let p := s.blk.pendOf m.arr.ev
    (∀ (bytes : List Byte) (c : CtxNo) (cs : List CtxNo), 0 < m.got → m.need ≤ m.got + m.lines → setMembers bytes = c :: cs → leNat (bytes.take 1) % 128 ≤ 64 →
      (∀ d ∈ c :: cs, ((s.blk.engine n).ins (ctxBank d)).length + cs.length < 16) →
      Makes s (.mcsSetReadDone n (.ok bytes))
        (cs.foldl (fun b d => b.enqueueIns n (insertOf m.arr m.rte d none))
          (((b.setPend m.arr.ev { p with fl := some { f with left := cs.length + 1 } }).setEngine n
            { b.engine n with mcq := [] }).enqueueIns n (insertOf m.arr m.rte c m.recTok)))) ∧
    (m.recTok = none →
      Makes s (.mcsSetReadDone n .err)
        ((b.setPend m.arr.ev { p with p := false, fl := none }).setEngine n { b.engine n with mcq := [] }))

/-- RANK_INSERT of the insert at the head of requester 16's intake, where the arbiter of the bank picks it, for a resident
context of an ACTIVE owner that is in no handoff and no LOAD, an entry of class H or G without a guard: the head leaves the
queue. An entry with the same event and BANKED keeps its place and takes the counts; otherwise, with an empty spill map and
fewer than 16 entries, the entry stands behind every entry that is at least as urgent and before the others. The context is
to be re-evaluated. Besides, only performance counters, their flags and the log queue can change. (02_event_model.md R64; 02_event_model.md R66; 02_event_model.md R57; 05_routing.md R160) -/
def Obligations.InsertsRankInTheShortlist : Prop :=
  ∀ (s : State) (q : Fin 16) (i : Ins) (rest : List BankOp) (x : Ctx), s.blk.bankPick q = some 16 → (s.blk.bank q).in16 = .ins i :: rest →
    i.flight = none → i.recTok = none → i.guard = none → i.old = [] → i.report = false → i.entry.cls ≠ 2 → s.blk.rec? i.ctx = some x → x.moving = false →
    s.blk.awaited i.ctx = false → s.blk.ownerActive x.owner = true →
    let b := (s.blk.setBank q { s.blk.bank q with in16 := rest }).granted (.ctxBank q) 16
    (∀ pre e post, x.shortlist = pre ++ e :: post → sameKey e i.entry = true → (∀ f ∈ pre, sameKey f i.entry = false) →
      Gives s (.rankInsert q 16) (Block.Notes [pgPMU, pgRM]
        (b.setRec i.ctx { x with shortlist := pre ++ e.mergedWith i.entry :: post, dirty := true }))) ∧
    (∀ pre post, x.shortlist = pre ++ post → x.spillMap = 0 → x.shortlist.length < 16 →
      (∀ f ∈ x.shortlist, sameKey f i.entry = false) → (∀ f ∈ pre, f.prio.toNat ≤ i.entry.prio.toNat) →
      (∀ f, post.head? = some f → i.entry.prio.toNat < f.prio.toNat) →
      Gives s (.rankInsert q 16) (Block.Notes [pgPMU, pgRM]
        (b.setRec i.ctx { x with shortlist := pre ++ i.entry :: post, dirty := true })))

/-- CTXT_ENTRY_READ for the only push of its bank, whose entry read is issued, for a context that is not resident, not
leaving and in no LOAD, with no read waiting for a tracker. A read error drops the insert: RE_CTX_INVALID counts, RE_LASTERR
takes the context with cause 5, and the flag is raised for each; VALID = 0 drops it with cause 1. A valid entry of an ACTIVE
owner, for an insert of class H or G that wakes nobody and has no guard, while an earlier write of the spill area is not
accepted, leaves the push queued with the spill area of the entry. The tracker comes back, and nothing else changes. (05_routing.md R148; 05_routing.md R149; 05_routing.md R163; 02_event_model.md R66) -/
def Obligations.AbsentContextsReadTheirEntry : Prop :=
  ∀ (s : State) (c : CtxNo) (x : Spill) (pa : BitVec 64) (dev sh : Bool), (s.blk.bank (ctxBank c)).spills = [x] → x.ctx = c →
    x.ph = .entryRead (.issued pa dev sh) → s.blk.rec? c = none → s.blk.leave.find? c.toNat = none → s.blk.loads.find? c.toNat = none → s.blk.xl.trkWait = [] → s.blk.xl.orphans = [] →
    let b := { s.blk with otherFills := s.blk.otherFills - 1 }
    let gone := b.setBank (ctxBank c) { b.bank (ctxBank c) with spills := [] }
    Makes s (.ctxtEntryRead c .err) (gone.entryFault c) ∧
    (∀ bytes, (tabEntOf bytes).valid = false → Makes s (.ctxtEntryRead c (.ok bytes)) (gone.ctxInvalid c)) ∧
    (∀ bytes i, x.ins = some i → i.guard = none → i.old = [] → i.wakes = false → x.entry.cls ≠ 2 → (tabEntOf bytes).valid = true →
      s.blk.ownerActive (tabEntOf bytes).owner = true → s.blk.ctxWrites c false = true →
      let t := tabEntOf bytes
      Makes s (.ctxtEntryRead c (.ok bytes)) (b.setBank (ctxBank c) { b.bank (ctxBank c) with
        spills := [{ x with known := some (t.seg, t.page, t.owner), ph := .queued }] }))

/-- SPILL_PUSH for the only push of its bank, whose descriptor read is issued, for a context that is not leaving and in no
LOAD, with no read waiting for a tracker. With HEAD h and COUNT n below 15 in the descriptor, a translation of the bucket at
once, and a writer's port that is free and has tokens, the entry's 16 bytes are written to slot (h + n) mod 15 of the bucket
and then the descriptor with COUNT n + 1, as spill writes of writer c[1:0]; the push then waits for their acceptance. A full
bucket drops the entry: RE_SPILL_DROP counts, the flag is raised, and RE_LASTERR takes cause 2 for a context that is not
resident. In the first case, besides, performance counters, their flags, the log queue and, for a page of a VIF, the dirty
log can change. (02_event_model.md R69; 02_event_model.md R70; 02_event_model.md R71; 05_routing.md R163) -/
def Obligations.PushesWriteTheBucket : Prop :=
  ∀ (s : State) (c : CtxNo) (x : Spill) (ph : BitVec 64) (dv sh : Bool) (bytes : List Byte) (h n : Nat) (seg : BitVec 6)
    (page : BitVec 36) (o : OwnerNo), (s.blk.bank (ctxBank c)).spills = [x] → x.ctx = c → x.ph = .descRead (.issued ph dv sh) →
    x.front = false → x.known = some (seg, page, o) → descOf (leBits 128 (bytes.take 16)) = some (h, n) →
    s.blk.leave.find? c.toNat = none → s.blk.loads.find? c.toNat = none → s.blk.xl.trkWait = [] → s.blk.xl.orphans = [] →
    let b := { s.blk with otherFills := s.blk.otherFills - 1 }
    let w := c.toNat % 4
    let off := bucketOff page x.entry.prio
    let slot := (h + n) % 15
    (n < 15 → x.tag.owner = 0 → ∀ b' pa dev,
      xlate b { seg, off := off + BitVec.ofNat 64 (16 + 16 * slot), op := opSpillW, obj := c, cont := .wb w } = (b', .ok pa dev) →
      (b'.writer w).ready = [] → (b'.writer w).recs = [] → (b'.writer w).idxWait = [] → 256 ≤ (b'.writer w).tokens →
      let at_ (p : Nat) (d : List Byte) : MemWrite :=
        { kind := .spill c, pa := (pa &&& ~~~0xFFF#64) + BitVec.ofNat 64 p, bytes := d, dev, tag := x.tag }
      Gives s (.spillPush c (.ok bytes)) fun r =>
        (r.writer w).out = (b'.writer w).out ++
          [at_ (inPage off + 16 + 16 * slot) (leBytes 16 (entryBits x.entry).toNat), at_ (inPage off) (descBytes h (n + 1))] ∧
        (r.bank (ctxBank c)).spills = [{ x with ph := .written 2 }] ∧
        Block.Notes [pgPMU, pgRM] { b' with wr := r.wr, cb := r.cb, ages := r.ages } r) ∧
    (n = 15 → s.blk.rec? c = none →
      Makes s (.spillPush c (.ok bytes))
        ((((b.setBank (ctxBank c) { b.bank (ctxBank c) with spills := [] }).cnt (pgRE (ctxBank c)) 0x074).flag
          (pgRE (ctxBank c)) 1).reErr c 2))

/-- REFILL_DONE with the one bucket its refill reads, for a context whose spill map names only that bucket, with no push of
it and no read waiting for a tracker. A bucket whose COUNT is at most 4, none of whose entries has the key of another or of
an entry of a shortlist of fewer than 4, gives all of them, from HEAD on, to the end of the shortlist, and its spill map bit
clears. An unreadable bucket clears the bit and sets SPILL_BAD. Either way the refill ends and the context is to be
re-evaluated; the stack, the seat of the context and all seats stay, and in the second case nothing else changes. (02_event_model.md R66; 02_event_model.md R69; 02_event_model.md R70) -/
def Obligations.RefillsMoveEntriesBack : Prop :=
  ∀ (s : State) (c : CtxNo) (x : Ctx) (f : Refill) (pa : BitVec 64) (dev sh : Bool), s.blk.rec? c = some x → x.refill = some f →
    f.phase = .issued pa dev sh → f.descs = [] → x.spillMap = (1 : BitVec 64) <<< f.prio.toNat →
    (s.blk.bank (ctxBank c)).spills = [] → s.blk.xl.trkWait = [] → s.blk.xl.orphans = [] → x.shortlist.length < 4 →
    let b := { s.blk with otherFills := s.blk.otherFills - 4 }
    (∀ bytes h n, descOf (leBits 128 (bytes.take 16)) = some (h, n) → 0 < n → n ≤ 4 →
      (x.shortlist ++ bucketEntries bytes h n).Pairwise (fun e e' => sameKey e e' = false) →
      Gives s (.refillDone c [⟨f.prio, .ok bytes⟩]) fun r => ∃ y, r.rec? c = some y ∧
        y.shortlist = x.shortlist ++ bucketEntries bytes h n ∧ y.spillMap = 0 ∧ y.refill = none ∧ y.refillOn = false ∧ y.dirty = true ∧
        y.stack = x.stack ∧ y.seat = x.seat ∧ r.seat = s.blk.seat) ∧
    Makes s (.refillDone c [⟨f.prio, .err⟩])
      (b.setRec c { x with spillMap := 0, flags := setBit x.flags 5 true, refill := none, refillOn := false, dirty := true })

/-- A mask write that reaches its bank while the re-entry queue of the event's station holds 16, or during the pause of a
switch, waits at the head of the register port. With no objection of Table 12-3 and in immediate mode: MASK_SET sets M of
the event RE_EVSEL names; MASK_CLEAR clears it, and a held arrival starts looking again and joins the re-entry queue of its
station; OP 1 of RE_PIN pins a resident context of the partition with fewer than 2,304 pinned, OP 2 unpins it, and
RE_PIN_RES takes result 0, or 1 when the context to be pinned is not resident; FILT_CLR empties the wake filter and stores
PRIO. The page is locked again, the port answers OK, and nothing else changes. (02_event_model.md R55; 02_event_model.md R56; 05_routing.md R165; 05_routing.md R162; 03_ingress.md R443; 04_the_last.md R129; 05_routing.md RE_EVSTAT; 12_registers_and_turnstile.md Table 12-3) -/
def Obligations.MaskAndPinRegisters : Prop :=
  (∀ (s : State) (n : Fin 16) (w : RegAcc), s.blk.writes (pgRE n) 0x054 { withOp w 4 4 with als := .set } = true →
    let e : Event := s.blk.regFld (pgRE n) 0x050 19 0
    Puts s (.maskSet n w)
      ((s.blk.wrote (pgRE n) 0x054 { withOp w 4 4 with als := .set }).setPend e { s.blk.pendOf e with m := true })) ∧
  (∀ (s : State) (n : Fin 16) (w : RegAcc), s.blk.portFree = true → s.blk.portMode = .serve → s.blk.admits true w.rid (pgRE n) 0x15 true = true →
    (s.blk.hdr (pgRE n)).enable = true → (s.blk.hdr (pgRE n)).apply = false → s.blk.fab.posted.find? (pgRE n) = none →
    s.blk.evselOk (pgRE n) = true →
    s.blk.last.paused = true ∨ 16 ≤ (s.blk.station (evBank (s.blk.regFld (pgRE n) 0x050 19 0) % 8)).reentry.length →
    let waits (al : Alias) : Block :=
      { s.blk with fab := { s.blk.fab with q := [(regAccess (pgRE n) 0x054 al w.rid (withOp w 4 4).data, true)]
                                           ask := .mask (s.blk.regFld (pgRE n) 0x050 19 0) } }
    Makes s (.maskSet n w) (waits .set) ∧ Makes s (.maskClear n w) (waits .clear)) ∧
  (∀ (s : State) (n : Fin 16) (w : RegAcc), s.blk.writes (pgRE n) 0x054 { withOp w 4 4 with als := .clear } = true →
    let e : Event := s.blk.regFld (pgRE n) 0x050 19 0
    let p := s.blk.pendOf e
    let k := evBank e % 8
    let src : Source := if e.toNat < 0x800 then .line (e.setWidth 11) else .self e
    let b := s.blk.wrote (pgRE n) 0x054 { withOp w 4 4 with als := .clear }
    (¬ (p.m = true ∧ p.held = true) → Puts s (.maskClear n w) (b.setPend e { p with m := false })) ∧
    (p.m = true → p.held = true →
      Puts s (.maskClear n w)
        ((b.setPend e { p with m := false, fl := some { p.fl.getD {} with looking := true, scan := false } }).setStation k
          { s.blk.station k with reentry := (s.blk.station k).reentry ++ [{ kind := .reentry, src, pevent := e }] }))) ∧
  (∀ (s : State) (n : Fin 16) (w : RegAcc) (x : Ctx), w.als = .base →
    let c : CtxNo := fld w.data 15 0
    let b (op : Word) : Block := s.blk.wrote (pgRE n) 0x058 (withOp w 0x30000 op)
    let res (b : Block) (r : Word) : Block := b.setReg (pgRE n) 0x05C (r ||| c.setWidth 32 <<< 16)
    (s.blk.writes (pgRE n) 0x058 (withOp w 0x30000 0x10000) = true → ctxBank c = n →
      (s.blk.rec? c = some x → s.blk.pinnedIn n < 2304 → Puts s (.rePin n w) (res ((b 0x10000).setRec c { x with pinned := true }) 0)) ∧
      (s.blk.rec? c = none → Puts s (.rePin n w) (res (b 0x10000) 1))) ∧
    (s.blk.writes (pgRE n) 0x058 (withOp w 0x30000 0x20000) = true → ctxBank c = n →
      (s.blk.rec? c = some x → Puts s (.reUnpin n w) (res ((b 0x20000).setRec c { x with pinned := false }) 0)) ∧
      (s.blk.rec? c = none → Puts s (.reUnpin n w) (res (b 0x20000) 0)))) ∧
  (∀ (s : State) (n : Fin 16) (w : RegAcc), w.als = .base → s.blk.writes (pgRE n) 0x04C (withOp w 0x100 0x100) = true →
    let b := (s.blk.wrote (pgRE n) 0x04C (withOp w 0x100 0x100)).setReg (pgRE n) 0x04C (blend 0x3F (s.blk.reg (pgRE n) 0x04C) w.data)
    Puts s (.filtClr n w) (b.setBank n { s.blk.bank n with filter := .empty }))

/-- REEVALUATE of a changed current context in no handoff, whose seat has no request and whose thread's tracker is free:
with nothing outstanding and a qualifying first entry, NNUM advances, the notification is outstanding and the seat requests
NOTIFY with that number, the line of the entry's class and its priority; with a notification outstanding and no qualifying
entry, it requests WITHDRAW. Its request joins the queue of its bank. RENOTIFY_CHECK, where the check is picked at once: if
ACK_TIMEOUT us had passed since the last message when the current slot began, with the notification outstanding and no
request, the seat requests NOTIFY again with the same number. Nothing else changes. (02_event_model.md R63; 07_delivery_and_core_slices.md R209; 07_delivery_and_core_slices.md R211; 02_event_model.md R77) -/
def Obligations.ReevaluationAsksForTheLine : Prop :=
  (∀ (s : State) (c : CtxNo) (x : Ctx) (i : Nat), s.blk.dpOn = true → s.blk.rec? c = some x → x.dirty = true → x.moving = false →
    x.seat = some i → s.blk.linkUp (i / 2) = true → (s.blk.seatOf i).req = none → (s.blk.thread (i / 2)).trk = false →
    let z := s.blk.seatOf i
    let b := s.blk.setRec c { x with dirty := false }
    (∀ e rest, x.shortlist = e :: rest → qualifies x e.prio = true → z.out = false →
      Makes s (.reevaluate c) ((b.setSeat i { z with nnum := z.nnum + 1, out := true }).ask i
        (.notify (s.blk.lineOf i e.cls) e.prio false, z.nnum + 1))) ∧
    ((∀ e rest, x.shortlist = e :: rest → qualifies x e.prio = false) → z.out = true →
      Makes s (.reevaluate c) (b.ask i (.withdraw, z.nnum)))) ∧
  (∀ (s : State) (c : CtxNo) (x : Ctx) (i : Nat) (t0 : Gt) (e : Entry) (rest : List Entry), s.blk.dpOn = true →
    s.blk.rec? c = some x → x.seat = some i → s.blk.linkUp (i / 2) = true → x.lastSent = some t0 → x.ackTimeout ≠ 0 →
    0 < s.blk.car.cur.toNat → t0.toNat + 1000 * x.ackTimeout.toNat ≤ s.blk.gt.toNat / s.blk.car.cur.toNat * s.blk.car.cur.toNat →
    (s.blk.seatOf i).out = true → (s.blk.seatOf i).req = none → x.shortlist = e :: rest → qualifies x e.prio = true →
    (s.blk.bank (ctxBank c)).in16 = [] → (s.blk.bank (ctxBank c)).car17 = [] →
    (s.blk.setBank (ctxBank c) { s.blk.bank (ctxBank c) with car17 := [.check c] }).bankPick (ctxBank c) = some 17 →
    let b := (s.blk.granted (.ctxBank (ctxBank c)) 17).ask i (.notify (s.blk.lineOf i e.cls) e.prio true, (s.blk.seatOf i).nnum)
    Gives s (.renotifyCheck c) fun r => r = { b with cb := r.cb } ∧ ∀ q, r.bank q = b.bank q)

/-- DELIVERY_GRANT for a thread, where the arbiter of its delivery port picks the bank that presents a request of one of its
seats. The request leaves the bank's queue. A NOTIFY for a resident context goes to the end of the notification channel with
its line, number and priority; the request ends, the tracker is taken with the owner's tag, the context notes the GT, and
CSG_NOTIFY counts, with CSG_RENOTIFY for a repeated one; performance counters, their flags and the log queue can change. A
WITHDRAW goes the same way, the notification is no longer outstanding, and CSG_WITHDRAW counts. Nothing else changes. (07_delivery_and_core_slices.md R207; 07_delivery_and_core_slices.md R209; 05_routing.md R166) -/
def Obligations.DeliveryTakesTheTracker : Prop :=
  ∀ (s : State) (t : ThreadNo) (gs : Bool) (n : Nat), s.blk.dportPick (t.toNat / 4 % 4) = some n →
    let i := 2 * t.toNat + (if gs then 1 else 0)
    s.blk.noteHead n (t.toNat / 4 % 4) = some i →
    let z := s.blk.seatOf i
    let h := s.blk.thread t.toNat
    let pg := pgCSG (csgOf t.toNat)
    let b : Block := { s.blk with cb := s.blk.cb.remap {} fun _ k => { k with notes := k.notes.filter (· != i) } }
    (∀ line prio again nnum c x, z.req = some (.notify line prio again, nnum) → z.ctx = some c → s.blk.rec? c = some x →
      let m : SliceMsg := .notify gs line nnum prio
      let b := ((b.setSeat i { z with req := none }).setThread t.toNat
        { h with trk := true, tag := s.blk.tagOf x.owner, sent := some m, notifCh := h.notifCh ++ [m] }).setRec c
          { x with lastSent := some s.blk.gt, lastNote := if again then x.lastNote else some s.blk.gt }
      Gives s (.deliveryGrant t) (Block.Notes [pgPMU, pgRM]
        ((if again then (b.cnt pg 0x060).cnt pg 0x068 else b.cnt pg 0x060).granted (.dport (t.toNat / 4 % 4)) n))) ∧
    (∀ nnum, z.req = some (.withdraw, nnum) →
      let m : SliceMsg := .withdraw gs nnum
      Makes s (.deliveryGrant t) ((((b.setSeat i { z with req := none, out := false }).setThread t.toNat
        { h with trk := true, sent := some m, notifCh := h.notifCh ++ [m] }).cnt pg 0x064).granted (.dport (t.toNat / 4 % 4)) n))

/-- NOTIFY at the head of a thread's channel: a number that COVERED is at or up to 7 ahead of is dropped, counts in
CSG_NOTIFY_DROP and is confirmed as dropped; any other asserts the line named for the seat with its number, after 8 ns
de-asserted where it named the same line before, and is confirmed. WITHDRAW at the head: the seat's line is de-asserted if
it was asserted by the NOTIFY of that number, COVERED takes a number 1 to 8 ahead, and the message is confirmed. The
confirmations join the end of the upstream channel. ACK_RESPONSE: the oldest response, an ACK's, leaves the channel, the
core has its data, COVERED moves to its number under the same rule, and a line whose number COVERED then covers is
de-asserted. Nothing else changes where nothing else of the thread is on its way. (07_delivery_and_core_slices.md R209; 07_delivery_and_core_slices.md R210; 07_delivery_and_core_slices.md R211) -/
def Obligations.SlicesAssertAndConfirm : Prop :=
  (∀ (s : State) (t : ThreadNo) (gs : Bool) (line : Line) (n : BitVec 4) (prio : Prio) (rest : List SliceMsg),
    (s.blk.thread t.toNat).notifCh = .notify gs line n prio :: rest →
    let i := seatIx t.toNat gs
    let z := s.blk.seatOf i
    let b := s.blk.setThread t.toNat { s.blk.thread t.toNat with notifCh := rest }
    ((z.covered - n).toNat ≤ 7 →
      Makes s (.notify t) ((b.cnt (pgCSG (csgOf t.toNat)) 0x074).confirms t.toNat gs n true)) ∧
    (7 < (z.covered - n).toNat →
      Makes s (.notify t) ((b.setSeat i { z with
        line := some (line, n), low := if z.line.map Prod.fst = some line then s.blk.clk.ns + 8 else 0 }).confirms t.toNat gs n false))) ∧
  (∀ (s : State) (t : ThreadNo) (gs : Bool) (n : BitVec 4) (rest : List SliceMsg),
    (s.blk.thread t.toNat).notifCh = .withdraw gs n :: rest →
    let i := seatIx t.toNat gs
    let z := s.blk.seatOf i
    let b := s.blk.setThread t.toNat { s.blk.thread t.toNat with notifCh := rest }
    let line := if z.line.map Prod.snd = some n then none else z.line
    Makes s (.withdraw t)
      ((b.setSeat i { z with line, covered := if 1 ≤ (n - z.covered).toNat ∧ (n - z.covered).toNat ≤ 8 then n else z.covered }).confirms
        t.toNat gs n false)) ∧
  (∀ (s : State) (t : ThreadNo) (r : Resp) (gs : Bool) (n : BitVec 4),
    let h := s.blk.thread t.toNat
    h.respCh = [r] → r.ack = some (gs, some n) → h.upq = [] → h.held = [] → h.up = [] → h.ops = [] → h.asked = none → h.wide = none →
    let i := seatIx t.toNat gs
    let z := s.blk.seatOf i
    let cov := moveCovered z.covered n
    let line := match z.line with
      | some (l, m) => if (cov - m).toNat ≤ 7 then none else some (l, m)
      | none => none
    Makes s (.ackResponse t)
      ((s.blk.setThread t.toNat { h with
        respCh := [], acks := h.acks.erase gs, coreRsp := some { err := r.err, data := r.data.setWidth 64 } }).setSeat i
          { z with covered := cov, line }))

/-- CONFIRM, with no request at the thread's seats, nothing else of the thread on its way and no handoff that waits for it:
the confirmation leaves, the tracker is free, LINES shows from then on the line of a NOTIFY confirmed and not dropped, and
the contexts of both seats are to be re-evaluated; nothing else changes. SLICE_LINK_UP of a built slice while the data plane
runs and SLICE_LINK_DOWN: the slice joins or leaves the links that are up; its four threads have empty channels and queues
and a free tracker; its eight seats keep their contexts, with NNUM and COVERED 0, no line and nothing outstanding; on the
way up their contexts are to be re-evaluated; every other seat, thread and context stays as it was, on the way down every
context. (07_delivery_and_core_slices.md R206; 07_delivery_and_core_slices.md R207; 07_delivery_and_core_slices.md R209) -/
def Obligations.ConfirmsAndLinksRestartDelivery : Prop :=
  (∀ (s : State) (t : ThreadNo) (gs d : Bool) (n : BitVec 4),
    let h := s.blk.thread t.toNat
    let z := s.blk.seatOf (seatIx t.toNat gs)
    h.up = [.confirm gs n d] → h.upq = [] → h.held = [] → h.ops = [] → h.asked = none → (∀ p ∈ s.blk.csg.cells, p.2.old ≠ some (seatIx t.toNat gs)) →
    (s.blk.seatOf (2 * t.toNat)).req = none → (s.blk.seatOf (2 * t.toNat + 1)).req = none →
    let conf := match h.sent with
      | some (.notify _ line m _) => if d then none else some (line, m)
      | some (.withdraw _ m) => z.conf.filter fun l => l.2 != m
      | none => z.conf
    Makes s (.confirm t) ((((s.blk.setSeat (seatIx t.toNat gs) { z with conf }).setThread t.toNat
      { h with up := [], trk := false, tag := {}, sent := none }).dirtySeat (2 * t.toNat)).dirtySeat (2 * t.toNat + 1))) ∧
  (∀ (s : State) (sl : BitVec 9), s.blk.dpOn = true → sl.toNat < s.blk.prm.slices → sl.toNat ∉ s.blk.up →
    Gives s (.sliceLinkUp sl) fun b =>
      sl.toNat ∈ b.up ∧ (∀ x ∈ s.blk.up, x ∈ b.up) ∧
      (∀ t : Fin 2048, b.thread t = if t.val / 4 = sl.toNat then { coreRsp := (s.blk.thread t).coreRsp } else s.blk.thread t) ∧
      (∀ i : Fin 4096, b.seatOf i = if i.val / 8 = sl.toNat then { ctx := (s.blk.seatOf i).ctx } else s.blk.seatOf i) ∧
      (∀ j : Fin 8, ∀ c : CtxNo, (s.blk.seatOf (8 * sl.toNat + j)).ctx = some c →
        b.rec? c = (s.blk.rec? c).map ({ · with dirty := true })) ∧
      (∀ c : CtxNo, (∀ j : Fin 8, (s.blk.seatOf (8 * sl.toNat + j)).ctx ≠ some c) → b.rec? c = s.blk.rec? c)) ∧
  (∀ (s : State) (sl : BitVec 9), sl.toNat ∈ s.blk.up →
    Gives s (.sliceLinkDown sl) fun b =>
      b.up = s.blk.up.erase sl.toNat ∧ b.ctx = s.blk.ctx ∧
      (∀ t : Fin 2048, b.thread t = if t.val / 4 = sl.toNat then { coreRsp := (s.blk.thread t).coreRsp } else s.blk.thread t) ∧
      (∀ i : Fin 4096, b.seatOf i = if i.val / 8 = sl.toNat then { ctx := (s.blk.seatOf i).ctx } else s.blk.seatOf i))

/-- ACK through a window whose context is resident and not seated elsewhere, with no re-notification waiting. A qualifying
first entry (of class U, where the window is the user's), with fewer than 8 activations and no refill to start and no merge
record to write, leaves the shortlist for the top of the stack, RUNP takes its priority, A of its event is set unless it is
banked, the notification is no longer outstanding, CSG_ACK counts, the context is to be re-evaluated, and the answer is the
value of Table 2-9. With no entry the answer is 0x000F_FFFF, CSG_ACK_EMPTY counts and only the rest of this happens.
ACK_PEEK answers what ACK would and changes nothing. Besides, only the answer, the thread's lane and the ages of requests
change. (02_event_model.md R73; 02_event_model.md R60; 02_event_model.md R67; 07_delivery_and_core_slices.md R217; 07_delivery_and_core_slices.md R221) -/
def Obligations.AckTakesTheBestEntry : Prop :=
  ∀ (s : State) (o : TifOp) (c : CtxNo) (x : Ctx), s.blk.actsOn o c x →
    let i := s.blk.winSeat o.thread.toNat o.win
    let z := s.blk.seatOf i
    let pg := pgCSG (csgOf o.thread.toNat)
    (s.blk.reaches o .ack = true → x.seat = some i → z.req = none →
      (∀ e rest, x.shortlist = e :: rest → qualifies x e.prio = true → (o.win = .user → e.cls = 2) → x.stack.length < 8 →
        (4 ≤ rest.length ∧ x.refillOn = false ∨ x.spillMap = 0) → (e.merge = 0 ∨ e.ringValid = false) →
        let a : Act := { pevent := e.pevent, vevent := e.vevent, prio := e.prio, banked := e.banked }
        let b := s.blk.setRec c { x with shortlist := rest, stack := a :: x.stack, runp := e.prio.setWidth 7, dirty := true }
        let b := if e.banked then b else b.setPend e.pevent { s.blk.pendOf e.pevent with a := true }
        Gives s (.ack o) fun r =>
          Block.Answers (s.blk.did o ((b.setSeat i { z with out := false }).cnt pg 0x06C)) r ∧ r.answered o .ack (ackValue e)) ∧
      (x.shortlist = [] →
        Gives s (.ack o) fun r =>
          Block.Answers (s.blk.did o (((s.blk.setRec c { x with dirty := true }).setSeat i { z with out := false }).cnt pg 0x070)) r ∧
            r.answered o .ack 0x000FFFFF)) ∧
    (s.blk.reaches o (.read 0x034) = true →
      (∀ e rest, x.shortlist = e :: rest → qualifies x e.prio = true → (o.win = .user → e.cls = 2) → x.stack.length < 8 →
        Gives s (.ackPeek o) fun r => Block.Answers (s.blk.did o s.blk) r ∧ r.answered o (.read 0x034) (ackValue e)) ∧
      (x.shortlist = [] →
        Gives s (.ackPeek o) fun r => Block.Answers (s.blk.did o s.blk) r ∧ r.answered o (.read 0x034) 0x000FFFFF))

/-- EOI through any window whose context is resident: with a as the topmost activation that is not dropped and its virtual
event in DATA[19:0], split mode marks it dropped and RUNP follows; joined mode removes it, and for an activation of a
message event clears A, for a banked one does not. Another event sets EOI_MISMATCH, no such activation sets EOI_EMPTY. DEACT
removes the topmost activation with the virtual event, dropped or not, with the same effect on A, or sets DEACT_NONE. The
context is to be re-evaluated; besides, only the answer, the thread's lane and the ages of requests change. (02_event_model.md R73; 02_event_model.md R74; 02_event_model.md R76; 02_event_model.md Table 2-8) -/
def Obligations.EoiAndDeactEndActivations : Prop :=
  ∀ (s : State) (o : TifOp) (d : Word) (c : CtxNo) (x : Ctx), s.blk.actsOn o c x →
    let v : Event := fld d 19 0
    let flagged (i : Nat) : Block := s.blk.setRec c { x with flags := setBit x.flags i true, dirty := true }
    let stack (l : List Act) : Block := s.blk.setRec c { x with stack := l, runp := runpOf l, dirty := true }
    (s.blk.reaches o (.eoi d) = true →
      (∀ pre a post, x.stack = pre ++ a :: post → (∀ q ∈ pre, q.dropped = true) → a.dropped = false →
        (a.vevent = v → x.joined = false →
          Gives s (.eoi o d) (Block.Answers (s.blk.did o (stack (pre ++ { a with dropped := true } :: post))))) ∧
        (a.vevent = v → x.joined = true → a.banked = true → Gives s (.eoi o d) (Block.Answers (s.blk.did o (stack (pre ++ post))))) ∧
        (a.vevent = v → x.joined = true → a.banked = false → 0x2000 ≤ a.pevent.toNat →
          Gives s (.eoi o d) (Block.Answers (s.blk.did o ((stack (pre ++ post)).setPend a.pevent { s.blk.pendOf a.pevent with a := false })))) ∧
        (a.vevent ≠ v → Gives s (.eoi o d) (Block.Answers (s.blk.did o (flagged 2))))) ∧
      ((∀ q ∈ x.stack, q.dropped = true) → Gives s (.eoi o d) (Block.Answers (s.blk.did o (flagged 1))))) ∧
    (s.blk.reaches o (.deact d) = true →
      (∀ pre a post, x.stack = pre ++ a :: post → (∀ q ∈ pre, q.vevent ≠ v) → a.vevent = v →
        (a.banked = true → Gives s (.deact o d) (Block.Answers (s.blk.did o (stack (pre ++ post))))) ∧
        (a.banked = false → 0x2000 ≤ a.pevent.toNat →
          Gives s (.deact o d) (Block.Answers (s.blk.did o ((stack (pre ++ post)).setPend a.pevent { s.blk.pendOf a.pevent with a := false }))))) ∧
      ((∀ q ∈ x.stack, q.vevent ≠ v) → Gives s (.deact o d) (Block.Answers (s.blk.did o (flagged 3)))))

/-- Through the host or guest window, whose context is resident. GATE takes DATA[6:0], at most 64, and CTL takes PGRAN,
JOINED and ACK_TIMEOUT, both with re-evaluation; STATUS_CLR clears the flags named; UTAG takes the tag and discards the
class-U entries, which count, with re-evaluation, when no refill is to start; TDL_LO applies the held high half and arms the
timer; TIMER takes TPRIO, TCLASS and TARM; the wheel holds an armed timer where its deadline says, and no other. Besides,
only the answer, the thread's lane and the ages of requests change. IPI_SEND through the host window whose seat holds a
resident context asks for the insert of banked event 0x0_0800 + CLASS at PRIO, class H, into context CTX. Through the guest
window with a context of a VIF, CTX is an index: below the VIF's context count it names CTX_BASE + index, with class G and
the VIF as the owner the target must have; otherwise the send is dropped, counts in CSG_IPI_BAD and sets IPI_BAD. A send
counts in CSG_IPI. Besides, only the answer, the thread's lane and the ages of requests change. (07_delivery_and_core_slices.md R218; 05_routing.md R159; 06_carousel_and_time.md R195; 06_carousel_and_time.md R191; 07_delivery_and_core_slices.md R219; 07_delivery_and_core_slices.md R220; 09_virtualization.md R273) -/
def Obligations.ThreadRegistersOfTheContext : Prop :=
  (∀ (s : State) (o : TifOp) (d : Word) (c : CtxNo) (x : Ctx), o.win ≠ .user → s.blk.actsOn o c x →
    (s.blk.reaches o (.gate d) = true → Gives s (.gateWrite o d) (Block.Answers (s.blk.did o (s.blk.setRec c { x with gate := if 64 < (fld d 6 0).toNat then 64 else fld d 6 0, dirty := true })))) ∧
    (s.blk.reaches o (.ctl d) = true → Gives s (.ctlWrite o d) (Block.Answers (s.blk.did o (s.blk.setRec c { x with pgran := fld d 2 0, joined := bit d 3, ackTimeout := fld d 31 16, dirty := true })))) ∧
    (s.blk.reaches o (.statusClr d) = true → Gives s (.statusClr o d) (Block.Answers (s.blk.did o (s.blk.setRec c { x with flags := x.flags &&& ~~~(fld d 5 0) })))) ∧
    (s.blk.reaches o (.utag d) = true → x.spillMap = 0 →
      let n := x.shortlist.countP (·.cls == 2)
      let b := s.blk.setRec c { x with utag := fld d 15 0, shortlist := x.shortlist.filter (·.cls != 2), dirty := true }
      Gives s (.utagWrite o d) (Block.Answers (s.blk.did o (if n = 0 then b else b.cnt (pgRE (ctxBank c)) 0x084 n)))) ∧
    (s.blk.reaches o (.tdlLo d) = true →
      let tdl : Gt := x.tdlHi ++ (d &&& 0xFFFFFFF8)
      Gives s (.tdlLoWrite o d) (Block.Answers (s.blk.did o (s.blk.setRec c { x with tdl, tarm := true, loc := s.blk.timerLoc tdl })))) ∧
    (s.blk.reaches o (.timer d) = true →
      Gives s (.timerWrite o d) (Block.Answers (s.blk.did o (s.blk.setRec c { x with
        tprio := fld d 5 0, tclass := bit d 8, tarm := bit d 16, loc := if bit d 16 then s.blk.timerLoc x.tdl else .none }))))) ∧
  (∀ (s : State) (o : TifOp) (d : Word) (c : CtxNo) (x : Ctx), s.blk.actsOn o c x → s.blk.reaches o (.ipi d) = true →
    let pg := pgCSG (csgOf o.thread.toNat)
    let e (cls : BitVec 2) : Entry :=
      { pevent := 0x00800 + (fld d 23 16).setWidth 20, vevent := 0x00800 + (fld d 23 16).setWidth 20, prio := fld d 29 24,
        banked := true, cls }
    (o.win = .host → Gives s (.ipiSend o d) (Block.Answers (s.blk.did o ((s.blk.ask16 { ctx := fld d 15 0, entry := e 0 }).cnt pg 0x07C)))) ∧
    (o.win = .guest → x.owner ≠ 0 →
      let v := s.blk.vifOf (x.owner.toNat - 1)
      ((fld d 15 0).toNat < v.ctxCount.toNat →
        Gives s (.ipiSend o d) (Block.Answers (s.blk.did o ((s.blk.ask16 { ctx := v.ctxBase + fld d 15 0, entry := e 1, guard := some x.owner }).cnt pg 0x07C)))) ∧
      (v.ctxCount.toNat ≤ (fld d 15 0).toNat →
        Gives s (.ipiSend o d) (Block.Answers (s.blk.did o ((s.blk.cnt pg 0x080).flag pg 4))))))

/-- CSG_CMD writes with no objection of Table 12-3, immediate, with no command of the page in progress, for the context
CSG_CTX names. SEAT of a resident context that is not current, in no LOAD, MOVE or refill and already pinned, in a free seat
of a built thread that its owner may use: the seat holds the context, which is to be re-evaluated, and its wake filter entry
clears. UNSEAT: the seat is empty, it asks for the withdrawal of an outstanding notification, the context is to be
re-evaluated. MOVE to another free seat: the old seat empties in the same way, the context is in handoff with its timer off
the wheel, and BUSY stays. HANDOFF_END with the old seat's message confirmed and no insert held: the context enters the
target seat and its timer the wheel. An undefined OP gives BADOP. Result 0 raises DONE, another DONE and CMD_ERR. Nothing
else changes. (07_delivery_and_core_slices.md R222; 07_delivery_and_core_slices.md R226; 07_delivery_and_core_slices.md Table 7-5; 05_routing.md R162; 07_delivery_and_core_slices.md R229) -/
def Obligations.SeatCommandsMoveContexts : Prop :=
  (∀ (s : State) (g : Fin 32) (w : RegAcc) (x : Ctx) (gs : Bool), w.als = .base → (s.blk.cmd g).busy = false →
    let c : CtxNo := s.blk.regFld (pgCSG g) 0x040 15 0
    let t := (fld w.data 18 8).toNat
    let j := 2 * t + (if gs then 1 else 0)
    let b (op : Word) : Block := s.blk.wrote (pgCSG g) 0x044 (withOp w 0xF op)
    let ends (b : Block) : Block := (b.setCmd g { busy := false, result := 0, ctx := c }).raise (pgCSG g) 1
    s.blk.rec? c = some x → x.moving = false → x.refill = none → x.refillOn = false → s.blk.loads.find? c.toNat = none →
    s.blk.leave.find? c.toNat = none →
    (s.blk.writes (pgCSG g) 0x044 (withOp w 0xF 3) = true → fld w.data 5 4 = (if gs then 2 else 1) → t < s.blk.threads →
      x.seat = none → x.pinned = true → (gs = false → x.owner = 0) → s.blk.seatTaken j = false →
      Puts s (.ctxSeat g w) (ends ((((b 3).setSeat j { s.blk.seatOf j with ctx := some c }).setRec c
        { x with seat := some j, dirty := true }).unfilter c))) ∧
    (∀ i, x.seat = some i →
      let z := s.blk.seatOf i
      let out (b : Block) : Block :=
        let b := if z.out then b.ask i (.withdraw, z.nnum) else b
        b.setSeat i { b.seatOf i with ctx := none }
      (s.blk.writes (pgCSG g) 0x044 (withOp w 0xF 4) = true →
        Puts s (.ctxUnseat g w) (ends ((out (b 4)).setRec c { x with seat := none, dirty := true }))) ∧
      (s.blk.writes (pgCSG g) 0x044 (withOp w 0xF 5) = true → fld w.data 5 4 = (if gs then 2 else 1) → t < s.blk.threads →
        i ≠ j → (gs = false → x.owner = 0) → s.blk.seatTaken j = false →
        Puts s (.ctxMove g w) (((out (b 5)).setRec c { x with seat := none, moving := true, loc := .none }).setCmd g
          { busy := true, target := some j, old := if z.out then some i else none, ctx := c })))) ∧
  (∀ (s : State) (g : Fin 32) (j : Nat) (x : Ctx), (s.blk.cmd g).busy = true → (s.blk.cmd g).target = some j →
    (s.blk.cmd g).old = none → s.blk.rec? (s.blk.cmd g).ctx = some x → x.owner = 0 → s.blk.hold = [] →
    let c := (s.blk.cmd g).ctx
    Makes s (.handoffEnd g)
      (((((s.blk.setSeat j { s.blk.seatOf j with ctx := some c }).setRec c { x with
        moving := false, seat := some j, dirty := true, loc := if x.tarm then s.blk.timerLoc x.tdl else .none }).unfilter c).setCmd g
          { busy := false, result := 0, ctx := c }).raise (pgCSG g) 1)) ∧
  (∀ (s : State) (g : Fin 32) (w : RegAcc), w.als = .base → (s.blk.cmd g).busy = false →
    let v := withOp w 0xF (undefOp w.data 15 1 5)
    s.blk.writes (pgCSG g) 0x044 v = true →
    Puts s (.csgBadop g w) (((s.blk.wrote (pgCSG g) 0x044 v).setCmd g
      { busy := false, result := 11, ctx := s.blk.regFld (pgCSG g) 0x040 15 0 }).raise (pgCSG g) 3))

/-- LOAD without a seat, with no objection of Table 12-3, for a context that is not resident and busy with nothing, whose
table is on and whose partition has a free slot: BUSY is set; while a write-back of the context is not accepted the read
waits; otherwise, with a translation at once and two shared trackers free, both lines of the entry are read.
CTX_LOAD_COMPLETE: a read error ends the LOAD with FAULT. The answer of the last of the 64 descriptor reads, where the
descriptors are valid and every bucket is empty: an entry of a PMF context with INIT = 0 makes a record with the creation
values, the entry's wake target and spill area and the reserved slot, to be re-evaluated; its wake filter entry clears, its
tracker comes back and the LOAD ends with OK. Nothing else changes where no insert waits for the load, no read for a tracker
and no context is still to be loaded after Intermission. (07_delivery_and_core_slices.md R223; 07_delivery_and_core_slices.md Table 7-5; 02_event_model.md R66; 07_delivery_and_core_slices.md R227) -/
def Obligations.LoadsReadTheEntry : Prop :=
  (∀ (s : State) (g : Fin 32) (w : RegAcc), w.als = .base → (s.blk.cmd g).busy = false →
    s.blk.writes (pgCSG g) 0x044 (withOp w 0xF 1) = true → fld w.data 5 4 = 0 →
    let c : CtxNo := s.blk.regFld (pgCSG g) 0x040 15 0
    s.blk.rec? c = none → s.blk.loads.find? c.toNat = none → s.blk.leave.find? c.toNat = none → s.blk.tableOn c = true →
    (s.blk.freeSlot (ctxBank c)).isSome = true →
    let l : LoadOp := { page := g, seat := none, ph := .start }
    let b := (s.blk.wrote (pgCSG g) 0x044 (withOp w 0xF 1)).setCmd g { busy := true, ctx := c }
    let b : Block := { b with loads := b.loads.insert c.toNat l }
    (s.blk.ctxWrites c true = true → Puts s (.ctxLoad g w) b) ∧
    (s.blk.ctxWrites c true = false → ∀ b' pa dev,
      xlate b { seg := (s.blk.tableAddr c).1, off := (s.blk.tableAddr c).2, op := opCtxR, obj := c, cont := .loadEntry c } =
        (b', .ok pa dev) → sharedTrk b' + 2 ≤ 512 →
      Puts s (.ctxLoad g w) { b' with
        otherFills := b'.otherFills + 2
        loads := b'.loads.insert c.toNat { l with ph := .entry (.issued pa dev true) } })) ∧
  (∀ (s : State) (c : CtxNo) (l : LoadOp), s.blk.loads.find? c.toNat = some l → l.reload = none →
    s.blk.xl.orphans = [] → s.blk.xl.trkWait = [] → s.blk.pwr.saved = [] →
    let ends (b : Block) (r : BitVec 4) (f : BitVec 8) : Block :=
      (({ b with loads := s.blk.loads.erase c.toNat } : Block).setCmd l.page { busy := false, result := r, ctx := c }).raise
        (pgCSG l.page) f
    (∀ pa dev sh descs, l.ph = .entry (.issued pa dev sh) → Makes s (.ctxLoadComplete c .err descs)
        (ends { s.blk with otherFills := s.blk.otherFills - 2 } 8 3)) ∧
    (∀ entry j pa dev sh (descs : List MemResp), l.ph = .descs → l.next = 64 → l.descs = [(j, .issued pa dev sh)] → l.seat = none →
      l.tag.owner = 0 → (s.blk.bank (ctxBank c)).resq.all (·.ctx != c) = true →
      descsOf l.bad { l with got := l.got ++ [(j, descs.getD j (.ok []))] }.answers = (0, false, []) →
      let t := tabEntOf (l.entry.drop 0x40)
      t.owner = 0 → bit (leBits 64 ((l.entry.drop 0x38).take 8) : BitVec 64) 63 = false →
      let u := (s.blk.setRec c { slot := l.slot, wakeCtx := t.wakeCtx, wakeRing := t.wakeRing, wakeRingV := t.wakeRingV,
                                 spillSeg := t.seg, spillPage := t.page, dirty := true }).unfilter c
      Makes s (.ctxLoadComplete c entry descs) (ends { u with otherFills := s.blk.otherFills - 1 } 0 1)))

/-- UNLOAD, with no objection of Table 12-3, of a resident context that is not current, has an empty shortlist and is in no
LOAD, MOVE or refill: the context is not resident, its record leaves, BUSY is set. SPILL_WRITE_ACCEPT of the second write of
a context's only push, the only write on the port: the write leaves the port and the push ends; with the context neither
resident nor leaving nor in a LOAD nothing else changes. Of a PMF context that leaves for an UNLOAD of page g, with its
table's translation at once and writer c[1:0]'s port granting it: the write-back image goes out as a write to the start of
the table entry, the slot is free, the command ends with OK and raises DONE; besides, only what the translation touches, the
port's tokens and ages, performance counters, their flags and the log queue change. (07_delivery_and_core_slices.md R224; 07_delivery_and_core_slices.md Table 7-7; 02_event_model.md R66; 05_routing.md R163) -/
def Obligations.UnloadsWriteTheContextBack : Prop :=
  (∀ (s : State) (g : Fin 32) (w : RegAcc) (x : Ctx), w.als = .base → (s.blk.cmd g).busy = false →
    s.blk.writes (pgCSG g) 0x044 (withOp w 0xF 2) = true →
    let c : CtxNo := s.blk.regFld (pgCSG g) 0x040 15 0
    s.blk.rec? c = some x → x.moving = false → x.refill = none → x.refillOn = false → s.blk.loads.find? c.toNat = none →
    s.blk.leave.find? c.toNat = none → x.shortlist = [] → x.seat = none →
    let b := (s.blk.wrote (pgCSG g) 0x044 (withOp w 0xF 2)).setCmd g { busy := true, ctx := c }
    Puts s (.ctxUnload g w)
      { b with ctx := s.blk.ctx.erase c.toNat, leave := s.blk.leave.insert c.toNat { x, why := .unload g } }) ∧
  (∀ (s : State) (c : CtxNo) (m : MemWrite) (x : Spill),
    let k := c.toNat % 4
    (s.blk.writer k).out = [m] → m.kind = .spill c →
    (s.blk.bank (ctxBank c)).spills = [x] → x.ctx = c → x.ph = .written 1 → s.blk.rec? c = none →
    s.blk.loads.find? c.toNat = none → s.blk.pwr.saved = [] →
    let b := (s.blk.setWriter k { s.blk.writer k with out := [] }).setBank (ctxBank c) { s.blk.bank (ctxBank c) with spills := [] }
    (s.blk.leave.find? c.toNat = none → Makes s (.spillWriteAccept c) b) ∧
    (∀ y g, s.blk.leave.find? c.toNat = some { x := y, why := .unload g } → y.owner = 0 → y.basic = false →
      (s.blk.writer k).ready = [] →
      let at_ := s.blk.tableAddr c
      ∀ b' pa dev, xlate { b with leave := s.blk.leave.erase c.toNat } { seg := at_.1, off := at_.2, op := opCtxW, obj := c, cont := .wb k } =
        (b', .ok pa dev) →
      let wb : MemWrite := { kind := .wb c, pa := (pa &&& ~~~0xFFF#64) + BitVec.ofNat 64 (inPage at_.2), bytes := wbBytes y, dev, tag := {} }
      (b'.present k { req := 1, m := wb, seg := at_.1 }).wmemPick k = some 1 →
      Gives s (.spillWriteAccept c) fun r =>
        (r.cmd g) = { busy := false, result := 0, ctx := c } ∧ (r.writer k).out = [wb] ∧ (r.writer k).ready = [] ∧
        bit (r.hdr (pgCSG g)).flags 0 = true ∧
        Block.Notes [pgPMU, pgRM, pgCSG g] { b' with wr := r.wr, csg := r.csg, ages := r.ages } r))

/-- TIMER_FINE_LOAD, while the data plane runs and a comparator is free: a resident context's timer in the bucket of the
slot after the position, or an earlier one, moves to the fine stage; besides, only performance counters, their flags and the
log queue change when no overrun is being measured. TIMER_FIRE: when the sampled GT has reached TDL and TIMER_EN is 1, an
armed timer of the fine stage disarms, leaves the wheel, asks for the insert of banked event 0x0_0901 at TPRIO with class G
if TCLASS is 1 and H otherwise, and counts in CAR_FIRED, and in CAR_LATE when more than 64 DCLK cycles have passed; nothing
else changes. PPS_EDGE, while GT runs: TU_PPS takes GT less 2, TU_PPS_CNT rises by one and PPS is raised. TICK_PULSE, while
GT runs, the tick is on and no pulse is out, with GT at most 1 past a multiple of its period: MON_OUT carries a pulse until
(WIDTH + 1) x 8 ns, or half the period if that is less, from now. FOLLOW_HOLDOVER: in FOLLOW mode, after 8 revolutions
without a frame, HOLDOVER is set and raised, and a valid GT is no longer valid, which is raised too, its good revolutions
counted anew. GT_STOPPED on backup: GT stops. Nothing else changes. (06_carousel_and_time.md R191; 06_carousel_and_time.md R195; 06_carousel_and_time.md R196; 06_carousel_and_time.md R197; 06_carousel_and_time.md R180; 06_carousel_and_time.md R181; 06_carousel_and_time.md R182; 06_carousel_and_time.md R183; 06_carousel_and_time.md R178) -/
def Obligations.TimersAndTimeUnitEvents : Prop :=
  ((∀ (s : State) (c : CtxNo) (x : Ctx) (k : Nat), s.blk.dpOn = true → s.blk.rec? c = some x → x.loc = .bucket k →
    k ≤ s.blk.car.n + 1 → s.blk.fineCount < 256 → s.blk.car.lagAt = none →
    Gives s (.timerFineLoad c) (Block.Notes [pgPMU, pgRM] (s.blk.setRec c { x with loc := .fine }))) ∧
  (∀ (s : State) (c : CtxNo) (x : Ctx), s.blk.dpOn = true → s.blk.rec? c = some x → x.loc = .fine → x.tarm = true →
    x.tdl.toNat ≤ s.blk.gt.toNat → s.blk.regBit pgCAR 0x050 1 = true →
    let e : Entry := { pevent := 0x00901, vevent := 0x00901, prio := x.tprio, banked := true, cls := if x.tclass then 1 else 0 }
    let b := ((s.blk.setRec c { x with tarm := false, loc := .none }).ask17 { ctx := c, entry := e }).cnt pgCAR 0x060
    Makes s (.timerFire c) (if 64 < s.blk.dclkIn (s.blk.gt.toNat - x.tdl.toNat) then b.cnt pgCAR 0x064 else b))) ∧
  ((∀ (s : State), s.blk.gtRuns = true →
    Makes s .ppsEdge
      (({ s.blk with tu := { s.blk.tu with ppsCap := s.blk.tu.ns - 2, ppsCnt := s.blk.tu.ppsCnt + 1 } } : Block).flag pgTU 0)) ∧
  (∀ (s : State), s.blk.gtRuns = true → s.blk.regBit pgTU 0x080 0 = true → s.blk.tu.tickEnd = none →
    s.blk.tu.ns.toNat % s.blk.tickPeriod ≤ 1 →
    let width := min (((s.blk.regFld pgTU 0x080 15 8).toNat + 1) * 8) (s.blk.tickPeriod / 2)
    Makes s .tickPulse { s.blk with tu := { s.blk.tu with tickEnd := some (s.blk.clk.ns + width) } }) ∧
  (∀ (s : State), s.blk.tuFollow = true → 8 ≤ s.blk.tu.badRevs → s.blk.tu.holdover = false →
    let b := ({ s.blk with tu := { s.blk.tu with holdover := true, silent := true } } : Block).flag pgTU 1
    Makes s .followHoldover
      (if s.blk.tu.valid then ({ b with tu := { b.tu with valid := false, goodRevs := 0 } } : Block).flag pgTU 2 else b)) ∧
  (∀ (s : State), s.blk.tu.onBkp = true →
    Makes s .gtStopped { s.blk with tu := { s.blk.tu with gtStopped := true } }))

/-- With boundaries processed, no held write, no step to be seen and nothing late on the wheel. SLOT_BOUNDARY: in the same
revolution the position becomes the slot number of GT, and an enabled, good word of class H or G at the position asks for
the insert of banked event 0x0_0908 with its priority and context, one of another class counts in CAR_SLOT_BAD and raises
SLOT_BAD; nothing else changes. REVOLUTION_BOUNDARY: the position becomes the slot number, words of the shadow table are
copied, a pending switch pauses the lanes, the pass count of the scrubber advances, the samples of the revolution are due,
and after an incomplete revolution no sweep result is given. PERIOD_TAKEN at its time: NEXT is in force, PERIOD_PEND clears,
PERIOD_SWITCHED is raised, the position is the slot number under it, and SWEEP_SEQ advances only where the old revolution
was complete and ends there. (06_carousel_and_time.md R185; 06_carousel_and_time.md R189; 06_carousel_and_time.md R186; 06_carousel_and_time.md R190; 04_the_last.md R129; 06_carousel_and_time.md R187) -/
def Obligations.BoundariesFollowGt : Prop :=
  (∀ (s : State), s.blk.carOn = true → s.blk.periodDue = false → s.blk.slotNow ≠ s.blk.car.n → s.blk.newRev = false →
    s.blk.fab.held = [] → s.blk.car.stepped = false → s.blk.wheelLate (s.blk.car.n * s.blk.car.cur.toNat) = false →
    let b : Block := { s.blk with car := { s.blk.car with n := s.blk.slotNow } }
    let p := s.blk.slotNow % 4096
    let w := s.blk.car.slots.get 0 p
    ((bit w 31 = false ∨ s.blk.regBit pgCAR 0x050 0 = false) → Makes s .slotBoundary b) ∧
    (bit w 31 = true → s.blk.regBit pgCAR 0x050 0 = true → (fld w 23 22).toNat < 2 → p ∉ s.blk.ras.badSlots →
      Makes s .slotBoundary (b.ask17 { ctx := fld w 15 0, entry := bankedEntry 0x00908 (fld w 21 16) (fld w 23 22) })) ∧
    (bit w 31 = true → s.blk.regBit pgCAR 0x050 0 = true → 2 ≤ (fld w 23 22).toNat → p ∉ s.blk.ras.badSlots →
      Makes s .slotBoundary ((b.cnt pgCAR 0x068).flag pgCAR 2))) ∧
  (∀ (s : State), s.blk.carOn = true → s.blk.periodDue = false → s.blk.newRev = true → s.blk.fab.held = [] →
    s.blk.car.stepped = false → s.blk.car.incomplete = true →
    Gives s .revolutionBoundary fun b =>
      b.car.n = s.blk.slotNow ∧ b.car.incomplete = false ∧ b.car.shadow = .empty ∧
      b.car.slots = s.blk.car.shadow.cells.foldl (fun m p => m.set 0 p.1 p.2) s.blk.car.slots ∧
      b.ras.revs = s.blk.ras.revs + 1 ∧ b.rm.due = true ∧ b.last.sweepSeq = s.blk.last.sweepSeq ∧ b.last.crcCur = s.blk.last.crcCur ∧
      (s.blk.last.activity = .commitPend ∨ s.blk.last.activity = .rollbackPend → b.last.paused = true)) ∧
  (∀ (s : State), s.blk.carOn = true → s.blk.car.pend = true → s.blk.car.takeAt.toNat ≤ s.blk.gt.toNat → s.blk.fab.held = [] →
    s.blk.car.stepped = false →
    let next : BitVec 13 := s.blk.regFld pgCAR 0x040 12 0
    Gives s .periodTaken fun b =>
      b.car.cur = next ∧ b.car.pend = false ∧ b.car.n = s.blk.gt.toNat / max next.toNat 1 ∧ b.car.incomplete = false ∧
      bit (b.hdr pgCAR).flags 0 = true ∧ b.ras.revs = s.blk.ras.revs + 1 ∧ b.last.sweepSeq =
        if s.blk.car.incomplete = true ∨ s.blk.car.takeAt.toNat % (4096 * s.blk.car.cur.toNat) ≠ 0 then s.blk.last.sweepSeq
        else s.blk.last.sweepSeq + 1)

/-- With no objection of Table 12-3 and in immediate mode. CAR_PERIOD, base part: NEXT, kept within 64 to 4,096, is stored
and taken at the first GT from now on that is a multiple of 4,096 times NEXT. CAR_SLOT_DATA: a write stores the indexed word
and discards its shadow; a read answers the word, its shadow while one is held; either advances the index when AUTOINC is 1.
CAR_CTL, base part, with COAL_EN = 1 stores its bits; with COAL_EN = 0 it also leaves no window open. The page is locked
again by a write, the port answers, and nothing else changes. (06_carousel_and_time.md R186; 06_carousel_and_time.md R190; 06_carousel_and_time.md R192; 06_carousel_and_time.md R203; 12_registers_and_turnstile.md Table 12-3) -/
def Obligations.CarouselRegisterWrites : Prop :=
  (∀ (s : State) (w : RegAcc), w.als = .base → s.blk.writes pgCAR 0x040 w = true →
    let next := max 64 (min 4096 (fld w.data 12 0).toNat)
    let b := (s.blk.wrote pgCAR 0x040 w).setReg pgCAR 0x040 (BitVec.ofNat 32 next)
    Puts s (.carPeriodWrite w) { b with car := { b.car with
      pend := true, takeAt := BitVec.ofNat 64 ((s.blk.gt.toNat + 4096 * next - 1) / (4096 * next) * (4096 * next)) } }) ∧
  (∀ (s : State) (w : RegAcc), s.blk.writes pgCAR 0x04C w = true →
    let p := (s.blk.regFld pgCAR 0x048 11 0).toNat
    let v := s.blk.stval pgCAR 0x04C w
    let b := s.blk.wrote pgCAR 0x04C w
    let b : Block := { b with
      car := { b.car with slots := b.car.slots.set 0 p v, shadow := b.car.shadow.erase p }
      ras := { b.ras with badSlots := b.ras.badSlots.filter (· != p) } }
    Puts s (.carSlotDataWrite w) b.slotNext) ∧
  (∀ (s : State) (rid : BitVec 5), s.blk.portFree = true → s.blk.portMode = .serve → s.blk.admits true rid pgCAR 0x13 false = true →
    s.blk.fab.posted.find? pgCAR = none → (∀ x ∈ s.blk.fab.held, x.pg ≠ pgCAR) →
    let p := (s.blk.regFld pgCAR 0x048 11 0).toNat
    let v := (s.blk.car.shadow.find? p).getD (s.blk.car.slots.get 0 p)
    let i := s.blk.reg pgCAR 0x048
    let b := if bit i 16 then s.blk.setReg pgCAR 0x048 (blend 0xFFF i ((fld i 11 0 + 1).setWidth 32)) else s.blk
    Puts s (.carSlotDataRead rid) (b.answer false (at' v 32))) ∧
  (∀ (s : State) (w : RegAcc), w.als = .base → s.blk.writes pgCAR 0x050 w = true →
    let b := (s.blk.wrote pgCAR 0x050 w).setReg pgCAR 0x050 (blend 7 (s.blk.reg pgCAR 0x050) w.data)
    (bit w.data 2 = true → Puts s (.carCtlWrite w) b) ∧
    (bit w.data 2 = false → (∀ q ∈ s.blk.car.windows.cells, q.1 < 16384) → Gives s (.carCtlWrite w) fun r =>
      r.car.windows.cells = [] ∧ r.reg pgCAR 0x050 = b.reg pgCAR 0x050 ∧ r.fab.rsp = some { err := false, data := 0 }))

/-- With no objection of Table 12-3 and in immediate mode, each is posted and lands with its effect; FOLLOW is off for the
first three. TU_FREQ_ADJ_LO stores the low word and applies the adjustment with the held high byte, limited to 1,000 ppm
each way, raising ADJ_LIMIT where the limit changed it. TU_STEP_LO adds the signed step to GT, with the revolution
incomplete, the step to be seen at the next boundary and a scheduled period that is not due taken at the first of its
multiples from the new GT on, and raises STEPPED. TU_SET_LO loads NS with the held high word and a fraction of 0, restarts a
stopped GT and raises SET, as a step otherwise. Each makes GT valid if its reference is sound. TU_CTL, base part, with
FOLLOW off and naming the reference that the locked TPLL uses, outside HOLDOVER, stores its fields and restarts the
follower's counts. Nothing else changes. (06_carousel_and_time.md R174; 06_carousel_and_time.md R175; 06_carousel_and_time.md R176; 06_carousel_and_time.md R181; 12_registers_and_turnstile.md R334) -/
def Obligations.TimeRegistersSteerGt : Prop :=
  (∀ (s : State) (w : RegAcc), s.blk.posts pgTU 0x054 w = true → s.blk.tuFollow = false →
    let v := s.blk.stval pgTU 0x054 w
    let raw : Int := ((s.blk.regFld pgTU 0x058 7 0) ++ v : BitVec 40).toInt
    let adj := max (-0xF42400000) (min 0xF42400000 raw)
    Lands s (.tuFreqAdjLo w) pgTU 0x054 w fun b =>
      let b := b.setReg pgTU 0x054 v
      let b : Block := { b with tu := { b.tu with adj := BitVec.ofInt 40 adj } }
      if adj = raw then b.makeValid else (b.flag pgTU 5).makeValid) ∧
  (∀ (s : State) (w : RegAcc), s.blk.posts pgTU 0x05C w = true → s.blk.tuFollow = false →
    let v := s.blk.stval pgTU 0x05C w
    let step : BitVec 48 := s.blk.regFld pgTU 0x060 15 0 ++ v
    let t := s.blk.tu.withFull (s.blk.tu.full + step.toInt * 2 ^ 32)
    Lands s (.tuStepLo w) pgTU 0x05C w fun b =>
      let b := b.setReg pgTU 0x05C v
      let b : Block := { b with
        tu := { b.tu with ns := t.ns, frac := t.frac }
        car := { b.car with stepped := true, incomplete := true, takeAt := s.blk.retake t.ns } }
      (b.flag pgTU 3).makeValid) ∧
  (∀ (s : State) (w : RegAcc), s.blk.posts pgTU 0x064 w = true → s.blk.tuFollow = false →
    let v := s.blk.stval pgTU 0x064 w
    Lands s (.tuSetLo w) pgTU 0x064 w fun b =>
      let b := b.setReg pgTU 0x064 v
      let ns : Gt := s.blk.reg pgTU 0x068 ++ v
      let b : Block := { b with
        tu := { b.tu with ns, frac := 0, gtStopped := false }
        car := { b.car with stepped := true, incomplete := true, takeAt := s.blk.retake ns } }
      (b.flag pgTU 4).makeValid) ∧
  (∀ (s : State) (w : RegAcc), w.als = .base → s.blk.posts pgTU 0x040 w = true → fld w.data 2 1 = 0 →
    bit w.data 0 = s.blk.clk.tRefUsed → s.blk.clk.lockT = true → s.blk.tu.holdover = false → s.blk.tu.silent = false →
    Lands s (.tuCtlWrite w) pgTU 0x040 w fun b =>
      let b := b.setReg pgTU 0x040 (blend 0x1F (s.blk.reg pgTU 0x040) w.data)
      { b with tu := { b.tu with goodRevs := 0, badRevs := 0, remove := 0, removeLeft := 0 } })

/-- RECORD_INTAKE, where the writer's intake arbiter picks the engine, of its only descriptor for a writer with two free
trackers, for a ring of an ACTIVE owner: it joins the end of staging with the owner's tag; nothing else changes.
RECORD_ADMIT, where the arbiter of the descriptor port picks the writer, which presents this record of a sound, settled ring
outside an overflow episode, with one entry of payload-free data, within its share: with room it takes index PI, PI rises by
one, and with coalescing off and a link that is not RING_ONLY the publication target becomes the new PI in place of an index
write not granted; with coalescing on, a window of the link that needs neither bypass nor count opens with it. During an
episode a full ring drops it: OVF and the episode's count rise. Besides, only performance counters, their flags, ERW_DROP
and the log queue change. (08_event_rings.md R240; 08_event_rings.md R239; 08_event_rings.md R244; 06_carousel_and_time.md R192; 06_carousel_and_time.md R193; 01_architecture.md R38) -/
def Obligations.RecordsAreStagedAndAdmitted : Prop :=
  (∀ (s : State) (w : Fin 4) (n : Fin 16) (q : RecReq), s.blk.pick (.intake w) (s.blk.intakeElig w) = some n.val →
    (s.blk.engine n).recq.get [] w = [q] → q.places = none →
    (s.blk.writer w).used + 1 < 1024 → q.rcd.type.toNat < 8 → s.blk.ownerActive (s.blk.ringCfg q.ring).owner = true →
    let g := s.blk.engine n
    let k := s.blk.writer w
    let o := (s.blk.ringCfg q.ring).owner
    Makes s (.recordIntake w n) (((s.blk.setEngine n { g with recq := g.recq.set [] w [] }).setWriter w { k with
      recs := k.recs ++ [{ ring := q.ring, owner := o, rcd := q.rcd, tok := q.tok,
                           tag := { s.blk.tagOf o with drain := q.tag.drain && q.tag.owner == o } }] }).granted (.intake w) n)) ∧
  (∀ (s : State) (r : RingNo) (pre : List Staged) (x : Staged) (post : List Staged), s.blk.pwr.stage ≠ .entry →
    let w : Fin 4 := Fin.ofNat 4 (ringWriter r)
    let k := s.blk.writer w
    let g := s.blk.ringOf r
    let c := s.blk.ringCfg r
    let lk := s.blk.link r
    s.blk.ringPick w = some 0 → s.blk.admitHead w = some x → x.ring = r →
    k.recs = pre ++ x :: post → (∀ y ∈ pre, y.ring ≠ r ∨ y.ph ≠ .queued) →
    x.rcd.pf = false → x.rcd.pay = none → g.faulted = false →
    k.occ x.owner ≤ (fld (s.blk.shareOf x.owner.toNat) 26 16).toNat →
    let k' : Writer := { k with recs := pre ++ { x with idx := g.pi, ph := .staged, seq := s.blk.newTok.2 } :: post }
    let b := (s.blk.newTok.1.granted (.ringTable w) 0)
    (g.ovfEp = false → (g.pi - g.ci).toNat + 1 ≤ c.entries → lk.kind ≠ 0 → s.blk.regBit pgCAR 0x050 2 = false →
      Gives s (.recordAdmit w r) (Block.Notes [pgPMU, pgRM]
        ((b.setWriter w { k' with idxWait := k.idxWait.filter (·.ring != r) }).setRing r
          { g with pi := g.pi + 1, tgtPend := true, tgtDelta := (g.pi + 1 - g.pub).setWidth 21, tgtGt := s.blk.gt }))) ∧
    (g.ovfEp = false → (g.pi - g.ci).toNat + 1 ≤ c.entries → s.blk.regBit pgCAR 0x050 2 = true →
      s.blk.car.windows.find? r.toNat = none → lk.coalWindow ≠ 0 → lk.coalCount = 0 → lk.bypEn = false →
      let d := s.blk.gt + 64 * lk.coalWindow.setWidth 64
      let key := keyOf s.blk.car.cur d.toNat
      let open_ : Window := { window := lk.coalWindow, count := 0, bypPrio := lk.bypPrio, bypEn := false, deadline := d, key,
                              far := decide (slotOf s.blk.car.cur s.blk.gt.toNat + 4096 ≤ key), n := 1,
                              best := bvMin 63 x.rcd.prio }
      let b := (b.setWriter w k').setRing r { g with pi := g.pi + 1 }
      Gives s (.recordAdmit w r) (Block.Notes [pgPMU, pgRM]
        { b with car := { b.car with windows := b.car.windows.insert r.toNat open_ } })) ∧
    (g.ovfEp = true → c.entries < (g.pi - g.ci).toNat + 2 → x.flt = false → x.ras = false →
      Gives s (.recordAdmit w r) (Block.Notes [pgPMU, pgRM, pgERW]
        (((s.blk.granted (.ringTable w) 0).setWriter w { k with recs := pre ++ post }).setRing r
          { g with ovf := satAdd g.ovf 1, epDrops := satAdd g.epDrops 1 }))))

/-- RING_WRITE_ISSUE of a ring of the PMF with one record not issued, whose address is known, where the arbiter of the
writer's memory port picks that write and nothing of requesters 1 and 2 waits: the record's bytes leave as one write at that
address with the device mark of its translation, and the record is issued. RING_WRITE_ACCEPT of the only write of the
writer's port, of one record: that record leaves staging and counts in the ring's 48-bit record counter. INDEX_WRITE of an
unmarked ring of the PMF whose target is reached, with a translation at once, where the port picks the index write and
nothing of requesters 1 and 2 waits: the line carries PUB as it will be, OVF and the GT of the flush; the target is taken.
INDEX_WRITE_ACCEPT with the owner's generation: PUB takes the written value and a target set meanwhile stands. Besides, a
grant takes tokens, ends the request's age and can change performance counters, their flags and the log queue. (08_event_rings.md R242; 08_event_rings.md R243; 08_event_rings.md R249; 08_event_rings.md R234; 08_event_rings.md R235) -/
def Obligations.RingWritesAreIssuedAndPublished : Prop :=
  (∀ (s : State) (r : RingNo) (x : Staged) (pa : BitVec 64) (dev : Bool), s.blk.dpOn = true → s.blk.unissued r = [x] →
    x.ph = .ready pa dev → x.owner = 0 → x.tag.owner = 0 → x.rcd.pay = none →
    let w := ringWriter r
    let bytes := s.blk.recBytes x.rcd
    (s.blk.writer w).ready = [] → s.blk.headIs r false = true →
    Gives s (.ringWriteIssue r) fun b =>
      (b.writer w).out = (s.blk.writer w).out ++
        [{ kind := .records r 1, pa, bytes, dev, tag := x.tag }] ∧
      (b.writer w).recs = (s.blk.writer w).recs.map (fun y => if y = x then { x with ph := .issued } else y) ∧
      (∀ v, v ≠ w → b.writer v = s.blk.writer v) ∧ Block.Notes [pgPMU, pgRM] { s.blk with wr := b.wr, ages := b.ages } b) ∧
  (∀ (s : State) (r : RingNo) (m : MemWrite) (pre : List Staged) (x : Staged) (post : List Staged),
    let k := s.blk.writer (ringWriter r)
    k.out = [m] → m.kind = .records r 1 → k.recs = pre ++ x :: post → (∀ y ∈ pre, y.ring ≠ r ∨ y.ph ≠ .issued) → x.ring = r →
    x.ph = .issued →
    Makes s (.ringWriteAccept r)
      ((s.blk.setWriter (ringWriter r) { k with out := [], recs := pre ++ post }).cnt48 pgERW 0x080 0x084)) ∧
  (∀ (s : State) (r : RingNo) (b' : Block) (pa : BitVec 64) (dev : Bool), s.blk.dpOn = true → s.blk.targetReached r = true →
    s.blk.idxFly.find? r.toNat = none → (∀ p ∈ s.blk.vif.cells, r ∉ p.2.marked) →
    let w := ringWriter r
    let c := s.blk.cfgOf r
    let g := s.blk.ringOf r
    c.owner = 0 → (∀ q ∈ (s.blk.writer w).idxWait, q.ring ≠ r) → (s.blk.writer w).ready = [] →
    xlate s.blk.newTok.1 { seg := c.seg, off := c.lineOff, op := opIndex, user := c.user, obj := r.setWidth 16, cont := .index w r } =
      (b', .ok pa dev) →
    (b'.setWriter w { b'.writer w with
      idxWait := (b'.writer w).idxWait ++ [{ ring := r, owner := 0, seq := s.blk.newTok.2, pa := some (pa, dev) }] }).headIs r true = true →
    let pub := g.pub + g.tgtDelta.setWidth 32
    Gives s (.indexWrite r) fun b =>
      b.idxFly.find? r.toNat = some { kind := .index r pub, pa, dev, tag := {}, bytes := leBytes 4 pub.toNat ++ leBytes 4 g.ovf.toNat ++ leBytes 8 g.tgtGt.toNat } ∧
      b.ringOf r = { g with tgtPend := false, tgtDelta := 0 } ∧
      Block.Notes [pgPMU, pgRM] { b' with idxFly := b.idxFly, ring := b.ring, wr := b.wr, ages := b.ages } b) ∧
  (∀ (s : State) (r : RingNo) (m : MemWrite) (pub : Word), s.blk.idxFly.find? r.toNat = some m → m.kind = .index r pub →
    m.tag.gen = (s.blk.tagOf m.tag.owner).gen →
    let g := s.blk.ringOf r
    let b : Block := { s.blk with idxFly := s.blk.idxFly.erase r.toNat }
    Makes s (.indexWriteAccept r) (b.setRing r { g with
      pub, tgtDelta := if g.tgtPend then (g.pub + g.tgtDelta.setWidth 32 - pub).setWidth 21 else 0 }))

/-- Writes with no objection of Table 12-3, immediate, on the ring ERW_RING_SEL names. ERW_RING_CI takes a value from CI to
PUB, any other counts in ERW_CI_BAD and sets CI_BAD. CLEAR_FAULT clears FAULTED; RESET of a ring with nothing in staging or
in flight gives its live fields their reset values, of another sets result 1 and RESET_BUSY; ERW_RING_RES takes the result
and ring; the ring's compiled entry has met no error. ERW_VIF_SHARE takes SHARE within 1 to 256 and CREDIT up to 1,024 for
the owner selected. WINDOW_EXPIRY of the earliest window of a writer whose key the position has reached, where the arbiter
of the descriptor port picks the Carousel: the window closes, counts in CAR_FLUSH_EXP, PI becomes the publication target,
and a RING_ONLY link asks for the ring-ready insert; performance counters, their flags and the log queue can change. (08_event_rings.md R245; 08_event_rings.md R247; 08_event_rings.md R250; 08_event_rings.md R254; 06_carousel_and_time.md R192; 06_carousel_and_time.md R193; 08_event_rings.md R251) -/
def Obligations.RingRegistersAndWindows : Prop :=
  (∀ (s : State) (w : RegAcc), s.blk.writes pgERW 0x058 w = true →
    let r : RingNo := s.blk.regFld pgERW 0x048 13 0
    let g := s.blk.ringOf r
    let v := s.blk.stval pgERW 0x058 w
    let b := s.blk.wrote pgERW 0x058 w
    ((v - g.ci).toNat ≤ (g.pub - g.ci).toNat → Puts s (.erwRingCi w) (b.setRing r { g with ci := v })) ∧
    ((g.pub - g.ci).toNat < (v - g.ci).toNat → Puts s (.erwRingCi w) ((b.cnt pgERW 0x08C).flag pgERW 3))) ∧
  (∀ (s : State) (w : RegAcc), w.als = .base →
    let r : RingNo := s.blk.regFld pgERW 0x048 13 0
    let b (op : Word) : Block := s.blk.wrote pgERW 0x060 (withOp w 3 op)
    let res (b : Block) (v : Word) : Block := b.setReg pgERW 0x064 (v ||| r.setWidth 32 <<< 16)
    (s.blk.writes pgERW 0x060 (withOp w 3 1) = true → s.blk.badRing r = false →
      Puts s (.clearFault w) (res ((b 1).setRing r { s.blk.ringOf r with faulted := false }) 0)) ∧
    (s.blk.writes pgERW 0x060 (withOp w 3 2) = true →
      (s.blk.badRing r = false → s.blk.ringBusy r = false →
        Puts s (.ringReset w) (res ((b 2).setRing r {}) 0)) ∧
      (s.blk.ringBusy r = true → Puts s (.ringReset w) ((res (b 2) 1).flag pgERW 4)))) ∧
  (∀ (s : State) (w : RegAcc), s.blk.writes pgERW 0x06C w = true →
    let o := (s.blk.regFld pgERW 0x068 12 0).toNat
    let b := s.blk.wrote pgERW 0x06C w
    let v := clampFld (clampFld (s.blk.wval pgERW 0x06C w) 8 0 1 256) 26 16 0 1024 &&& 0x07FF01FF
    Puts s (.erwVifShare w) { b with fab := { b.fab with share := b.fab.share.set 0x04000100 o v } }) ∧
  (∀ (s : State) (r : RingNo) (x : Window),
    let w := ringWriter r
    s.blk.ringPick w = some 2 → s.blk.dueWindow w = some r → s.blk.car.windows.find? r.toNat = some x →
    s.blk.last.changed.find? r.toNat = none → s.blk.car.lagAt = none →
    let g := s.blk.ringOf r
    let lk := s.blk.link r
    let k := s.blk.writer w
    let b := (s.blk.setWriter w { k with idxWait := k.idxWait.filter (·.ring != r) }).granted (.ringTable w) 2
    let b : Block := { b with car := { s.blk.car with windows := s.blk.car.windows.erase r.toNat } }
    let b := (b.cnt pgCAR 0x054).setRing r
      { g with tgtPend := true, tgtDelta := (g.pi - g.pub).setWidth 21, tgtGt := s.blk.gt }
    Gives s (.windowExpiry r) (Block.Notes [pgPMU, pgRM]
      (if lk.kind = 0 then
        b.ask17 { ctx := lk.target, userTag := lk.userTag, urgent := lk.urgent, entry := bankedEntry 0x00907 x.best lk.dclass }
      else b)))

/-- VMGR_CMD writes with no objection of Table 12-3, immediate, with no command in progress, for the VIF v of VMGR_TGT with
ANY = 0. CREATE of a FREE one makes it ACTIVE with the next generation and creation values. Of an ACTIVE or RESETTING one,
SET_CTX takes a range inside the contexts, SET_RING a range of rings it owns, SET_NOTIFY its context, priority and enable;
RING_IDX of an ACTIVE one gives a ring of a slot it owns, sound, with nothing in staging and no window, PI and PUB of ARG1
and CI of ARG2, and takes back an index write that is not granted. Each ends with OK and CMD_DONE. SET_CTX beyond the
contexts ends with BAD_ARG, an undefined OP with BADOP, and both raise CMD_ERR too. The page is locked again, the port
answers OK, and nothing else changes. (09_virtualization.md R257; 09_virtualization.md R259; 09_virtualization.md Table 9-4; 09_virtualization.md R272; 12_registers_and_turnstile.md Table 12-3) -/
def Obligations.VifCommandsConfigure : Prop :=
  ∀ (s : State) (w : RegAcc), w.als = .base → s.blk.vm.busy = false → s.blk.regBit pgVMGR 0x040 12 = false →
    let v := (s.blk.regFld pgVMGR 0x040 11 0).toNat
    let x := s.blk.vifOf v
    let a0 := s.blk.reg pgVMGR 0x044
    let a1 := s.blk.reg pgVMGR 0x048
    let a2 := s.blk.reg pgVMGR 0x04C
    let b (op : Word) : Block := s.blk.wrote pgVMGR 0x050 (withOp w 0xF op)
    let ends (b : Block) (r : BitVec 4) : Block := b.vmEnd v r
    (s.blk.writes pgVMGR 0x050 (withOp w 0xF 1) = true → x.state = .free →
      Puts s (.vifCreate w) (ends ((b 1).setVif v { state := .active, gen := x.gen + 1, done := x.done }) 0)) ∧
    (s.blk.writes pgVMGR 0x050 (withOp w 0xF 4) = true → (x.state = .active ∨ x.state = .resetting) →
      ((fld a1 12 0).toNat ≤ 4096 → (fld a0 15 0).toNat + (fld a1 12 0).toNat ≤ 65536 →
        Puts s (.setCtx w) (ends ((b 4).setVif v { x with ctxBase := fld a0 15 0, ctxCount := fld a1 12 0 }) 0)) ∧
      (65536 < (fld a0 15 0).toNat + (fld a1 12 0).toNat → Puts s (.setCtx w) (ends (b 4) 5))) ∧
    (s.blk.writes pgVMGR 0x050 (withOp w 0xF 5) = true → (x.state = .active ∨ x.state = .resetting) →
      (fld a1 4 0).toNat ≤ 16 → (fld a0 13 0).toNat + (fld a1 4 0).toNat ≤ 16384 →
      (∀ j, j < (fld a1 4 0).toNat → (s.blk.ringCfg (BitVec.ofNat 14 ((fld a0 13 0).toNat + j))).owner = BitVec.ofNat 13 (v + 1)) →
      Puts s (.setRing w) (ends ((b 5).setVif v { x with ringBase := fld a0 13 0, ringCount := fld a1 4 0 }) 0)) ∧
    (s.blk.writes pgVMGR 0x050 (withOp w 0xF 6) = true → (x.state = .active ∨ x.state = .resetting) →
      Puts s (.setNotify w)
        (ends ((b 6).setVif v { x with noteCtx := fld a0 15 0, notePrio := fld a1 5 0, noteEn := bit a1 8 }) 0)) ∧
    (s.blk.writes pgVMGR 0x050 (withOp w 0xF 11) = true → x.state = .active →
      let j := (fld a0 3 0).toNat
      let r := x.ringBase + BitVec.ofNat 14 j
      j < x.ringCount.toNat → (s.blk.ringCfg r).owner = BitVec.ofNat 13 (v + 1) → (a1 - a2).toNat ≤ (s.blk.ringCfg r).entries →
      s.blk.staged r = [] → s.blk.car.windows.find? r.toNat = none → (s.blk.ringOf r).faulted = false →
      let k := s.blk.writer (ringWriter r)
      Puts s (.ringIdx w)
        (ends (((b 11).setWriter (ringWriter r) { k with idxWait := k.idxWait.filter (·.ring != r) }).setRing r { s.blk.ringOf r with pi := a1, pub := a1, ci := a2, tgtPend := false, tgtDelta := 0 }) 0)) ∧
    (s.blk.writes pgVMGR 0x050 (withOp w 0xF (undefOp w.data 15 1 11)) = true →
      Puts s (.vmgrBadop w) (ends (b (undefOp w.data 15 1 11)) 15))

/-- RESET or DESTROY of an ACTIVE VIF, with no objection of Table 12-3, immediate, with no command in progress: it is
RESETTING or RELEASING with the next generation, DONE is 0, the purge is in progress and BUSY stays; no context of it that
is in no handoff and no LOAD is resident, and no record of it that is not issued is in staging. PURGE_END with no such
context busy: the purge ends, the command with OK. QUIESCENCE of an ended purge, with no old operation counted and no
dirty-log write on a port: its marked rings are reset, DONE is 1, cause 1 is set, QUIESCED is raised, and a RESETTING VIF is
ACTIVE, a RELEASING one FREE with its generation and VIF_CIERR kept; nothing else changes. (09_virtualization.md R257; 09_virtualization.md R260; 09_virtualization.md R261; 09_virtualization.md R262; 09_virtualization.md R263) -/
def Obligations.VifPurgeAndQuiescence : Prop :=
  (∀ (s : State) (w : RegAcc) (i : Instr) (op : Word) (st : VifState), w.als = .base →
    (i = .vifReset w ∧ op = 2 ∧ st = .resetting ∨ i = .vifDestroy w ∧ op = 3 ∧ st = .releasing) →
    s.blk.writes pgVMGR 0x050 (withOp w 0xF op) = true → s.blk.vm.busy = false →
    let v := (s.blk.regFld pgVMGR 0x040 11 0).toNat
    (s.blk.vifOf v).state = .active →
    Gives s i fun b =>
      (b.vifOf v).state = st ∧ (b.vifOf v).gen = (s.blk.vifOf v).gen + 1 ∧ (b.vifOf v).done = false ∧
      (b.vifOf v).purging = true ∧ b.vm.busy = true ∧ b.vm.vif = BitVec.ofNat 12 v ∧
      (∀ c : CtxNo, (s.blk.rec? c).any (fun x => x.owner == BitVec.ofNat 13 (v + 1) && !x.moving) = true → s.blk.loads.find? c.toNat = none →
        b.rec? c = none) ∧
      (∀ k : Fin 4, ∀ y ∈ (b.writer k).recs, y.owner = BitVec.ofNat 13 (v + 1) → y.ph = .issued)) ∧
  (∀ (s : State), s.blk.vm.busy = true →
    let v := s.blk.vm.vif.toNat
    let x := s.blk.vifOf v
    x.purging = true → (∀ c ∈ x.due, s.blk.ctxBusy c = false) →
    Makes s .purgeEnd ((s.blk.setVif v { x with purging := false, due := [] }).vmEnd v 0)) ∧
  (∀ (s : State) (v : VifNo),
    let n := v.toNat
    let x := s.blk.vifOf n
    x.purging = false → s.blk.oldOps n = 0 → (∀ p ∈ s.blk.wr.cells, ∀ m ∈ p.2.out, m.isLog = false) →
    let b := x.marked.foldl Block.resetMarked s.blk
    (x.state = .resetting → Makes s (.quiescence v)
      (((b.setVif n { x with done := true, marked := [], state := .active }).vifCause n 1).flag pgVMGR 3)) ∧
    (x.state = .releasing → Makes s (.quiescence v)
      ((((b.setVif n { x with done := true, marked := [] }).vifCause n 1).flag pgVMGR 3).setVif n
        { gen := x.gen, ciErr := x.ciErr })))

/-- For an ACTIVE VIF, with no objection of Table 12-3, immediate, with no command in progress. DRAIN with none in progress
starts one: the windows of its rings close, it waits for them up to their PI, and the command ends with OK. HARVEST with
logging and none in progress: SNAP takes PI, the harvest is in progress, no entry of the VIF is left in the dirty filter,
and the command ends with OK. DRAINED, with no marked operation counted or waiting, its rings published and no dirty-log
write on a port: the drain ends and cause 2 is set. SNAP, with no marked write on the ports or waiting: the harvest ends and
cause 3 is set. Nothing else changes with the last two. With no objection of Table 12-3, immediate. DIRTY_START, with no
command in progress, for an ACTIVE VIF without logging and a free channel: the channel is in use for the VIF with the
segment, order, base and threshold of its registers and indexes 0, and the VIF logs to it. DIRTY_STOP of a logging VIF: it
logs no more and its channel is stopping. Each ends with OK. DL_CHANNEL_FREE of a stopping channel, with none of its writes
waiting or on a port: the channel is free; nothing else changes. VMGR_DL_CI takes a value from CI to PI of the selected
channel, and any other sets DL_CI_BAD; the page is locked again, the port answers OK, and nothing else changes. (09_virtualization.md R264; 09_virtualization.md R265; 09_virtualization.md R266; 09_virtualization.md R270; 09_virtualization.md R268; 09_virtualization.md R271; 09_virtualization.md Table 9-4) -/
def Obligations.DrainsAndHarvests : Prop :=
  ((∀ (s : State) (w : RegAcc), w.als = .base → s.blk.vm.busy = false →
    let v := (s.blk.regFld pgVMGR 0x040 11 0).toNat
    let x := s.blk.vifOf v
    x.state = .active →
    (s.blk.writes pgVMGR 0x050 (withOp w 0xF 10) = true → x.draining = false →
      let rs := (s.blk.ringsOf v).filter fun r => (s.blk.car.windows.find? r.toNat).isSome
      Gives s (.drain w) fun b =>
        (b.vifOf v).draining = true ∧ (b.vifOf v).drainRings = rs.map (fun r => (r, (s.blk.ringOf r).pi)) ∧
        (∀ r ∈ s.blk.ringsOf v, b.car.windows.find? r.toNat = none) ∧ b.vm.result = 0 ∧ b.vm.busy = false) ∧
    (s.blk.writes pgVMGR 0x050 (withOp w 0xF 9) = true → x.dlEn = true → (s.blk.dlCh x.dlCh.toNat).harvest = false →
      let d := s.blk.dlCh x.dlCh.toNat
      Gives s (.harvest w) fun b =>
        b.dlCh x.dlCh.toNat = { d with snap := d.pi, harvest := true } ∧ b.vifOf v = x ∧
        (∀ p ∈ b.vm.filter.cells, ∀ k ∈ p.2, k.1 ≠ BitVec.ofNat 12 v) ∧ b.vm.result = 0 ∧ b.vm.busy = false)) ∧
  (∀ (s : State) (v : VifNo), (∀ p ∈ s.blk.wr.cells, ∀ m ∈ p.2.out, m.isLog = false) →
    let n := v.toNat
    let x := s.blk.vifOf n
    let mine (t : Tag) : Bool := t.owner == BitVec.ofNat 13 (n + 1) && t.drain
    x.draining = true → s.blk.countOps mine (fun _ => false) = 0 → s.blk.drainWaits n = false →
    s.blk.logWaits (fun _ t => mine t) = false → x.drainRings.all s.blk.drainDone = true →
    Makes s (.drained v) ((s.blk.setVif n { x with draining := false, drainRings := [] }).vifCause n 2)) ∧
  (∀ (s : State) (ch : BitVec 6), (∀ p ∈ s.blk.wr.cells, ∀ m ∈ p.2.out, m.isLog = false) →
    let d := s.blk.dlCh ch.toNat
    let mine (t : Tag) : Bool := t.owner == BitVec.ofNat 13 (d.vif.toNat + 1) && t.harv
    d.harvest = true → (∀ p ∈ s.blk.wr.cells, ∀ m ∈ p.2.out, mine m.tag = false) →
    (∀ p ∈ s.blk.idxFly.cells, mine p.2.tag = false) → s.blk.logWaits (fun _ t => mine t) = false →
    Makes s (.snap ch) ((s.blk.setDlCh ch.toNat { d with harvest := false }).vifCause d.vif.toNat 3))) ∧
  ((∀ (s : State) (w : RegAcc), w.als = .base → s.blk.vm.busy = false →
    let v := (s.blk.regFld pgVMGR 0x040 11 0).toNat
    let x := s.blk.vifOf v
    x.state = .active →
    (s.blk.writes pgVMGR 0x050 (withOp w 0xF 7) = true → x.dlEn = false →
      let ch : BitVec 6 := s.blk.regFld pgVMGR 0x044 5 0
      let d := s.blk.dlCh ch.toNat
      d.inUse = false →
      Gives s (.dirtyStart w) fun b =>
        b.dlCh ch.toNat = { d with
          inUse := true, vif := BitVec.ofNat 12 v, seg := fld d.cfg 5 0, order := fld d.cfg 12 8, thresh := fld d.threshReg 20 0,
          base := (fld d.baseHi 15 0) ++ (fld d.baseLo 31 12) ++ (0 : BitVec 12), pi := 0, ci := 0, snap := 0, ovf := false,
          harvest := false, stopping := false } ∧
        b.vifOf v = { x with dlEn := true, dlCh := ch } ∧ b.vm.result = 0 ∧ b.vm.busy = false) ∧
    (s.blk.writes pgVMGR 0x050 (withOp w 0xF 8) = true → x.dlEn = true →
      let b := (s.blk.wrote pgVMGR 0x050 (withOp w 0xF 8)).setVif v { x with dlEn := false }
      Puts s (.dirtyStop w) ((b.setDlCh x.dlCh.toNat { s.blk.dlCh x.dlCh.toNat with stopping := true }).vmEnd v 0))) ∧
  (∀ (s : State) (ch : BitVec 6), (s.blk.dlCh ch.toNat).stopping = true → s.blk.logWaits (fun c _ => c == ch) = false →
    (∀ p ∈ s.blk.wr.cells, ∀ m ∈ p.2.out, m.kind ≠ .log ch) →
    Makes s (.dlChannelFree ch) (s.blk.setDlCh ch.toNat { s.blk.dlCh ch.toNat with stopping := false, inUse := false })) ∧
  (∀ (s : State) (w : RegAcc), s.blk.writes pgVMGR 0x098 w = true →
    let ch := (s.blk.regFld pgVMGR 0x080 5 0).toNat
    let d := s.blk.dlCh ch
    let b := s.blk.wrote pgVMGR 0x098 w
    let x := s.blk.stval pgVMGR 0x098 w
    ((x - d.ci).toNat ≤ (d.pi - d.ci).toNat → Puts s (.vmgrDlCi w) (b.setDlCh ch { d with ci := x })) ∧
    ((d.pi - d.ci).toNat < (x - d.ci).toNat → Puts s (.vmgrDlCi w) (b.flag pgVMGR 6))))

/-- While nothing stands at the port, which serves, and the Turnstile admits the part. VIF_HVDB of an ACTIVE VIF: its
message is taken and cause 0 is set, with its notification when the cause was 0. VIF_RING_CI of a slot below its ring count
whose ring it owns, with the grant of the ring's descriptor port had at once, takes a value from CI to PUB; any other value
counts in ERW_CI_BAD and VIF_CIERR and sets CI_BAD. A VIF that is not ACTIVE ignores both. The port answers OK, and nothing
else changes. A refused part is logged in the Turnstile log with cause 1 and answered with an error. (09_virtualization.md R266; 09_virtualization.md R267; 08_event_rings.md R245; 12_registers_and_turnstile.md R338) -/
def Obligations.VifPagesAct : Prop :=
  (∀ (s : State) (v : VifNo) (rid : BitVec 5) (d : Word), s.blk.portFree = true → s.blk.portMode = .serve →
    let n := v.toNat
    let x := s.blk.vifOf n
    (s.blk.admits true rid (0x1000 + n) 3 true = true →
      (x.state = .active → Puts s (.vifHvdb v rid d)
        (((s.blk.setVif n { x with msg := fld d 15 0 }).vifCause n 0).answer false 0)) ∧
      (x.state ≠ .active → Puts s (.vifHvdb v rid d) (s.blk.answer false 0))) ∧
    (s.blk.admits true rid (0x1000 + n) 3 true = false →
      Puts s (.vifHvdb v rid d) ((s.blk.tsLog 1 rid true (0x1000 + n) 3).answer true 0))) ∧
  (∀ (s : State) (v : VifNo) (j : Fin 16) (rid : BitVec 5) (d : Word), s.blk.portFree = true → s.blk.portMode = .serve →
    let n := v.toNat
    let x := s.blk.vifOf n
    let r := x.ringBase + BitVec.ofNat 14 j
    let g := s.blk.ringOf r
    s.blk.admits true rid (0x1000 + n) (0x40 + 4 * j) true = true → x.state = .active → j.val < x.ringCount.toNat →
    (s.blk.ringCfg r).owner = BitVec.ofNat 13 (n + 1) → s.blk.turnFree (.ring r) = true →
    let b := s.blk.turn (.ring r)
    ((d - g.ci).toNat ≤ (g.pub - g.ci).toNat → Puts s (.vifRingCi v j rid d) ((b.setRing r { g with ci := d }).answer false 0)) ∧
    ((g.pub - g.ci).toNat < (d - g.ci).toNat → Puts s (.vifRingCi v j rid d)
      ((((b.cnt pgERW 0x08C).flag pgERW 3).setVif n { x with ciErr := satAdd x.ciErr 1 }).answer false 0)))

/-- LAST_CMD writes with no objection of Table 12-3, immediate. IDLE: LOAD in expert level, the Ringmaster on duty, enters
PASS1 with LAST_SEG and LAST_ADDR, asks for the next page's walk and for the first line, which it reads when translated with
a tracker free, waits for its walk, or ends with reason 20 at a fault; COMMIT of a STAGED, ROLLBACK to a PREVIOUS bank is
pending; BUILD in basic level, when the Ringmaster can, fills the inactive bank from the BASIC registers in PASS2. ABORT
ends a load with reason 23, its inactive bank EMPTY in PASS2, and a pending switch before its boundary. Refused, with no
effect but CMDERR and CMD_REFUSED: OP 0, 6 and 7 (7), LOAD in basic or BUILD in expert level (5), anything but ABORT in
PASS1 and PASS2 and BUILD while the Ringmaster cannot (1), the same while a switch is pending (2), and in IDLE a COMMIT of a
bank not STAGED (3), a ROLLBACK to one not PREVIOUS (4), an ABORT then and from cycle B on (6). The page is locked again,
the port answers OK, and nothing else changes. (04_the_last.md R127; 04_the_last.md R128; 04_the_last.md Table 4-8; 04_the_last.md R140; 10_translation.md R287; 12_registers_and_turnstile.md Table 12-3) -/
def Obligations.ImageCommandsFollowTheStateMachine : Prop :=
  ∀ (s : State) (w : RegAcc), w.als = .base →
    let l := s.blk.last
    let b (op : Word) : Block := s.blk.wrote pgLAST 0x040 (withOp w 7 op)
    let expert := (s.blk.hdr pgLAST).level
    let loading := l.activity = .pass1 ∨ l.activity = .pass2
    let pend := l.activity = .commitPend ∨ l.activity = .rollbackPend
    let cmd (op : Word) : Prop := s.blk.writes pgLAST 0x040 (withOp w 7 op) = true
    (cmd 1 → l.activity = .idle → expert = true → s.blk.rm.onDuty = true →
      let a : SegAddr := { seg := s.blk.regFld pgLAST 0x044 5 0, off := s.blk.reg pgLAST 0x04C ++ s.blk.reg pgLAST 0x048 }
      let load : Load := { addr := a, window := 1 }
      let b := prefetch { b 1 with last := { l with activity := .pass1, prog := 0, load } } a.seg ((a.off >>> 12 <<< 12) + 4096)
      ∀ b' res, xlate b { seg := a.seg, off := a.off, op := opLoad, cont := .loader } = (b', res) →
        let asked (b : Block) (ph : Phase) : Block := { b with last := { b.last with load := { load with phase := some ph } } }
        match res with
        | .ok pa dev =>
          sharedTrk b' < 512 → Puts s (.lastLoad w) (asked { b' with otherFills := b'.otherFills + 1 } (.issued pa dev true))
        | .wait => Puts s (.lastLoad w) (asked b' .walk)
        | .fault _ _ => Puts s (.lastLoad w) (b'.loadErr { reason := 20, off := some 0 })) ∧
    (cmd 2 → l.activity = .idle → l.inactive = .staged → Puts s (.commit w) { b 2 with last := { l with activity := .commitPend } }) ∧
    (cmd 3 → l.activity = .idle → l.inactive = .previous →
      Puts s (.rollback w) { b 3 with last := { l with activity := .rollbackPend } }) ∧
    (cmd 4 → l.paused = false →
      (l.activity = .pass1 → Puts s (.abort w) ((b 4).loadErr { reason := 23 })) ∧
      (l.activity = .pass2 → Puts s (.abort w) (((b 4).setInactive {} .empty).loadErr { reason := 23 })) ∧
      (pend → Puts s (.abort w) { b 4 with last := { l with activity := .idle } })) ∧
    (cmd 5 → l.activity = .idle → expert = false → s.blk.rmBusy = false →
      let b' : Block := { b 5 with last := { l with activity := .pass2, prog := 0, load := { build := true } } }
      Puts s (.build w) ((b'.setInactive { basic := some s.blk.basicImg } .empty).unverify)) ∧
    (let refused (i : Instr) (op : Word) (e : BitVec 3) : Prop :=
       Puts s i ({ b op with last := { l with cmdErr := e } }.flag pgLAST 3)
     (∀ (i : Instr) (op : Word) (e : BitVec 3),
      (op = 1 ∧ i = .lastLoad w) ∨ (op = 2 ∧ i = .commit w) ∨ (op = 3 ∧ i = .rollback w) ∨ (op = 4 ∧ i = .abort w) ∨
        (op = 5 ∧ i = .build w) → cmd op →
      let level := (op = 1 ∧ expert = false) ∨ (op = 5 ∧ expert = true)
      (e = 5 ∧ level) ∨ (e = 1 ∧ op ≠ 4 ∧ ¬ level ∧ (loading ∨ (op = 5 ∧ s.blk.rmBusy = true))) ∨
        (e = 2 ∧ op ≠ 4 ∧ ¬ level ∧ pend ∧ (op = 5 → s.blk.rmBusy = false)) ∨
        (e = 3 ∧ op = 2 ∧ l.activity = .idle ∧ l.inactive ≠ .staged) ∨
        (e = 4 ∧ op = 3 ∧ l.activity = .idle ∧ l.inactive ≠ .previous) ∨
        (e = 6 ∧ op = 4 ∧ (l.activity = .idle ∨ l.paused = true)) →
      refused i op e) ∧
     (cmd (undefOp w.data 7 1 5) → refused (.lastBadop w) (undefOp w.data 7 1 5) 7))

/-- LOAD_PASSn_DONE brings what memory holds to the reads in flight; their trackers come back, no read waiting for one. A
line in error ends pass 1 with reason 20, pass 2 with 22 and the bank EMPTY. After pass 1's last line a failed check ends
the load with its reason; with none PASS2 begins with its first lines, the inactive bank EMPTY and unverified. An image that
passes has the magic number, the local INST, PIN_COUNT at most 36,864, SRC_ORDER 8 to 24, the discard class as class 0, KIND
at most 4, set counts at most 64, ring orders 0 or 4 to 20, and its CRC. After pass 2's last line, with the CRC of pass 1,
the inactive bank holds the sections as read, STAGED, with LOAD_DONE; another CRC ends with reason 21, the bank EMPTY.
BUILD_DONE of a built bank, when the Ringmaster can, no named context busy or waiting for a slot: each is made resident and
seated, and a COMMIT is pending with LOAD_DONE; the one context of an image with messages only, absent, with a free slot and
an empty host seat, is resident, basic, owned by the PMF and current there. Nothing else changes. (04_the_last.md R127; 04_the_last.md R128; 04_the_last.md R132; 04_the_last.md Table 4-9; 04_the_last.md R140; 04_the_last.md R141) -/
def Obligations.LoaderPassesAndBuildsEnd : Prop :=
  (∀ (s : State) (r0 : ImgRead) (i : Instr) (pa : BitVec 64) (dev sh : Bool),
    let l := s.blk.last
    (l.activity = .pass1 ∧ i = .loadPass1Done r0 ∧ s.blk.rmFrozen = false) ∨
      (l.activity = .pass2 ∧ l.load.build = false ∧ i = .loadPass2Done r0) →
    l.load.phase = some (.issued pa dev sh) → s.blk.xl.orphans = [] → s.blk.xl.trkWait = [] →
    let r := l.load.data.getD r0
    let b : Block := { s.blk with last := { l with load := { l.load with data := some r } } }
    -- after n lines of the pass
    let read (n : Nat) : Block := { b with
      otherFills := s.blk.otherFills - l.load.window
      last := { b.last with prog := BitVec.ofNat 32 n, load := { b.last.load with pos := n, phase := none } } }
    (∀ n, b.badLine r = some n →
      let b' := read (l.load.pos + (n - b.loadLine l.load.pos))
      (l.activity = .pass1 → Makes s i (b'.loadErr { reason := 20, off := some n })) ∧
      (l.activity = .pass2 → Makes s i ((b'.setInactive {} .empty).loadErr { reason := 22, off := some n }))) ∧
    (b.badLine r = none →
      let n := l.load.pos + l.load.window
      (l.activity = .pass1 → b.loadLines ≤ n →
        let g := imgOf r.bytes
        (∀ e, g.check s.blk.inst none = some e →
          let c := read n
          Makes s i ({ c with last := { c.last with load := { c.last.load with pass1 := r.bytes } } }.loadErr e)) ∧
        (g.check s.blk.inst none = none →
          let c := (read n)
          let load : Load := { c.last.load with pass1 := r.bytes }
          Makes s i ((({ c with last := { c.last with load } }.setInactive {} .empty).unverify).loadPass .pass2
            { load with partCrc := g.partCrc g }))) ∧
      (l.activity = .pass2 → Img.lines2 ≤ n →
        let g := imgOf l.load.pass1
        let two := imgOf r.bytes
        (g.partCrc two = l.load.partCrc →
          let c := (read n).setInactive (g.bank l.load.addr two) .staged
          Makes s i ({ c with last := { c.last with activity := .idle } }.flag pgLAST 0)) ∧
        (g.partCrc two ≠ l.load.partCrc → Makes s i (((read n).setInactive {} .empty).loadErr { reason := 21 }))))) ∧
  (∀ (g : Img) (inst : BitVec 16), g.check inst none = none →
    g.num 0 4 = 0x5453414C ∧ g.inst = inst ∧ g.num 0x24 2 ≤ 36864 ∧ 8 ≤ g.srcOrder ∧ g.srcOrder ≤ 24 ∧
    (g.rte 0).kind = 0 ∧ (g.rte 0).ringValid = false ∧ (∀ k, k < 4096 → (g.rte k).kind.toNat ≤ 4) ∧
    (∀ k, k < 1024 → g.setCount k ≤ 64) ∧
    (∀ r, r < 16384 → (g.ring r).order = 0 ∨ (4 ≤ (g.ring r).order.toNat ∧ (g.ring r).order.toNat ≤ 20)) ∧
    BitVec.ofNat 32 (g.num 0x1C 4) = g.crc) ∧
  (∀ (s : State) (m : BasicImg), s.blk.other.basic = some m → s.blk.last.activity = .pass2 → s.blk.last.load.build = true →
    s.blk.rmBusy = false → s.blk.rmFrozen = false →
    (∀ t ∈ s.blk.basicThreads m, s.blk.ctxBusy (BitVec.ofNat 16 t) = false) →
    let b := (s.blk.basicThreads m).foldl Block.buildCtx s.blk
    ((∀ t ∈ s.blk.basicThreads m, (b.rec? (BitVec.ofNat 16 t)).isSome = true ∨ b.tableOn (BitVec.ofNat 16 t) = false) →
      Makes s .buildDone
        ({ b with last := { b.last with activity := .commitPend, inactive := .staged, load := {} } }.flag pgLAST 0)) ∧
    (bit m.ctl 1 = true → bit m.ctl 0 = false →
      let t := (fld m.msg 10 0).toNat % s.blk.threads
      let c : CtxNo := BitVec.ofNat 16 t
      ∀ k, s.blk.rec? c = none → s.blk.freeSlot (ctxBank c) = some k → s.blk.seatTaken (2 * t) = false →
        Gives s .buildDone fun b =>
          b.rec? c = some { slot := BitVec.ofNat 12 k, basic := true, dirty := true, seat := some (2 * t) } ∧
          (b.seatOf (2 * t)).ctx = some c ∧ b.last.activity = .commitPend))

/-- BANK_FLIP between cycles B and S with no event before a route engine: the other bank is active, the old one PREVIOUS,
the machine IDLE, LAST_SW_GT holds GT, REF_VALID is 0, every station cache, output queue and miss buffer is empty and
nothing resumed keeps a result; with no differing ring fields SETTLED stays 1 and its flag is set with SWITCHED, else
SETTLED is 0 while changed rings remain. RING_SETTLE of a changed ring whose records and index writes are done: an open
window is flushed; with none its indexes, overflow count and fault are cleared and it is no longer changed; the last of them
sets SETTLED and its flag. CFG_CRC_COMMIT, with no objection of Table 12-3, immediate, copies CFG_CRC_CUR to CFG_CRC_REF and
sets REF_VALID; a write of CFG_CRC_REF takes its value and sets REF_VALID. The page is locked again, the port answers OK,
and nothing else changes. (04_the_last.md R129; 04_the_last.md R130; 04_the_last.md R131; 04_the_last.md R134; 12_registers_and_turnstile.md Table 12-3) -/
def Obligations.SwitchesAndReferences : Prop :=
  (∀ (s : State), s.blk.last.paused = true → (∀ e ∈ s.blk.eng.cells, e.2.inq = []) →
    Gives s .bankFlip fun b =>
      b.last.active = !s.blk.last.active ∧ b.last.inactive = .previous ∧ b.last.activity = .idle ∧ b.last.paused = false ∧
      b.last.swGt = s.blk.gt ∧ b.last.refValid = false ∧ b.last.a = s.blk.last.a ∧ b.last.b = s.blk.last.b ∧
      (∀ k, k < 8 → (b.station k).sets = .empty ∧ (b.station k).parked = [] ∧ (b.station k).outq = .empty ∧
        ∀ x ∈ (b.station k).resumedMsg ++ (b.station k).resumedWired, x.attr = none) ∧
      b.last.settled = b.last.changed.cells.isEmpty ∧
      (s.blk.changedRings.cells = [] → b.last.changed = s.blk.last.changed) ∧
      (s.blk.changedRings.cells = [] → s.blk.last.changed.cells = [] → (∀ x ∈ s.blk.ras.badRings, bit x 23 = s.blk.last.active) →
        (b.hdr pgLAST).flags = (s.blk.hdr pgLAST).flags ||| 0x84)) ∧
  (∀ (s : State) (r : RingNo), (s.blk.last.changed.find? r.toNat).isSome = true → s.blk.indexBusy r = false →
    (s.blk.ringOf r).tgtPend = false → (∀ x ∈ s.blk.staged r, x.ph = .queued) →
    ((s.blk.car.windows.find? r.toNat).isSome = true → Makes s (.ringSettle r) (s.blk.closeWindow r flushExp)) ∧
    (s.blk.car.windows.find? r.toNat = none →
    let m := s.blk.last.changed.erase r.toNat
    let b := { s.blk with last := { s.blk.last with changed := m, settled := m.cells.isEmpty } }.setRing r { faulted := s.blk.badRing r }
    Makes s (.ringSettle r) (if m.cells.isEmpty then b.flag pgLAST 7 else b))) ∧
  (∀ (s : State) (w : RegAcc), w.als = .base →
    (s.blk.writes pgLAST 0x07C (withOp w 1 1) = true →
      let b := s.blk.wrote pgLAST 0x07C (withOp w 1 1)
      Puts s (.cfgCrcCommit w) { b.setReg pgLAST 0x074 s.blk.last.crcCur with last := { s.blk.last with refValid := true } }) ∧
    (s.blk.writes pgLAST 0x074 w = true →
      let b := s.blk.wrote pgLAST 0x074 w
      Puts s (.cfgCrcRef w) { b.setReg pgLAST 0x074 w.data with last := { s.blk.last with refValid := true } }))

/-- With no objection of Table 12-3, immediate; the page is locked again, the port answers OK. APPLY of XU_SEG_SEL: its
descriptor is the staged one, no TLB entry of it is left, every other entry stays in order, BUSY is set, no walk in flight
will install, and besides only prefetch counts, registers, flags and the log queue can change. FETCH puts the descriptor in
the staging registers and changes nothing else. XU_INV with GO, SCOPE 0 to 2, does the same to the TLB for the entries that
SCOPE names (all, the segment's, the page's at XU_INV_OFF) and leaves the segments. While BUSY, APPLY and GO set INV_IGNORED
and do nothing else. XU_INV_DONE, with no such walk left and no access that holds a translation of before unissued: BUSY
falls, INV_COUNT rises by 1, INV_DONE is set, and nothing else changes. (10_translation.md R277; 10_translation.md R289; 10_translation.md R283; 12_registers_and_turnstile.md Table 12-3) -/
def Obligations.SegmentsAndInvalidations : Prop :=
  (∀ (s : State) (w : RegAcc), w.als = .base →
    let sel : BitVec 6 := s.blk.regFld pgXU 0x054 5 0
    let seg_ (op : Word) : Block := s.blk.wrote pgXU 0x058 (withOp w 3 op)
    let b := s.blk.wrote pgXU 0x044 (withOp w 4 4)
    let removes (c b : Block) (p : TlbEnt → Bool) : Prop :=
      b.xl.tlb.cells = (c.xl.tlb.cells.map fun x => (x.1, x.2.filter fun e => !p e)).filter (fun x => !x.2.isEmpty) ∧
      b.xl.inv.isSome = true ∧ (∀ x ∈ b.xl.walkers.cells, x.2.noInstall = true) ∧
      b = { c with xl := b.xl, eng := b.eng, fab := b.fab, rm := b.rm } ∧
      b.xl = { c.xl with tlb := b.xl.tlb, inv := b.xl.inv, walkers := b.xl.walkers, segs := b.xl.segs } ∧
      (∀ n, n < 16 → b.engine n = { c.engine n with prefetch := (b.engine n).prefetch })
    (s.blk.writes pgXU 0x058 (withOp w 3 1) = true →
      (s.blk.xl.inv.isSome = true → Puts s (.segApply w) ((seg_ 1).flag pgXU 3)) ∧
      (s.blk.xl.inv = none → Gives s (.segApply w) fun c =>
        removes (seg_ 1) c (fun e => e.seg == sel) ∧ c.xl.segs = s.blk.xl.segs.set {} sel.toNat s.blk.stagedSeg)) ∧
    (s.blk.writes pgXU 0x058 (withOp w 3 2) = true →
      let d := s.blk.segm sel
      Puts s (.segFetch w)
        ((((((((seg_ 2).setReg pgXU 0x05C (flagAt d.valid 0 ||| flagAt d.dev 1)).setReg pgXU 0x060 (fld d.base 31 0)).setReg pgXU 0x064
          ((fld d.base 35 32).setWidth 32)).setReg pgXU 0x068 (fld d.limit 31 0)).setReg pgXU 0x06C
          ((fld d.limit 35 32).setWidth 32)).setReg pgXU 0x070 (fld d.root 31 0)).setReg pgXU 0x074
          ((fld d.root 51 32).setWidth 32))) ∧
    (s.blk.writes pgXU 0x044 (withOp w 4 4) = true →
      let scope := fld w.data 1 0
      let seg := fld w.data 13 8
      let off : BitVec 48 := fld (s.blk.reg pgXU 0x04C) 15 0 ++ s.blk.reg pgXU 0x048
      let vpn : BitVec 36 := BitVec.ofNat 36 ((s.blk.segm seg).base.toNat + off.toNat / 4096)
      (s.blk.xl.inv.isSome = true → Puts s (.xuInv w) (b.flag pgXU 3)) ∧
      (s.blk.xl.inv = none → scope ≠ 3 → Gives s (.xuInv w) fun c =>
        removes b c (fun e => scope == 0 || (e.seg == seg && (scope == 1 || e.vpn == vpn))) ∧ c.xl.segs = s.blk.xl.segs))) ∧
  (∀ (s : State) (v : XuInv), s.blk.xl.inv = some v → (∀ x ∈ s.blk.xl.walkers.cells, x.2.noInstall = false) →
    v.held.inter s.blk.unissuedNow = {} →
    Makes s .xuInvDone ({ s.blk with xl := { s.blk.xl with inv := none, invCount := s.blk.xl.invCount + 1 } }.flag pgXU 2))

/-- WALK_START, the oldest miss in its segment, its page neither in the TLB nor walked, its first table outside the device
windows: the lowest free walker begins at level 4 at the root, with every other waiting miss of the page attached, and
besides only counters, their flags and the log queue change. WALK_READ_RESPONSE: an entry with V = 0, an error, or the next
table in a device window ends the walk with cause 3, 7 or 6 and its level for every attached operation in order; a valid
entry above level 1 leads on to its PPN a level lower; a leaf with W and X ends with cause 5; another is installed, unless
an invalidation came meanwhile, and serves the attached operations in order, whose accesses not issued that invalidation
then waits for. FAULT_REPORT makes the oldest report: the log slot NEXT, the record to the ring, cause FAULT of the owner,
XU_FAULT and FAULT. With the 0x00903 insert enabled it asks for the insert, and makes the report when the arbiter of the
bank picks it. Nothing else changes. (10_translation.md R281; 10_translation.md R284; 10_translation.md R285; 10_translation.md R286; 10_translation.md R290; 10_translation.md Table 10-4; 10_translation.md R292; 10_translation.md R293) -/
def Obligations.WalksServeTheirOperations : Prop :=
  (∀ (s : State) (q : XReq) (rest : List XReq) (w : Nat), s.blk.xl.waitq = q :: rest →
    let d := s.blk.segm q.seg
    let va : BitVec 48 := BitVec.ofNat 48 (xVa d q.off)
    let vpn := reqVpn s.blk q
    segCheck d q.off = none → (∀ e ∈ s.blk.xl.tlb.get [] (tlbSet q.seg vpn), e.seg ≠ q.seg ∨ e.vpn ≠ vpn) →
    (∀ x ∈ s.blk.xl.walkers.cells, x.2.seg ≠ q.seg ∨ x.2.va.extractLsb' 12 36 ≠ vpn) → w < 64 →
    s.blk.xl.walkers.find? w = none → (∀ v, v < w → s.blk.xl.walkers.find? v ≠ none) →
    let same (y : XReq) : Bool := (y.seg == q.seg && reqVpn s.blk y == vpn)
    let x : Walker := { seg := q.seg, va, level := 4, table := d.root, dev := d.dev, waiting := q :: rest.filter same }
    inDevWindow s.blk (walkAddr x) = false →
    Gives s .walkStart fun b => Block.Notes [pgXU, pgPMU, pgRM]
      { s.blk with xl := { s.blk.xl with waitq := rest.filter (fun y => !same y), walkers := s.blk.xl.walkers.insert w x } } b) ∧
  (∀ (s : State) (w : BitVec 6) (x : Walker) (r : WalkResp), s.blk.xl.walkers.find? w.toNat = some x →
    let c : Block := { s.blk with xl := { s.blk.xl with walkers := s.blk.xl.walkers.erase w.toNat } }
    let faults (cause : BitVec 4) (level : BitVec 3) : Prop :=
      Makes s (.walkReadResponse w r) (x.waiting.foldl (Block.xFault cause level) c)
    ((∀ e, r ≠ .ok e) → faults 7 x.level) ∧
    (∀ e, r = .ok e →
      (bit e 0 = false → faults 3 x.level) ∧
      (bit e 0 = true → 1 < x.level.toNat →
        let y : Walker := { x with table := e.extractLsb' 12 52, level := x.level - 1 }
        (inDevWindow s.blk (walkAddr y) = true → faults 6 (x.level - 1)) ∧
        (inDevWindow s.blk (walkAddr y) = false → Makes s (.walkReadResponse w r)
          { s.blk with xl := { s.blk.xl with walkers := s.blk.xl.walkers.insert w.toNat y } })) ∧
      (bit e 0 = true → x.level.toNat ≤ 1 → bit e 2 = true → bit e 3 = true → faults 5 1) ∧
      (bit e 0 = true → x.level.toNat ≤ 1 → (bit e 2 = false ∨ bit e 3 = false) →
        let t : TlbEnt := { seg := x.seg, vpn := x.va.extractLsb' 12 36, ppn := e.extractLsb' 12 52, r := bit e 1, w := bit e 2,
                            u := bit e 4, s := bit e 5, dev := x.dev, unused := x.waiting.all XReq.silent }
        Makes s (.walkReadResponse w r) (if x.noInstall then (x.waiting.foldl (Block.xServe t) c).staleServed c.unissuedNow
          else x.waiting.foldl (Block.xServe t) (tlbInstall c t))))) ∧
  (∀ (s : State) (r : Report) (rest : List Report), s.blk.xl.reports = r :: rest →
    let n := s.blk.xl.flogNext
    let b0 : Block := { s.blk with xl := { s.blk.xl with
      reports := rest, flog := s.blk.xl.flog.insert n.toNat r, flogNext := n + 1 } }
    let ring := s.blk.reg pgXU 0x078
    let ev := s.blk.reg pgXU 0x07C
    let w1 : Word := n.setWidth 32 ||| at' r.cause 6 ||| at' r.op 10 ||| at' r.owner 14
    let rcd : Rec := { vevent := 0x00903, prio := fld ev 21 16, type := 0xB, w1, gt := r.gt }
    let b1 := if bit ring 15 = true then b0.ownRecord (fld ring 13 0) rcd true false else b0
    (bit ev 22 = false → Makes s .faultReport ((((b1.ownerCause r.owner 6).cnt pgXU 0x0C4).flag pgXU 0))) ∧
    (bit ev 22 = true → s.blk.reportAsked = false →
      let c : CtxNo := fld ev 15 0
      let a := s.blk.ask16 { ctx := c, entry := bankedEntry 0x00903 (fld ev 21 16) 0, report := true }
      (s.blk.bank (ctxBank c)).in16 = [] →
      (a.bankPick (ctxBank c) ≠ some 16 → Makes s .faultReport a) ∧
      (a.bankPick (ctxBank c) = some 16 →
        Gives s .faultReport fun b => b.xl.flog.find? n.toNat = some r ∧ b.xl.flogNext = n + 1)))

/-- While the port takes frames and, but for HELLO, is up. EVENT_FRAME: a frame joins its FIFO and its counter; the head
without payload, for this instance, where the arbiter of its bank's port picks the Juwa port for it, is admitted like a
re-entry when P = M = 0, held with P set and the PMU event when M = 1 and P = 0; another head enters the pinned, VC1 or VC0
lane of engine OENG with HOPS one more, when it has room; its slot is freed. CREDIT adds credits and releases the oldest
trackers of each VC. TIME stamps, computes theta and delay, rounded down, when it echoes, and steers GT when the follower
follows the port and the frame is valid. HELLO loads the peer and its credits, wakes it, and a port whose link is ready
comes up with LINK_UP once it has sent its own; its own number sets SELF_LOOP. SLEEP sets PEER_ASLEEP and, where the arbiter
picks it at once, is answered by SLEEP_ACK; a SLEEP_ACK after the SLEEP sent is noted. A discarded frame counts in
JL_BADFRAME, sets BADFRAME and JL_LASTERR. Nothing else changes. (11_federation.md R300; 11_federation.md R303; 11_federation.md R304; 11_federation.md R306; 11_federation.md R310; 11_federation.md R311; 11_federation.md R313; 11_federation.md R314; 11_federation.md Table 11-3) -/
def Obligations.JuwaFramesArrive : Prop :=
  ∀ (s : State) (p : Fin 4), s.blk.portOn p = true →
    let j := s.blk.port p
    let frees (vc : Bool) (rest : List Frame) : JPort :=
      let since := if j.ret0 + j.ret1 = 0 then s.blk.clk.dclk else j.retSince
      if vc then { j with rx1 := rest, ret1 := j.ret1 + 1, retSince := since }
      else { j with rx0 := rest, ret0 := j.ret0 + 1, retSince := since }
    (∀ beats, frameRx beats = .bad none →
      let r := ((s.blk.cnt pgJL 0x04C).setReg pgJL 0x054 (at' (4 : BitVec 4) 16 ||| at' (BitVec.ofNat 2 p) 20)).flag pgJL 4
      Makes s (.hello p beats) r ∧
      (j.up = true → Makes s (.creditFrame p beats) r ∧ Makes s (.timeFrame p beats) r ∧ Makes s (.sleep p beats) r ∧
        Makes s (.sleepAck p beats) r)) ∧
    (j.up = true →
      (∀ vc arr f, frameRx arr = .event f → (if vc then j.rx1 else j.rx0) = [] → f.vc ≠ vc →
        (if f.vc then j.rx1 else j.rx0).length < (if f.vc then 64 else 192) →
        Makes s (.eventFrame p vc arr)
          ((s.blk.setPort p (if f.vc then { j with rx1 := j.rx1 ++ [f] } else { j with rx0 := j.rx0 ++ [f] })).cnt48 pgJL
            (0x098 + 0x20 * p) (0x09C + 0x20 * p))) ∧
      (∀ vc f rest, (if vc then j.rx1 else j.rx0) = f :: rest → f.dest = s.blk.inst → f.plen = 0 →
        let e := f.revent
        let q := evBank e
        let k := q % 8
        s.blk.pendPick q = some (8 + p.val) → s.blk.rxAsks p vc q = true →
        let x := s.blk.pendOf e
        x.p = false →
        (x.m = true → Gives s (.eventFrame p vc []) fun b =>
          Block.Notes [pgPMU, pgRM] (((s.blk.setPend e { x with p := true }).setPort p (frees vc rest)).granted (.pendBank q) (8 + p.val)) b) ∧
        (x.m = false → Makes s (.eventFrame p vc [])
          ((((s.blk.setPend e { x with p := true, fl := some { merge := f.merge, looking := true } }).setStation k
            { s.blk.station k with reentry := (s.blk.station k).reentry ++
              [{ kind := .reentry, src := if wiredRange e then .line (e.setWidth 11) else .self e, pevent := e,
                 trunc := f.trunc }] }).setPort p (frees vc rest)).granted (.pendBank q) (8 + p.val)))) ∧
      (∀ vc f rest out, (if vc then j.rx1 else j.rx0) = f :: rest → f.dest ≠ s.blk.inst → s.blk.outPort f.dest = .inl out →
        f.hops ≠ 15 →
        let g := s.blk.engine f.oeng.toNat
        let l := g.lane out.toNat
        let x : LaneFrame := { fr := { f with hops := f.hops + 1 } }
        let goes (l : Lanes) : Prop := Makes s (.eventFrame p vc [])
          ((s.blk.setEngine f.oeng.toNat { g with lanes := g.lanes.set {} out.toNat l }).setPort p (frees vc rest))
        (f.vc = true → l.vc1 = [] → goes { l with vc1 := laneIn s.blk [] x }) ∧
        (f.vc = false → f.pin = true → l.pin.length < 4 → goes { l with pin := laneIn s.blk l.pin x }) ∧
        (f.vc = false → f.pin = false → l.vc0.length < 4 → goes { l with vc0 := laneIn s.blk l.vc0 x })) ∧
      (∀ beats c0 c1, frameRx beats = .credit c0 c1 → Makes s (.creditFrame p beats)
        (s.blk.setPort p { j with
          cred0 := satAdd j.cred0 c0.toNat, cred1 := satAdd j.cred1 c1.toNat,
          trk := dropTrk true c1.toNat (dropTrk false c0.toNat j.trk) })) ∧
      (∀ beats valid echo tx etx erx, frameRx beats = .time valid echo tx etx erx →
        let rx := s.blk.tu.ns
        let theta : Int := ((rx - tx).toInt - (erx - etx).toInt) / 2
        let delay : Int := ((rx - tx).toInt + (erx - etx).toInt) / 2
        let j1 : JPort := { j with peerValid := valid, echo := some (tx, rx) }
        let b := s.blk.setPort p (if echo then { j1 with theta := BitVec.ofInt 32 theta, delay := BitVec.ofInt 32 delay } else j1)
        Makes s (.timeFrame p beats)
          (if s.blk.tuFollow && s.blk.tuPort == p && valid then (if echo then b.heardFrame.steer theta else b.heardFrame) else b)) ∧
      (∀ beats, frameRx beats = .sleep → j.ctl = [] → j.time = false →
        (s.blk.setPort p { j with peerAsleep := true, ctl := [3] }).txPick p = some 18 →
        Makes s (.sleep p beats)
          ((s.blk.setPort p { j with peerAsleep := true, txOut := [s.blk.ctlBeat 3] }).granted (.juwaTx p) 18)) ∧
      (∀ beats, frameRx beats = .sleepAck → j.sleepSent = true →
        Makes s (.sleepAck p beats) (s.blk.setPort p { j with ackGot := true }))) ∧
    (∀ beats n g0 g1, frameRx beats = .hello n g0 g1 →
      (n = s.blk.inst → Makes s (.hello p beats) (s.blk.flag pgJL 5)) ∧
      (n ≠ s.blk.inst →
        let j1 : JPort := { j with peer := n, helloGot := true, peerAsleep := false, cred0 := g0, cred1 := g1, trk := [] }
        Makes s (.hello p beats)
          (if j.up = false ∧ j.ready = true ∧ j.helloSent = true then (s.blk.setPort p { j1 with up := true }).flag pgJL 0
           else s.blk.setPort p j1)))

/-- Where the arbiter of the transmit port picks the frame and nothing else is presented by the time unit or for control.
JUWA_TRANSMIT, the engine's multicast queue empty: the eligible head of the engine that has waited longest leaves its lane
on its VC, using one credit and one tracker; a transit frame leaves as it is, and besides only counters, flags and the log
queue change; an origin frame without payload carries its merge count. ESCAPE of a VC0 head that has lacked credit for
ESC_CYC cycles marks it. CREDIT_RETURN sends what is owed once CRED_BATCH or 64 cycles are reached. HELLO_SEND of a port
that is down with its link ready, first or after 4,096 cycles; the port comes up if a HELLO has come. WAKE_SEND with an
eligible head and PEER_ASLEEP, first or after 16 us. PORT_UP: the link is ready, and after both HELLOs the port comes up
with LINK_UP. PORT_DOWN: the link is not ready; an up port empties lanes and FIFOs, counting each frame, places origin
arrivals, releases trackers and credits, and sets LINK_DOWN, one not up forgets the HELLOs. JL_PORT_CTL takes its value and,
with EN = 0, the port goes down. Nothing else changes. (11_federation.md R305; 11_federation.md R306; 11_federation.md R307; 11_federation.md R308; 11_federation.md R310; 11_federation.md R312; 12_registers_and_turnstile.md Table 12-3) -/
def Obligations.JuwaPortsSend : Prop :=
  ∀ (s : State) (p : Fin 4),
    let j := s.blk.port p
    let quiet := j.time = false ∧ j.ctl = []
    let fresh : JPort := { ready := j.ready, peer := j.peer, peerValid := j.peerValid, theta := j.theta, delay := j.delay, txOut := j.txOut }
    (s.blk.dpOn = true → j.up = true →
      (quiet → ∀ (n : Fin 16) i x vc, s.blk.txPick p = some n.val → (s.blk.engine n).mcq = [] →
        oldestHead (s.blk.heads p n) = some (i, x, vc) → x.fr.plen = 0 ∨ x.local? = none →
        let g := s.blk.engine n
        let l := g.lane p
        let l' : Lanes := match i with
          | .vc1 => { l with vc1 := laneOut s.blk l.vc1 }
          | .pin => { l with pin := laneOut s.blk l.pin }
          | .vc0 => { l with vc0 := laneOut s.blk l.vc0 }
        let fr : Frame := match x.local? with
          | some e => { x.fr with vc, merge := s.blk.mergeOf e, bytes := [] }
          | none => { x.fr with vc }
        let j' : JPort := { j with
          cred0 := if vc then j.cred0 else j.cred0 - 1, cred1 := if vc then j.cred1 - 1 else j.cred1,
          trk := j.trk ++ [(vc, x.tag)], txOut := eventBeats fr }
        Gives s (.juwaTransmit p n) fun b =>
          b.port p = j' ∧ (b.engine n).lane p = l' ∧
          (x.local? = none → Block.Notes [pgJL, pgPMU, pgRM]
            (((s.blk.setEngine n { g with lanes := g.lanes.set {} p l' }).setPort p j').granted (.juwaTx p) n) b)) ∧
      (∀ (n : Fin 16) x rest,
        let g := s.blk.engine n
        let l := g.lane p
        l.vc0 = x :: rest → x.escaped = false → j.cred0 = 0 →
        (s.blk.regFld pgJL 0x040 15 0).toNat ≤ x.dry →
        Makes s (.escape p n)
          (s.blk.setEngine n { g with lanes := g.lanes.set {} p { l with vc0 := { x with escaped := true } :: rest } })) ∧
      (let batch := (s.blk.regFld pgJL 0x040 23 16).toNat
       quiet → 0 < j.ret0 + j.ret1 → batch ≤ j.ret0 ∨ batch ≤ j.ret1 ∨ j.retSince + 64 ≤ s.blk.clk.dclk →
       s.blk.txPick p = some 17 →
       Makes s (.creditReturn p)
         ((s.blk.setPort p { j with ret0 := 0, ret1 := 0, txOut := [creditBeat j.ret0 j.ret1] }).granted (.juwaTx p) 17)) ∧
      (quiet → j.peerAsleep = true → (∃ n, n < 16 ∧ s.blk.heads p n ≠ []) →
       j.lastWake = 0 ∨ j.lastWake.toNat + 16000 ≤ s.blk.gt.toNat →
       (s.blk.setPort p { j with lastWake := s.blk.gt, ctl := [4] }).txPick p = some 18 →
       Makes s (.wakeSend p)
         ((s.blk.setPort p { j with lastWake := s.blk.gt, txOut := [s.blk.ctlBeat 4] }).granted (.juwaTx p) 18))) ∧
    (s.blk.portOn p = true → j.up = false →
      (quiet → j.ready = true → j.helloSent = false ∨ j.lastHello + 4096 ≤ s.blk.clk.dclk →
        (s.blk.setPort p { j with helloSent := true, lastHello := s.blk.clk.dclk, ctl := [1] }).txPick p = some 18 →
        let j1 : JPort := { j with helloSent := true, lastHello := s.blk.clk.dclk, txOut := [s.blk.ctlBeat 1] }
        let b (j : JPort) : Block := (s.blk.setPort p j).granted (.juwaTx p) 18
        Makes s (.helloSend p) (if j.helloGot then (b { j1 with up := true }).flag pgJL 0 else b j1)) ∧
      (j.helloSent = true → j.helloGot = true →
        Makes s (.portUp p) ((s.blk.setPort p { j with ready := true, up := true }).flag pgJL 0)) ∧
      (j.helloSent = false ∨ j.helloGot = false → Makes s (.portUp p) (s.blk.setPort p { j with ready := true }))) ∧
    (j.up = false → Makes s (.portDown p) (s.blk.setPort p { fresh with ready := false, lastHello := j.lastHello })) ∧
    (j.up = true → (∀ e ∈ s.blk.eng.cells, e.2.mcq = []) →
      let gone := s.blk.portLanes p ++ (j.rx0 ++ j.rx1).map fun f => ({ fr := f } : LaneFrame)
      let b : Block := { s.blk with eng := s.blk.eng.mapVals fun _ e => { e with lanes := e.lanes.set {} p {} } }
      Makes s (.portDown p) ((gone.foldl (Block.linkLoss p) (b.setPort p { fresh with ready := false })).flag pgJL 1)) ∧
    (∀ w : RegAcc, s.blk.writes pgJL (0x080 + 0x20 * p) w = true →
      let v := s.blk.stval pgJL (0x080 + 0x20 * p) w
      let b := (s.blk.wrote pgJL (0x080 + 0x20 * p) w).setReg pgJL (0x080 + 0x20 * p) (blend 1 (s.blk.reg pgJL (0x080 + 0x20 * p)) v)
      (bit v 0 = true → Puts s (.jlPortCtl p w) b) ∧
      (bit v 0 = false → j.up = false →
        Puts s (.jlPortCtl p w) (b.setPort p { fresh with lastHello := j.lastHello })) ∧
      (bit v 0 = false → j.up = true → Puts s (.jlPortCtl p w) (b.goDown p)))

/-- While the port is free and serves. A write below 4 bytes and a misaligned access set SIZE or ALIGN in an assigned page
and answer with an error. An aligned 32-bit part: refused by the Turnstile, DENY and the log; to a page that is not
assigned, the log with NOPAGE, also as RESERVED_PAGE_ACCESS; a write while a posted write is on its way, OVERRUN: each with
an error. A write whose grant in the data plane is had at once: through an alias that names a bit that is not RW, ALIAS, and
the RW bits are written; at 0x040 and above of a disabled page, or of a locked KEY register, LOCKVIOL and no effect; without
objection it takes effect at once, is posted, or is held in deferred mode: each answers OK and locks the page. An aligned
64-bit write whose parts find the port free and their grants at once is two parts, the lower address first, with an error if
one met one. A read that passes answers with the register in the lanes of its address. In Intermission the port answers with
an error and notes it, as ACC_ASLEEP does. The unit of the page wakes, the mailbox owner's access restarts its idle time,
the flags of a part advance SEQ by 1 only; nothing else changes. (12_registers_and_turnstile.md Table 12-3; 12_registers_and_turnstile.md R324; 12_registers_and_turnstile.md R326; 12_registers_and_turnstile.md R327; 12_registers_and_turnstile.md R331; 12_registers_and_turnstile.md R333; 12_registers_and_turnstile.md R334; 12_registers_and_turnstile.md R338; 13_clocks_power_supplies.md R363) -/
def Obligations.RegisterAccessesAreChecked : Prop :=
  (∀ (s : State) (a : Access), a.space = .regs → s.blk.portFree = true → s.blk.portMode = .serve →
    let addr := a.addr.toNat
    let id := a.rid
    let pg := addr / 0x4000 % 128
    let al := aliasOf (addr / 0x1000 % 4)
    let off := addr % 0x1000 / 4 * 4
    let at_ : BitVec 14 := BitVec.ofNat 14 (0x1000 * aliasNum al + off)
    let part (wr : Bool) : Bool := s.blk.admits true id pg (off / 4) wr
    ((pgClass pg).isSome = true → a.size.toNat < 2 →
      Makes s (.registerWrite a) ((s.blk.pgErr pg .size id (BitVec.ofNat 14 addr) true).answer true 0)) ∧
    ((pgClass pg).isSome = true → addr % 2 ^ a.size.toNat ≠ 0 →
      Makes s (.registerRead a) ((s.blk.pgErr pg .align id (BitVec.ofNat 14 addr) false).answer true 0) ∧
      (2 ≤ a.size.toNat → Makes s (.registerWrite a) ((s.blk.pgErr pg .align id (BitVec.ofNat 14 addr) true).answer true 0))) ∧
    (a.size = 2 → addr % 4 = 0 →
      (pgClass pg = none →
        (part true = true → Puts s (.registerWrite a) ((s.blk.tsLog 2 id true pg (off / 4)).answer true 0) ∧
          Puts s (.reservedPageAccess a true) ((s.blk.tsLog 2 id true pg (off / 4)).answer true 0)) ∧
        (part false = true → Puts s (.registerRead a) ((s.blk.tsLog 2 id false pg (off / 4)).answer true 0) ∧
          Puts s (.reservedPageAccess a false) ((s.blk.tsLog 2 id false pg (off / 4)).answer true 0))) ∧
      (∀ cl, pgClass pg = some cl → (cl = .csg → s.blk.csgBuilt (pg - 0x40) = true) →
        let d := laneWord addr a.data
        let w : RegAcc := { rid := id, als := al, data := d }
        let q := s.blk.regAsk pg off
        let b := ((s.blk.turn q).relock pg).wakeUnits pg off
        let sub := s.blk.subOf pg off
        let df := defOf cl off
        let v := s.blk.stval pg off w
        let h := s.blk.hdr pg
        let write (c : Block) : Prop := Puts s (.registerWrite a) ((c.mbxTouch id pg off).answer false 0)
        (part false = false → Puts s (.registerRead a)
          (((s.blk.pgErr pg .deny id at_ false).tsLog 1 id false pg (off / 4)).answer true 0)) ∧
        (part false = true → (s.blk.selBad pg off).2 = false → ¬ (pg = pgCAR ∧ off = 0x04C) →
          let c := s.blk.wakeUnits pg off
          Puts s (.registerRead a) ((c.mbxTouch id pg off).answer false (inLane addr (c.readReg id pg cl off)))) ∧
        (part true = false → Puts s (.registerWrite a)
          (((s.blk.pgErr pg .deny id at_ true).tsLog 1 id true pg (off / 4)).answer true 0)) ∧
        (part true = true → 0x40 ≤ off → (s.blk.fab.posted.find? pg).isSome = true →
          Puts s (.registerWrite a) (((s.blk.relock pg).pgErr pg .overrun id at_ true).answer true 0)) ∧
        (part true = true → 0x40 ≤ off → s.blk.fab.posted.find? pg = none → s.blk.turnFree q = true →
          (al ≠ .base → df.rw = 0 → d ≠ 0 → h.enable = true → (df.key = true → h.unlocked = true) →
            write (b.pgErr pg .aliased id at_ true)) ∧
          (al ≠ .base → d &&& ~~~df.rw ≠ 0 → s.blk.takes pg off { w with data := d &&& df.rw } = true →
            df.pst = false → h.apply = false → write ((b.pgErr pg .aliased id at_ true).applyReg id pg cl al off sub v false)) ∧
          (al = .base → h.enable = false ∨ (df.key = true ∧ h.unlocked = false) → write (b.pgErr pg .lockviol id at_ true))) ∧
        (s.blk.takes pg off w = true →
          (df.pst = true → write
            (b.post pg { id, off, al, val := v, defer := h.apply && cl.boundary != 0 && !df.atOnce, old := false })) ∧
          (df.pst = false → h.apply = false → write (b.applyReg id pg cl al off sub v false)) ∧
          (df.pst = false → df.atOnce = false → h.apply = true → cl.boundary ≠ 0 → ¬ (cl = .re ∧ off = 0x04C) →
            ¬ (cl = .trn ∧ off = 0x044) → write (b.holdWrite pg off sub v))))) ∧
    (a.size = 3 → addr % 8 = 0 →
      let ask (b : Block) (x : Nat) : PortAsk :=
        if b.admits true id (pageOf x) (offOf x / 4) true then b.regAsk (pageOf x) (offOf x) else .none
      let one (b : Block) (x : Nat) : Block × Bool :=
        (b.turn (ask b x)).writePart true id (pageOf x) (partOf x) (offOf x) (laneWord x a.data)
      let r1 := one s.blk addr
      let r2 := one r1.1 (addr + 4)
      s.blk.turnFree (ask s.blk addr) = true → r1.1.portFree = true → r1.1.portMode = .serve →
      r1.1.turnFree (ask r1.1 (addr + 4)) = true →
      Makes s (.registerWrite a) (r2.1.answer (r1.2 || r2.2) 0))) ∧
  (∀ (s : State) (a : Access), s.blk.accAsleep = true →
    let b : Block := { s.blk with pwr := { s.blk.pwr with asleepAcc := true } }
    Makes s (.accAsleep a) (b.answer true 0) ∧
    ((∀ t p, a.space ≠ .core t p) → s.blk.portFree = true → s.blk.clk.hung ≠ some .mclk →
      Makes s (.registerWrite a) (b.answer true 0) ∧ Makes s (.registerRead a) (b.answer true 0)))

/-- The port is free and serves. A base-part write of PG_KEY that reaches an assigned page unlocks it with the page's key;
another value locks it and sets KEYBAD. PG_STATCLR with the page's SEQ clears the flags it names, and with bit 10 ERR;
another SEQ sets CLRSTALE. POSTED_WRITE_LAND makes the write take effect, or holds it in deferred mode, and the page is
free; one of page RM waits while MCLK hangs. With no objection of Table 12-3: APPLY gives region TRN_SEL the staged values,
or holds them in deferred mode; FETCH copies the region to staging, or is held in deferred mode; TRN_EPOCH.GO advances
EPOCH, marks the posted writes as older, and DRAINED follows when no older part is left; GLB_INST takes its value once and
sets INST_SET; ADMIT_EN takes its value, clearing STOPPED when set; ADMIT_STOPPED, while it is 0 and no station has anything
left, sets STOPPED and its flag. The page is locked again, the port answers OK, and nothing else changes. (12_registers_and_turnstile.md R325; 12_registers_and_turnstile.md R330; 12_registers_and_turnstile.md R331; 12_registers_and_turnstile.md R334; 12_registers_and_turnstile.md R337; 12_registers_and_turnstile.md R339; 12_registers_and_turnstile.md R342; 12_registers_and_turnstile.md Table 12-3) -/
def Obligations.FabricRegistersAct : Prop :=
  (∀ (s : State) (n : BitVec 7) (cl : PgClass) (w : RegAcc),
    let pg := n.toNat
    pgClass pg = some cl → w.als = .base → s.blk.portFree = true → s.blk.portMode = .serve →
    (cl = .csg → s.blk.csgBuilt (pg - 0x40) = true) → s.blk.fab.posted.find? pg = none →
    let h := s.blk.hdr pg
    (s.blk.admits true w.rid pg 5 true = true →
      let b := s.blk.wakeUnits pg 0x14
      (w.data = 0xA53C ||| BitVec.ofNat 32 pg <<< 16 →
        Puts s (.pgKey n w) (((b.setHdr pg { h with unlocked := true }).even pg 0x800).answer false 0)) ∧
      (w.data ≠ 0xA53C ||| BitVec.ofNat 32 pg <<< 16 →
        Puts s (.pgKey n w) (((b.relock pg).pgErr pg .keybad w.rid 0x14 true).answer false 0))) ∧
    (s.blk.admits true w.rid pg 4 true = true →
      let b := s.blk.wakeUnits pg 0x10
      let h' : PageHdr := { h with unlocked := false }
      (fld w.data 31 24 = h.seq →
        Puts s (.pgStatclr n w) ((b.setHdr pg { h' with
          flags := h.flags &&& ~~~(fld w.data 7 0), clrStale := false, err := h.err && !bit w.data 10,
          errBits := if bit w.data 10 then 0 else h.errBits }).answer false 0)) ∧
      (fld w.data 31 24 ≠ h.seq →
        Puts s (.pgStatclr n w) (((b.setHdr pg { h' with clrStale := true }).even pg 0x200).answer false 0)))) ∧
  (∀ (s : State) (n : BitVec 7) (cl : PgClass) (p : Posted),
    let pg := n.toNat
    pgClass pg = some cl → s.blk.fab.posted.find? pg = some p → ¬ (pg = pgRM ∧ s.blk.rmFrozen = true) →
    let b := s.blk.unpost pg
    let sub := s.blk.subOf pg p.off
    (p.defer = true → Makes s (.postedWriteLand n) (b.holdWrite pg p.off sub p.val)) ∧
    (p.defer = false → s.blk.isHeld pg = false →
      Makes s (.postedWriteLand n) (b.oneSeq (b.applyReg p.id pg cl p.al p.off sub p.val false)))) ∧
  (∀ (s : State) (w : RegAcc), w.als = .base →
    let b (off : Nat) : Block := s.blk.wrote pgTRN off w
    let r : Rgn := { first := s.blk.regFld pgTRN 0x048 13 0, count := s.blk.regFld pgTRN 0x048 30 16, wlo := s.blk.regFld pgTRN 0x04C 9 0,
                     whi := s.blk.regFld pgTRN 0x04C 25 16, rmask := s.blk.reg pgTRN 0x050, wmask := s.blk.reg pgTRN 0x054 }
    let n := (s.blk.regFld pgTRN 0x040 7 0).toNat
    let f := s.blk.fab
    (s.blk.takes pgTRN 0x044 (withOp w 3 1) = true →
      ((s.blk.hdr pgTRN).apply = false →
        Puts s (.trnApply w) ({ b 0x044 with fab := { (b 0x044).fab with rgn := f.rgn.set {} n r } }.flag pgTRN 2)) ∧
      ((s.blk.hdr pgTRN).apply = true →
        Puts s (.trnApply w) ({ b 0x044 with fab := { (b 0x044).fab with rgnHeld := [(n, r)] } }.even pgTRN 0x100))) ∧
    (s.blk.takes pgTRN 0x044 (withOp w 3 2) = true →
      let x := f.rgn.get {} n
      ((s.blk.hdr pgTRN).apply = false →
        Puts s (.trnFetch w)
          (((((b 0x044).setReg pgTRN 0x048 (x.first.setWidth 32 ||| at' x.count 16)).setReg pgTRN 0x04C
            (x.wlo.setWidth 32 ||| at' x.whi 16)).setReg pgTRN 0x050 x.rmask).setReg pgTRN 0x054 x.wmask)) ∧
      ((s.blk.hdr pgTRN).apply = true → Puts s (.trnFetch w) ((b 0x044).holdWrite pgTRN 0x044 0 2))) ∧
    (s.blk.writes pgTRN 0x058 (withOp w 1 1) = true →
      Puts s (.trnEpoch w)
        { b 0x058 with fab := { (b 0x058).fab with
          epoch := f.epoch + 1, draining := true, posted := f.posted.mapVals fun _ p => { p with old := true }, askOld := false } }) ∧
    (s.blk.writes pgGLB 0x048 w = true →
      let c := (s.blk.wrote pgGLB 0x048 w).setReg pgGLB 0x048 (w.data &&& 0xFFFF)
      Puts s (.glbInst w) ({ c with fab := { c.fab with instSet := true } }.flag pgGLB 0)) ∧
    (s.blk.writes pgGLB 0x054 w = true →
      let c := (s.blk.wrote pgGLB 0x054 w).setReg pgGLB 0x054 (blend 1 (s.blk.reg pgGLB 0x054) w.data)
      Puts s (.admitEn w) (if bit w.data 0 then { c with fab := { c.fab with stopped := false } } else c))) ∧
  (∀ (s : State), s.blk.fab.draining = true → s.blk.oldParts = 0 →
    Makes s .trnDrained ({ s.blk with fab := { s.blk.fab with draining := false } }.flag pgTRN 3)) ∧
  (∀ (s : State), s.blk.regBit pgGLB 0x054 0 = false → s.blk.fab.stopped = false → (∀ p ∈ s.blk.stn.cells, p.2.atRest = true) →
    Makes s .admitStopped ({ s.blk with fab := { s.blk.fab with stopped := true } }.flag pgGLB 1))

/-- SIO_JUDGED, SIO's 64 cycles over, enables FIO; FIO_USABLE, CPC_DELAY0 over, takes PD2 to PD4 out of reset with the
checks running. XCHK_WINDOW, FIO good and checks not stopped: the count is kept and shows presence; a checked crystal off
C_ref by more than MON_TOL trips; a window within 6 % of E and near a passed one before adds a pass, and the last pass sets
CHECKED, C_ref and XCHK_PASS, starting the PLLs at start-up; another window starts the count again, and where the PLLs'
crystal, the other one, has tripped and is unusable, all checks stop with XCHK_FAIL. CRYSTAL_MONITOR_TRIP sets MON_TRIP,
logs, restarts the check; of the crystal in use, both PLLs coast at 400 MHz, and they and the TPLL move to the other crystal
if it is checked, else CLK_NOREF and NOREF are set, HOLDOVER either way. FIO_MONITOR_TRIP sets FIO_BAD, FIO_BAD_CLEARED
clears it, DCLK_MONITOR_TRIP moves DCLK from a DPLL that still runs to the MPLL, which runs too, and relocks the DPLL; each
trip sets MON_TRIP, is logged, and PRESENT says whether the source still toggles, which a trip leaves open (a free value,
log 30). Nothing else changes, but for the trip of a crystal in use. (13_clocks_power_supplies.md R345; 13_clocks_power_supplies.md R347; 13_clocks_power_supplies.md R348; 13_clocks_power_supplies.md R349; 13_clocks_power_supplies.md Table 13-2; 15_startup_reset_errors.md Table 15-1) -/
def Obligations.CrystalsAreJudgedAndWatched : Prop :=
  (∀ (s : State),
    (s.blk.pwr.stage = .sio → s.blk.clk.judged ≤ s.blk.clk.ns → Makes s .sioJudged { s.blk with
      pwr := { s.blk.pwr with stage := .fio }
      clk := { s.blk.clk with judged := s.blk.clk.ns + sioNs (s.blk.regFld pgCPC 0x050 15 0).toNat } }) ∧
    (s.blk.pwr.stage = .fio → s.blk.clk.judged ≤ s.blk.clk.ns → Makes s .fioUsable
      { s.blk with
        pwr := { s.blk.pwr with stage := .check, dom := 0x1F }
        clk := { s.blk.clk with present := s.blk.clk.present ||| 3, checkAt := s.blk.clk.ns } })) ∧
  (∀ (s : State) (x : Bool) (count : BitVec 20), s.blk.fioOn = true → s.blk.clk.fioBad = false → s.blk.clk.chkStopped = false →
    let c := count.toNat
    let k : XCheck := { s.blk.clk.xchk x with meas := count }
    let chk (k : XCheck) : Block := { s.blk with clk := s.blk.clk.withXchk x k }.setPresent (xBit x) (c != 0)
    let e := (s.blk.regFld pgCPC 0x064 15 0).toNat * 2 ^ (s.blk.regFld pgCPC 0x068 20 16).toNat
    let tol := (s.blk.regFld pgCPC 0x068 15 0).toNat
    let off := k.cref * (s.blk.regFld pgCPC 0x068 31 24).toNat < ((c : Int) - k.cref).natAbs * 1000
    let near := ((c : Int) * 200000 - e).natAbs * 100 ≤ 6 * e
    let steady := ∀ q, k.prev = some q → ((c : Int) - q).natAbs ≤ max 1 (q * tol / 10 ^ 6)
    let last := (s.blk.regFld pgCPC 0x068 23 21).toNat ≤ k.passes + 1
    (k.checked = true → ¬ off → Makes s (.xchkWindow x count) (chk k)) ∧
    (k.checked = true → off → Makes s (.xchkWindow x count) ((chk k).crystalTrip x (c != 0))) ∧
    (k.checked = false → near → steady → ¬ last →
      Makes s (.xchkWindow x count) (chk { k with passes := k.passes + 1, prev := some c })) ∧
    (k.checked = false → near → steady → last →
      let b := chk { k with checked := true, passes := k.passes + 1, prev := some c, cref := c }
      let b := { b with clk := { b.clk with noref := false } }.flag pgCPC 2
      (s.blk.pwr.stage = .check → Makes s (.xchkWindow x count)
        { b with
          clk := { b.clk with
            refUsed := x, tRefUsed := x, locking := true, tLocking := true, present := b.clk.present ||| 0x70,
            delayD := s.blk.delayOf 1, delayM := s.blk.delayOf 2, delayT := s.blk.delayOf 3 }
          pwr := { b.pwr with stage := .lock } }) ∧
      (s.blk.pwr.stage ≠ .check → s.blk.clk.coast = false → s.blk.tu.noref = false → Makes s (.xchkWindow x count) b)) ∧
    (k.checked = false → ¬ (near ∧ steady) →
      let b := chk { meas := count }
      let both := s.blk.clk.tripped = true ∧ s.blk.clk.coast = true ∧ s.blk.clk.refUsed = !x ∧ (s.blk.clk.xchk (!x)).checked = false
      (¬ both → Makes s (.xchkWindow x count) b) ∧
      (both → Makes s (.xchkWindow x count)
        (({ b with clk := { b.clk with chkStopped := true } }.flag pgCPC 3).clkLog 4 (if x then 1 else 0))))) ∧
  (∀ (s : State) (x : Bool), s.blk.fioOn = true → (s.blk.clk.xchk x).checked = true →
    let b := { s.blk with clk := s.blk.clk.withXchk x { meas := (s.blk.clk.xchk x).meas } }.setPresent (xBit x) false
    let b := (b.flag pgCPC 4).clkLog 1 (if x then 1 else 0)
    ((s.blk.pwr.stage = .check ∨ (s.blk.clk.refUsed ≠ x ∧ s.blk.clk.tRefUsed ≠ x)) → Makes s (.crystalMonitorTrip x) b) ∧
    (s.blk.pwr.stage ≠ .check → s.blk.clk.refUsed = x → s.blk.clk.tRefUsed = x → s.blk.clk.coast = false →
      Gives s (.crystalMonitorTrip x) fun r =>
        r.clk.coast = true ∧ r.clk.mhz = 400 ∧ r.clk.tripped = true ∧ r.clk.slewing = false ∧ r.tu.holdover = true ∧
        r.tu.valid = false ∧ r.tu.goodRevs = 0 ∧ (r.hdr pgCPC).flags &&& 0x11 = 0x11 ∧ (r.clk.xchk x).checked = false ∧
        (if (s.blk.clk.xchk (!x)).checked = true then
          r.clk.refUsed = !x ∧ r.clk.locking = true ∧ r.clk.tRefUsed = !x ∧ r.clk.tLocking = true
         else r.clk.noref = true ∧ r.tu.noref = true ∧ (r.hdr pgCPC).flags &&& 2 = 2 ∧ r.clk.refUsed = x))) ∧
  (∀ (s : State),
    (s.blk.fioOn = true → s.blk.clk.fioBad = false →
      Makes s .fioMonitorTrip
        ((({ s.blk with clk := { s.blk.clk with fioBad := true } }.setPresent 1 (!Config.tripStopped 2 s.blk.clk.ns)).flag pgCPC 4).clkLog 1 2)) ∧
    (s.blk.clk.fioBad = true → Makes s .fioBadCleared ({ s.blk with clk := { s.blk.clk with fioBad := false } }.setPresent 1 true)) ∧
    (s.blk.pllsOn = true → s.blk.clk.mhz ≠ 0 →
      let c := s.blk.clk
      let stopped := Config.tripStopped 3 c.ns
      let moves := c.dclkUsed = false ∧ stopped = false ∧ bit c.present 5 = true
      let b : Block := if moves then { s.blk with clk := { c with
        dpllBad := true, dclkUsed := true, lockD := false, locking := c.locking || !c.coast, slewing := false,
        delayD := s.blk.delayOf 1 } } else s.blk
      Makes s .dclkMonitorTrip (((b.setPresent c.dclkBit (!stopped)).flag pgCPC 4).clkLog 1 3)))

/-- PLL_LOCK, the PLL's lock delay over: a locking PLL locks; the second of DPLL and MPLL ends coasting with RELOCKED, a log
record and a slew to TARGET, after DPLL_BAD the DPLL feeds DCLK again, and the last of three at start-up starts the arrays
at TARGET. PLL_START_NOREF, no crystal checked 16 windows after the checks began: coasting at 400 MHz, CLK_NOREF set, the
arrays start. Posted with no objection of Table 12-3, in immediate mode, and landed: CPC_DPLL stores TARGET as a multiple of
25 from 400 to 1,600, and a locked DPLL slews, while a throttled one is kept for later; CPC_SRC selects the inputs when what
it leaves is present, and a DCLK source left absent hangs the multiplexer; RECHECK starts the failed checks again. SLEW_DONE
ends the slew and sets its flag at TARGET. CLK_MUX_HUNG, 64 SIO cycles after the multiplexer hung, counts, flags, reports
and logs, then forces it; for MCLK the Ringmaster restarts and the register fabric is reset. UNIT_GATE stops the clock of a
unit idle for its cycles, or starts a unit's clock. Nothing else changes. (13_clocks_power_supplies.md R346; 13_clocks_power_supplies.md R349; 13_clocks_power_supplies.md R350; 13_clocks_power_supplies.md R351; 13_clocks_power_supplies.md R352; 13_clocks_power_supplies.md R354; 15_startup_reset_errors.md R394; 12_registers_and_turnstile.md R334) -/
def Obligations.PllsSlewAndMultiplexersSwitch : Prop :=
  (∀ (s : State), s.blk.pllsOn = true →
    let c := s.blk.clk
    let first (c : Clk) : Block := { s.blk with clk := c }
    let dueD := c.delayD.due ≤ c.ns
    let dueM := c.delayM.due ≤ c.ns
    let dueT := c.delayT.due ≤ c.ns
    let p4 := setBit c.present 4 true
    let p5 := setBit c.present 5 true
    (c.locking = true → c.coast = false → c.lockD = false → c.lockM = false →
      (c.dpllBad = false → dueD → Makes s (.pllLock .dpll) (first { c with lockD := true, present := p4 })) ∧
      (dueM → Makes s (.pllLock .mpll) (first { c with lockM := true, present := p5 }))) ∧
    (c.locking = true → c.coast = true → s.blk.pwr.stage ≠ .lock → c.dpllBad = false →
      let c' : Clk := { c with
        lockD := true, lockM := true, locking := false, coast := false, tripped := false, noref := false,
        slewing := c.slewing || c.mhz != s.blk.target }
      let r (p : BitVec 7) : Block :=
        (({ s.blk with clk := { c' with present := p } } : Block).flag pgCPC 6).clkLog 3 (if c.refUsed then 1 else 0)
      (c.lockM = true → c.lockD = false → dueD → Makes s (.pllLock .dpll) (r p4)) ∧
      (c.lockD = true → c.lockM = false → dueM → Makes s (.pllLock .mpll) (r p5))) ∧
    (c.locking = true → c.lockD = false → c.lockM = true → c.dpllBad = true → c.coast = false → s.blk.pwr.stage ≠ .lock → dueD →
      Makes s (.pllLock .dpll) (first { c with
        lockD := true, present := p4, dpllBad := false, mhz := s.blk.target, dclkUsed := s.blk.regBit pgCPC 0x040 1, locking := false,
        tripped := false, noref := false })) ∧
    (c.tLocking = true → c.lockT = false → dueT →
      let b : Block := { s.blk with
        clk := { c with lockT := true, tLocking := false }
        tu := { s.blk.tu with noref := false } }
      (s.blk.pwr.stage ≠ .lock → Makes s (.pllLock .tpll) b) ∧
      (s.blk.pwr.stage = .lock → c.lockD = true → c.lockM = true → s.blk.pwr.dpGood = true → c.coast = false →
        Makes s (.pllLock .tpll)
        { b with
          clk := { b.clk with
            mhz := s.blk.target, mclkUsed := s.blk.regBit pgCPC 0x040 2, dclkUsed := s.blk.regBit pgCPC 0x040 1 }
          tu := { b.tu with runs := true }
          pwr := { b.pwr with stage := .arrays, at_ := c.ns } }))) ∧
  (∀ (s : State), s.blk.pwr.stage = .check → s.blk.clk.xa.checked = false → s.blk.clk.xb.checked = false →
    s.blk.clk.checkAt + s.blk.windowsNs 16 ≤ s.blk.clk.ns → s.blk.pwr.dpGood = true →
    let b : Block := { s.blk with
      clk := { s.blk.clk with
        coast := true, noref := true, present := s.blk.clk.present ||| 0x70, mhz := 400,
        mclkUsed := s.blk.regBit pgCPC 0x040 2, dclkUsed := s.blk.regBit pgCPC 0x040 1 }
      tu := { s.blk.tu with noref := true, runs := true }
      pwr := { s.blk.pwr with stage := .arrays, at_ := s.blk.clk.ns } }
    Makes s .pllStartNoref (b.flag pgCPC 1)) ∧
  (∀ (s : State) (w : RegAcc), w.als = .base →
    (s.blk.posts pgCPC 0x04C w = true →
      let t : Word := (BitVec.ofNat 11 (max 400 (min 1600 ((fld w.data 10 0).toNat / 25 * 25)))).setWidth 32
      let put (b : Block) : Block := b.setReg pgCPC 0x04C (blend 0x7FF (s.blk.reg pgCPC 0x04C) t)
      (s.blk.rm.throttled = true → Lands s (.cpcDpll w) pgCPC 0x04C w fun b => { b with rm := { b.rm with kept := t } }) ∧
      (s.blk.rm.throttled = false → s.blk.clk.lockD = true ∧ s.blk.clk.coast = false →
        Lands s (.cpcDpll w) pgCPC 0x04C w fun b => { put b with clk := { b.clk with slewing := true } }) ∧
      (s.blk.rm.throttled = false → s.blk.clk.lockD = false ∨ s.blk.clk.coast = true → Lands s (.cpcDpll w) pgCPC 0x04C w put)) ∧
    (s.blk.posts pgCPC 0x040 w = true → s.blk.clk.hung = none → s.blk.clk.coast = false → s.blk.pllsOn = true →
      let c := s.blk.clk
      let d := w.data
      let put (b : Block) : Block := b.setReg pgCPC 0x040 (blend 7 (s.blk.reg pgCPC 0x040) d)
      let refOk := bit d 0 = c.refUsed ∨ bit c.present (xBit (!bit d 0)) = true
      let mclkOk := bit d 2 = c.mclkUsed ∨ bit c.present (if bit d 2 then 5 else 1) = true
      let dclkHere := bit c.present (if c.dclkUsed then 5 else 4) = true
      (refOk → mclkOk → bit d 1 = c.dclkUsed ∨ dclkHere → Lands s (.cpcSrc w) pgCPC 0x040 w fun b =>
        { put b with clk := { b.clk with refUsed := bit d 0, dclkUsed := bit d 1, mclkUsed := bit d 2 } }) ∧
      (bit d 0 = c.refUsed → bit d 2 = c.mclkUsed → bit d 1 ≠ c.dclkUsed → ¬ dclkHere → Lands s (.cpcSrc w) pgCPC 0x040 w fun b =>
        { put b with clk := { b.clk with hung := some .dclk, hungAt := b.clk.ns } })) ∧
    (s.blk.posts pgCPC 0x074 (withOp w 3 1) = true →
      let go (k : XCheck) : XCheck := if k.checked then k else { meas := k.meas }
      Lands s (.recheck w) pgCPC 0x074 (withOp w 3 1) fun b =>
        { b with clk := { b.clk with chkStopped := false, xa := go b.clk.xa, xb := go b.clk.xb } })) ∧
  (∀ (s : State), s.blk.clk.slewing = true → s.blk.clk.mhz = s.blk.target →
    Makes s .slewDone ({ s.blk with clk := { s.blk.clk with slewing := false } }.flag pgCPC 7)) ∧
  (∀ (s : State) (m : Mux), s.blk.clk.hung = some m → s.blk.clk.hungAt + sioNs 64 ≤ s.blk.clk.ns →
    let rec_ (code : BitVec 2) : Block :=
      ((({ s.blk with clk := { s.blk.clk with hung := none, hungMux := code } }.cntHalf pgCPC 0x080 false).flag pgCPC 5).rasEvent
        18).clkLog 5 (code.setWidth 16)
    (m = .dref → Makes s (.clkMuxHung m) ((rec_ 1).relockOn (s.blk.regBit pgCPC 0x040 0))) ∧
    (m = .dclk → Makes s (.clkMuxHung m)
      (({ rec_ 2 with clk := { (rec_ 2).clk with dclkUsed := s.blk.regBit pgCPC 0x040 1 } } : Block).dpRestart 5)) ∧
    (m = .mclk → Makes s (.clkMuxHung m)
      (((({ rec_ 3 with
          clk := { (rec_ 3).clk with mclkUsed := s.blk.regBit pgCPC 0x040 2 }
          ras := { (rec_ 3).ras with cause := 7 } } : Block).rmRestart 3).awlOff s.blk.rm.owner).resetFabric))) ∧
  (∀ (s : State) (u : GateUnit) (i : Fin 16), i.val < gateCount u →
    Makes s (.unitGate u i false) { s.blk with clk := { s.blk.clk with
      gated := s.blk.clk.gated.filter fun p => !(p.1 == u && p.2.val == i.val)
      busyAt := s.blk.clk.busyAt.insert (gateKey u i) s.blk.clk.dclk } } ∧
    (s.blk.dpOn = true → s.blk.regBit pgCPC 0x07C 0 = false → s.blk.unitBusy u i = false →
      s.blk.clk.busyAt.get 0 (gateKey u i) + gateIdle u ≤ s.blk.clk.dclk → (u, i) ∉ s.blk.clk.gated →
      Makes s (.unitGate u i true) { s.blk with clk := { s.blk.clk with gated := (u, i) :: s.blk.clk.gated } }))

/-- PWR_CMD, posted with no objection of Table 12-3 and landed: SLEEP with no refusal counts, asserts INTERMISSION, flushes
the windows and starts the ports' SLEEP; busy, no save area, no wake cause, an enabled cause present (a set edge-latch bit,
WAKE_REQ, a WAKE frame, the crystal lost), or anything at work refuses it with its result and SLEEP_REFUSED; another OP
gives BADOP. INTERMISSION_ENTER, drained: with one context resident the earliest TDL less 12 us and its entry are taken and
it leaves its bank, and the save area is written as far as walks allow; with every write accepted the block sleeps with edge
latches, snapshot and retention; a write that faults is reported and opens the block again with SAVE_FAULT. WAKE_CAUSE
records the causes at entry for later, outside Intermission the levels of WAKE_REQ and a wake input, and asleep an enabled
cause starts the wake. WAKE_RESTORE, once the lock delay has run and 5.0 us at the earliest after the cause, returns
snapshot registers, regions, segments and held writes and starts the read-back, then the first boundary. WOKE at 12 us.
RINGS_RESTORED takes lines back and with the last sets its bit and flag, RELOADED its own when nothing is left. Nothing else
changes. (13_clocks_power_supplies.md R356; 13_clocks_power_supplies.md R357; 13_clocks_power_supplies.md R358; 13_clocks_power_supplies.md R360; 13_clocks_power_supplies.md R361; 13_clocks_power_supplies.md R362; 12_registers_and_turnstile.md R334) -/
def Obligations.IntermissionSleepsAndWakes : Prop :=
  (∀ (s : State) (w : RegAcc), w.als = .base →
    let p := s.blk.pwr
    let idle := p.stage = .run ∧ s.blk.mgmtBusy = false
    let save := s.blk.regBit pgPWR 0x048 8
    let wakes := s.blk.regFld pgPWR 0x054 3 0
    let cause := (s.blk.latchSet = true ∧ s.blk.regBit pgPWR 0x054 0 = true) ∨ (p.wakeReq = true ∧ s.blk.regBit pgPWR 0x054 1 = true) ∨
      (p.wakeJuwa = true ∧ s.blk.regBit pgPWR 0x054 2 = true) ∨ s.blk.crystalLost = true
    (s.blk.posts pgPWR 0x040 (withOp w 3 1) = true →
      (p.busy = false → save = true → wakes ≠ 0 → ¬ cause → idle →
        Lands s (.pwrSleep w) pgPWR 0x040 (withOp w 3 1) fun b =>
          let b := b.cntHalf pgPWR 0x074 false
          let b : Block := { b with pwr := { b.pwr with
            stage := .entry, busy := true, result := 0, intermission := true, sleepGt := b.tu.ns, latched := 0, ringsRestored := false,
            reloaded := false, wrote := false, saved := [], lines := .empty, wakeAt := none } }
          (List.range 4).foldl Block.sendSleep b.flushWindows) ∧
      (∀ e : BitVec 4, (e = 1 ∧ p.busy = true) ∨ (e = 3 ∧ p.busy = false ∧ save = false) ∨
          (e = 4 ∧ p.busy = false ∧ save = true ∧ wakes = 0) ∨ (e = 5 ∧ p.busy = false ∧ save = true ∧ wakes ≠ 0 ∧ cause) ∨
          (e = 2 ∧ p.busy = false ∧ save = true ∧ wakes ≠ 0 ∧ ¬ cause ∧ ¬ idle) →
        Lands s (.pwrSleep w) pgPWR 0x040 (withOp w 3 1) fun b => { b with pwr := { b.pwr with result := e } }.flag pgPWR 1)) ∧
    (s.blk.posts pgPWR 0x040 (withOp w 3 (undefOp w.data 3 1 1)) = true →
      Lands s (.pwrBadop w) pgPWR 0x040 (withOp w 3 (undefOp w.data 3 1 1)) fun b => { b with pwr := { b.pwr with result := 7 } })) ∧
  (∀ (s : State), s.blk.pwr.stage = .entry →
    (s.blk.pwr.wrote = false → s.blk.drained = true → ∀ (c : CtxNo) (x : Ctx), s.blk.ctx.cells = [(c.toNat, x)] →
      let saved : List SaveCtx := [{ ctx := c, pin := x.pinned }]
      let lines (w : Nat) : List SaveWrite := (List.range 4).flatMap fun i => ctxLines (4 * i + w) saved
      let b : Block := { s.blk with pwr := { s.blk.pwr with
        wrote := true, wakeAt := if x.tarm then some (x.tdl - 12000) else none, saved
        saveq := ⟨(List.range 4).map fun w => (w, lines w)⟩, saveRing := .empty } }
      let b := (((b.leaves c .sleep).kickMoves).pumpSaves).pumpSaves
      b.saveDone = false → ∀ accepted, Makes s (.intermissionEnter accepted) b) ∧
    (s.blk.pwr.wrote = true → s.blk.saveDone = true →
      let k : Block := { s.blk with wr := s.blk.wr.mapVals fun _ w => w.unsaved }
      let b := k.enterSleep
      Makes s (.intermissionEnter false) s.blk ∧ (k.drained = true → Makes s (.intermissionEnter true) b ∧
        b.pwr.busy = false ∧ b.pwr.result = 0 ∧ b.pwr.ret = true ∧ b.pwr.intermission = s.blk.pwr.intermission ∧
        b.pwr.entryNs = (s.blk.tu.ns - s.blk.pwr.sleepGt).setWidth 32 ∧ (b.pwr.snap.map Snap.rgn) = some s.blk.fab.rgn ∧
        (∀ n, n < 16 → (b.coll n).pd0En = s.blk.lcBits n 0x040 ∧ (b.coll n).pd0Pol = s.blk.lcBits n 0x060 ∧
          (b.coll n).pd0 = (s.blk.coll n).pd0 ||| ((s.blk.coll n).raise &&& ~~~(s.blk.lcBits n 0x050)) ∧ (b.coll n).raise = 0) ∧
        b.stn = .empty ∧ b.eng = .empty ∧ b.ring = .empty ∧ b.up = [] ∧ b.pend = s.blk.pend ∧ b.last = s.blk.last ∧
        b.vif = s.blk.vif ∧ b.car = s.blk.car ∧ b.tu.ns = s.blk.tu.ns ∧ b.rm.ready = false ∧
        (s.blk.toLatch.latchSet = false → s.blk.pwr.latched = 0 →
          (∀ t, s.blk.pwr.wakeAt = some t → s.blk.tu.ns.toNat < t.toNat) → b.pwr.stage = .asleep ∧ b.pwr.dom = 0x20000003))) ∧
    (∀ (x : SaveWrite) (c : BitVec 4),
      let q := s.blk.saveReq x.off opCtxW (.save 0)
      s.blk.pwr.wrote = true → s.blk.saveWalks 0 = false → (s.blk.writer 0).ready.any (·.m.isSave) = false →
      s.blk.nextSave 0 = some x → segCheck (s.blk.segm q.seg) q.off = some c →
      ∀ accepted, Gives s (.intermissionEnter accepted) fun b =>
        b = (s.blk.xReport q c 0).saveFault ∧ b.pwr.stage = .opening ∧ b.pwr.result = 6 ∧ b.pwr.cause = s.blk.pwr.latched ∧
        b.pwr.ringsLeft = true ∧ b.tu = s.blk.tu ∧ b.pend = s.blk.pend ∧ b.ctx = s.blk.ctx)) ∧
  (∀ (s : State) (pins : BitVec 5),
    let p := s.blk.pwr
    let now := s.blk.causesNow pins
    (p.stage = .entry → Makes s (.wakeCause pins)
      { s.blk with pwr := { p with latched := p.latched ||| (pins &&& 0x16), wakeReq := bit pins 1 } }) ∧
    (p.stage ≠ .entry → p.stage ≠ .asleep → Makes s (.wakeCause pins)
      { s.blk with pwr := { p with wakeReq := bit pins 1, wakeJuwa := bit pins 2 } }) ∧
    (p.stage = .asleep → now &&& s.blk.wakeEn = 0 → Makes s (.wakeCause pins)
      { s.blk with pwr := { p with wakeReq := bit pins 1, wakeJuwa := false } }) ∧
    (p.stage = .asleep → now &&& s.blk.wakeEn ≠ 0 →
      let b : Block := { s.blk with
        pwr := { p with
          wakeReq := bit pins 1, wakeJuwa := false, stage := .waking, cause := now, causeGt := s.blk.tu.ns, causeNs := s.blk.clk.ns
          dom := p.dom ||| 8 }
        clk := { s.blk.clk with judged := s.blk.clk.ns + 500 + sioNs (s.blk.regFld pgCPC 0x050 15 0).toNat } }
      Makes s (.wakeCause pins) (if bit now 4 then b.loseCrystal else b))) ∧
  (∀ (s : State), s.blk.pwr.stage = .waking →
    s.blk.pwr.causeNs + max 4500 (500 + s.blk.wakeLock) + 500 ≤ s.blk.clk.ns →
    let r := s.blk.restoreRegs
    let b := r.wakeClocks.sampleGt
    Makes s .wakeRestore ({ b with pwr := { b.pwr.toRead with
      stage := .opening, dom := 0xFFFFFFFF, ret := false, wakeAt := none } }.restoreCycle.firstBoundary) ∧
    ∀ x, s.blk.pwr.snap = some x → r.fab.rgn = x.rgn ∧ r.fab.held = x.held ∧ r.xl.segs = x.segs ∧
      ∀ pg off, pg ≠ pgPWR → off < 4096 → r.reg pg off = x.regs.get (resetOf pg off) (regKey pg off)) ∧
  (∀ (s : State), s.blk.pwr.stage = .opening → s.blk.pwr.causeNs + max 12000 (5000 + s.blk.wakeLock) ≤ s.blk.clk.ns →
    let b := { s.blk with pwr := { s.blk.pwr with
      stage := .run, intermission := false, asleepAcc := false
      wakeNs := (s.blk.tu.ns - s.blk.pwr.causeGt).setWidth 32 } }.flag pgPWR 0
    Makes s .woke (if s.blk.pwr.asleepAcc then b.flag pgPWR 7 else b)) ∧
  (∀ (s : State), s.blk.dpOn = true →
    (∀ ls, s.blk.pwr.ringsLeft = true →
      let b := ls.foldl Block.lineAnswer s.blk
      (b.pwr.nextLine = none → b.pwr.back.cells = [] →
        Makes s (.ringsRestored ls)
          ({ b with pwr := { b.pwr with ringsLeft := false, ringsRestored := true, ringEarly := [] } }.flag pgPWR 2)) ∧
      (b.pwr.nextLine ≠ none ∨ b.pwr.back.cells ≠ [] → Makes s (.ringsRestored ls) b)) ∧
    (∀ (l : Nat) (ph : Phase) (bytes : List Byte), l < 8192 → s.blk.pwr.nextLine ≠ some l → s.blk.pwr.back.find? l = some ph →
      ph.isIssued = true →
      (s.blk.lineAnswer (l, .ok bytes)).ringOf (BitVec.ofNat 14 (2 * l)) =
        ringOfBytes (s.blk.ringOf (BitVec.ofNat 14 (2 * l))) (bytes.take 32) ∧
      (s.blk.lineAnswer (l, .err)).ringOf (BitVec.ofNat 14 (2 * l)) = { faulted := true }) ∧
    (s.blk.pwr.ringsLeft = true ∨ s.blk.pwr.ringsRestored = true → s.blk.pwr.reloaded = false → s.blk.reloading = false →
      Makes s (.reloaded []) ({ s.blk with pwr := { s.blk.pwr with reloaded := true } }.flag pgPWR 3)))

/-- SN_SWITCH of a started block clears AON_GOOD; not on backup and not inhibited: the block is on backup with PD0 and PD1
on only and INTERMISSION asserted; GT, the snapshot, the retention log's records, the seal and the grant are kept, HOLDOVER
is set and VALID cleared, a supply record is offered, and everything else but the PWR and TU pages and the build is as after
reset. SN_RETURN sets AON_GOOD; on backup and not forced, PD0 and PD1 are on VDD_AON again, BKP_RETURN and the PWR flag are
set and a supply record is offered; nothing else changes. PWR_SN_TEST, under a grant, posted with no objection of Table 12-3
and landed, takes its fields; with FORCE_BKP the block moves to backup. (13_clocks_power_supplies.md R364; 13_clocks_power_supplies.md R365; 06_carousel_and_time.md R180; 12_registers_and_turnstile.md R334) -/
def Obligations.TheSafetyNetMovesToBackup : Prop :=
  (∀ (s : State), s.blk.pwr.onBkp = false → s.blk.pwr.stage ≠ .held → s.blk.pwr.stage ≠ .scan → s.blk.regBit pgPWR 0x070 1 = false →
    Gives s .snSwitch fun b =>
      b.pwr.stage = .backup ∧ b.pwr.onBkp = true ∧ b.pwr.aonGood = false ∧ b.pwr.dom = 3 ∧ b.pwr.intermission = true ∧
      b.pwr.snap = s.blk.pwr.snap ∧ b.pwr.saved = [] ∧ b.pwr.ringsLeft = false ∧ b.tu.ns = s.blk.tu.ns ∧ b.tu.frac = s.blk.tu.frac ∧ b.tu.holdover = true ∧
      b.tu.valid = false ∧ b.rm.grant = s.blk.rm.grant ∧ b.rm.sealBroken = s.blk.rm.sealBroken ∧ b.rm.log = s.blk.rm.log ∧
      b = { s.blk.fresh with tu := b.tu, rm := b.rm, pwr := b.pwr, fab := b.fab } ∧
      (∀ pg off, pg ≠ pgPWR → pg ≠ pgTU → pg ≠ pgRM → off < 4096 → b.reg pg off = resetOf pg off)) ∧
  (∀ (s : State), s.blk.pwr.stage ≠ .held → s.blk.pwr.stage ≠ .scan → s.blk.pwr.onBkp = true ∨ s.blk.regBit pgPWR 0x070 1 = true →
    Makes s .snSwitch { s.blk with pwr := { s.blk.pwr with aonGood := false } }) ∧
  (∀ (s : State), s.blk.pwr.onBkp = false ∨ s.blk.regBit pgPWR 0x070 0 = true →
    Makes s .snReturn { s.blk with pwr := { s.blk.pwr with aonGood := true } }) ∧
  (∀ (s : State), s.blk.pwr.onBkp = true → s.blk.regBit pgPWR 0x070 0 = false →
    let b : Block := { s.blk with
      pwr := { s.blk.pwr with onBkp := false, aonGood := true }
      tu := { s.blk.tu with onBkp := false } }
    Makes s .snReturn (((b.flag pgTU 7).flag pgPWR 5).supplyLog 2)) ∧
  (∀ (s : State) (w : RegAcc), w.als = .base → s.blk.posts pgPWR 0x070 w = true →
    let put (b : Block) : Block := b.setReg pgPWR 0x070 (blend 3 (s.blk.reg pgPWR 0x070) w.data)
    (bit w.data 0 = false ∨ s.blk.pwr.onBkp = true → Lands s (.pwrSnTest w) pgPWR 0x070 w put) ∧
    (bit w.data 0 = true → s.blk.pwr.onBkp = false →
      Lands s (.pwrSnTest w) pgPWR 0x070 w fun b => (put b).toBackup s.blk.pwr.aonGood))

/-- Posted with no objection of Table 12-3 and landed: TAKE of a free mailbox makes the identity owner and clears data and
result; RELEASE by the owner frees it; each otherwise only sets MBX_REFUSED, and so does MBX_CMD with any command, from
another identity than the owner, while BUSY, or while not READY. MBX_IDLE_TIMEOUT, 10 ms after the last access with no
command running, frees the mailbox, sets MBX_IDLE and writes a record. INFO ends at once with OK and the running version,
slot and recovery, MIN_VER and the versions of both slots, sets DONE and MBX_DONE, restarts the idle time and writes no
record. MBX_CMD with an unknown OP ends with BADOP, and so do LAST_UPDATE, LAST_FACTORY and AWL in the recovery firmware
(the model's reading, log 53). PRESENCE_OPEN first takes the samples of PRESENT_N that it names. Nothing else changes. (14_ringmaster.md R371; 14_ringmaster.md R376; 14_ringmaster.md R377; 14_ringmaster.md R378; 14_ringmaster.md R379; 14_ringmaster.md Table 14-5; 12_registers_and_turnstile.md R334) -/
def Obligations.TheMailboxServesItsOwner : Prop :=
  ∀ (s : State) (w : RegAcc), w.als = .base →
    (s.blk.posts pgRM 0x054 (withOp w 1 1) = true → bit w.data 1 = false →
      (s.blk.rm.heldBy = false → Lands s (.take w) pgRM 0x054 (withOp w 1 1) fun b => { b with rm := { b.rm with
          heldBy := true, owner := w.rid, data := .empty, done := false, result := 0, rlen := 0, idleAt := b.clk.ns } }) ∧
      (s.blk.rm.heldBy = true → Lands s (.take w) pgRM 0x054 (withOp w 1 1) (fun b => b.flag pgRM 2))) ∧
    (s.blk.posts pgRM 0x054 (withOp w 2 2) = true → bit w.data 0 = false →
      (s.blk.rm.ownedBy w.rid = true →
        Lands s (.release w) pgRM 0x054 (withOp w 2 2) fun b => { b with rm := { b.rm with heldBy := false } }) ∧
      (s.blk.rm.ownedBy w.rid = false → Lands s (.release w) pgRM 0x054 (withOp w 2 2) (fun b => b.flag pgRM 2))) ∧
    (s.blk.rm.heldBy = true → s.blk.rm.busy = none → s.blk.rmFrozen = false → s.blk.rm.idleAt + 10000000 ≤ s.blk.clk.ns →
      Makes s .mbxIdleTimeout
        (({ s.blk with rm := { s.blk.rm with heldBy := false } }.flag pgRM 1).rmLog 10 1 (s.blk.rm.owner.setWidth 16) 0)) ∧
    (s.blk.posts pgRM 0x058 (withOp w 0xFF 1) = true → s.blk.mbxOpen w.rid = true →
      let r := s.blk.rm
      let resp : List Word := [r.version, flagAt r.slotB 0 ||| flagAt r.recovery 1, r.fwMin, r.fwA, r.fwB]
      Lands s (.info w) pgRM 0x058 (withOp w 0xFF 1) fun b => { b with rm := { b.rm with
        busy := none, fw := none, done := true, result := 0, rlen := 5, data := putData r.data resp, idleAt := b.clk.ns } }.flag pgRM 0) ∧
    (∀ bad : Word, bad = (if fld w.data 7 0 = (2 : BitVec 8) then w.data else undefOp w.data 255 1 10) →
      s.blk.posts pgRM 0x058 (withOp w 0xFF bad) = true →
      let op : BitVec 8 := fld bad 7 0
      (s.blk.mbxOpen w.rid = true → Lands s (.mbxBadop w) pgRM 0x058 (withOp w 0xFF bad) fun b =>
        (b.mbxBusy op w.rid).mbxEnd op w.rid 1 [] s.blk.rm.version) ∧
      (s.blk.mbxOpen w.rid = false → Lands s (.mbxBadop w) pgRM 0x058 (withOp w 0xFF bad) (fun b => b.flag pgRM 2))) ∧
    (∀ c ∈ [(Instr.info w, (1 : Word)), (.logClear w, 3), (.fwStage w, 4), (.fwActivate w, 5), (.lastUpdate w, 6), (.lastFactory w, 7),
        (.presenceEnd w, 9), (.awl w, 10)],
      s.blk.posts pgRM 0x058 (withOp w 0xFF c.2) = true → s.blk.mbxOpen w.rid = false →
      Lands s c.1 pgRM 0x058 (withOp w 0xFF c.2) (fun b => b.flag pgRM 2)) ∧
    (∀ held : Bool,
      let s' : State := { s with blk := s.blk.presence held }
      exec (.presenceOpen w held) s = exec (.presenceOpen w held) s' ∧
      (s.blk.posts pgRM 0x058 (withOp w 0xFF 8) = true → s.blk.mbxOpen w.rid = false →
        Lands s' (.presenceOpen w held) pgRM 0x058 (withOp w 0xFF 8) (fun b => b.flag pgRM 2))) ∧
    (∀ c ∈ [(Instr.lastUpdate w, (6 : BitVec 8)), (.lastFactory w, 7), (.awl w, 10)],
      let w' := withOp w 0xFF (c.2.setWidth 32)
      s.blk.posts pgRM 0x058 w' = true → s.blk.mbxOpen w.rid = true → s.blk.rm.recovery = true →
      Lands s c.1 pgRM 0x058 w' fun b => (b.mbxBusy c.2 w.rid).mbxEnd c.2 w.rid 1 [] 0)

/-- The owner's MBX_CMD, posted with no objection of Table 12-3 and landed, while READY and not BUSY, ends with the result
named, MBX_DONE and an UPDATE record, or stays BUSY. FW_STAGE and LAST_UPDATE of a segment over 63 give BAD_ARG; FW_STAGE
else starts to read, or gives FAULT, reported as the loader's, where its segment is invalid or too short. FW_ACTIVATE of a
slot over 1 or empty gives BAD_ARG, of a version below MIN_VER without a grant NO_PRESENCE or SEAL_BROKEN with a record,
else it waits for the store. LAST_UPDATE in basic level gives LEVEL; in expert level, with page LAST enabled and admitted to
identity 3, it writes the image's place and issues LOAD, or gives REFUSED with LAST_STAT.CMDERR's code; refused by the
Turnstile it ends with a result that nothing states (the model's free value, log 90). LAST_FACTORY without a grant is
refused as above; with one and page LAST enabled and admitted, it ABORTs what runs, sets basic level and the BASIC
registers' reset values and issues BUILD, with OK or REFUSED. Nothing else changes. (14_ringmaster.md R371; 14_ringmaster.md R379; 14_ringmaster.md R382; 14_ringmaster.md R384; 14_ringmaster.md R385; 14_ringmaster.md R387; 04_the_last.md R128; 12_registers_and_turnstile.md R335; 12_registers_and_turnstile.md R334) -/
def Obligations.FirmwareAndImageCommandsStart : Prop :=
  ∀ (s : State) (w : RegAcc), w.als = .base → s.blk.mbxOpen w.rid = true →
    let r := s.blk.rm
    let arg (k : Nat) : Word := s.blk.mbxArg k
    let seg : BitVec 6 := fld (arg 0) 5 0
    let addr : SegAddr := { seg, off := arg 2 ++ arg 1 }
    let cmd (op : Word) : RegAcc := withOp w 0xFF op
    let takes (op : Word) : Prop := s.blk.posts pgRM 0x058 (cmd op) = true
    let noGrant (op : BitVec 8) (v : Word) (b : Block) : Block :=
      let code : BitVec 8 := if r.sealBroken then 5 else 4
      ((b.mbxBusy op w.rid).rmLog 4 code (w.rid.setWidth 16) 0).mbxEnd op w.rid (if r.sealBroken then 4 else 3) [] v
    let refused (op : BitVec 8) (e : BitVec 3) (b : Block) : Block := b.mbxEnd op w.rid 11 [arg 0, arg 1, e.setWidth 32] r.version
    (takes 4 →
      (64 ≤ (arg 0).toNat → Lands s (.fwStage w) pgRM 0x058 (cmd 4) fun b => (b.mbxBusy 4 w.rid).mbxEnd 4 w.rid 2 [] r.version) ∧
      ((arg 0).toNat < 64 → Lands s (.fwStage w) pgRM 0x058 (cmd 4) fun b =>
        let b := b.mbxBusy 4 w.rid
        ({ b with rm := { b.rm with fw := some { addr } } }).fwNext (b.mbxOp 4 w.rid)) ∧
      (∀ c, (arg 0).toNat < 64 → segCheck (s.blk.segm seg) addr.off = some c →
        Lands s (.fwStage w) pgRM 0x058 (cmd 4) fun b =>
          ((b.mbxBusy 4 w.rid).xReport { seg, off := addr.off, op := opLoad, cont := .fw } c 0).mbxEnd 4 w.rid 6 [] 0)) ∧
    (takes 5 →
      let v := if bit (arg 0) 0 then r.fwB else r.fwA
      (1 < (arg 0).toNat ∨ v = 0 → Lands s (.fwActivate w) pgRM 0x058 (cmd 5) fun b => (b.mbxBusy 5 w.rid).mbxEnd 5 w.rid 2 [] v) ∧
      ((arg 0).toNat ≤ 1 → v ≠ 0 →
        (v.toNat < r.fwMin.toNat → r.grant = none → Lands s (.fwActivate w) pgRM 0x058 (cmd 5) (noGrant 5 v)) ∧
        (r.fwMin.toNat ≤ v.toNat ∨ r.grant.isSome = true → Lands s (.fwActivate w) pgRM 0x058 (cmd 5) (fun b => b.mbxBusy 5 w.rid)))) ∧
    (takes 6 → r.recovery = false →
      let level := (s.blk.hdr pgLAST).level
      let put (b : Block) : Block :=
        (((b.mbxBusy 6 w.rid).setReg pgLAST 0x044 (arg 0 &&& 0x3F)).setReg pgLAST 0x048 (arg 1 &&& 0xFFFFFFC0)).setReg pgLAST 0x04C (arg 2)
      let open_ := (s.blk.hdr pgLAST).enable = true ∧ ∀ o ∈ [0x10, 0x11, 0x12, 0x13], s.blk.admits false 3 pgLAST o true = true
      (64 ≤ (arg 0).toNat → Lands s (.lastUpdate w) pgRM 0x058 (cmd 6) fun b => (b.mbxBusy 6 w.rid).mbxEnd 6 w.rid 2 [] r.version) ∧
      ((arg 0).toNat < 64 → level = false →
        Lands s (.lastUpdate w) pgRM 0x058 (cmd 6) fun b => (b.mbxBusy 6 w.rid).mbxEnd 6 w.rid 10 [] r.version) ∧
      ((arg 0).toNat < 64 → level = true → open_ → s.blk.lastRefusal 1 = none →
        Lands s (.lastUpdate w) pgRM 0x058 (cmd 6) fun b => (put b).lastCmd 1 true) ∧
      (∀ e, (arg 0).toNat < 64 → level = true → open_ → s.blk.lastRefusal 1 = some e →
        Lands s (.lastUpdate w) pgRM 0x058 (cmd 6) fun b => refused 6 e ((put b).lastCmd 1 true)) ∧
      ((arg 0).toNat < 64 → level = true → s.blk.admits false 3 pgLAST 0x11 true = false →
        Lands s (.lastUpdate w) pgRM 0x058 (cmd 6) fun b =>
          ((b.mbxBusy 6 w.rid).deny 3 pgLAST .base 0x044 true).mbxEnd 6 w.rid (Config.deniedResult 6) [] r.version)) ∧
    (takes 7 → r.recovery = false →
      (r.grant = none → Lands s (.lastFactory w) pgRM 0x058 (cmd 7) (noGrant 7 r.version)) ∧
      (r.grant.isSome = true → (s.blk.hdr pgLAST).enable = true → (∀ o < 1024, s.blk.admits false 3 pgLAST o true = true) →
        let put (b : Block) : Block :=
          let b := b.mbxBusy 7 w.rid
          let b := if s.blk.last.activity = .idle then b else b.lastCmd 4 true
          basicOffs.foldl Block.basicReset (b.setHdr pgLAST { b.hdr pgLAST with level := false })
        ((put s.blk).lastRefusal 5 = none →
          Lands s (.lastFactory w) pgRM 0x058 (cmd 7) fun b => ((put b).lastCmd 5 true).mbxEnd 7 w.rid 0 [] r.version) ∧
        (∀ e, (put s.blk).lastRefusal 5 = some e →
          Lands s (.lastFactory w) pgRM 0x058 (cmd 7) fun b => refused 7 e ((put b).lastCmd 5 true))))

/-- The owner's MBX_CMD, posted with no objection of Table 12-3 and landed, while READY and not BUSY, ends with the result
named, MBX_DONE and an UPDATE record. LOG_CLEAR without a grant gives NO_PRESENCE, or SEAL_BROKEN, with a PRESENCE record;
with one it empties the log, restarts its sequence number and writes a LOGCLR record with the last number. PRESENCE_OPEN,
with the samples of PRESENT_N that it names: not held for a second NOT_HELD, the seal broken SEAL_BROKEN, each with a
record; else a grant of GRANT_S seconds is open, PRES_OPEN is set, a record written, and the response is GRANT_S.
PRESENCE_END ends the grant, its fields and the Awl port. AWL, not in recovery: 0 disables the port; 1 needs a grant as
LOG_CLEAR does and enables it, with a record. Nothing else changes. (14_ringmaster.md R375; 14_ringmaster.md R379; 14_ringmaster.md R386; 14_ringmaster.md R387; 14_ringmaster.md R388; 14_ringmaster.md Table 14-6; 12_registers_and_turnstile.md R334) -/
def Obligations.LogPresenceAndAwlCommandsEnd : Prop :=
  ∀ (s : State) (w : RegAcc), w.als = .base → s.blk.mbxOpen w.rid = true →
    let r := s.blk.rm
    let cmd (op : Word) : RegAcc := withOp w 0xFF op
    let takes (op : Word) : Prop := s.blk.posts pgRM 0x058 (cmd op) = true
    let told (code : BitVec 8) (b : Block) : Block := b.rmLog 4 code (w.rid.setWidth 16) 0
    let ends (op res : BitVec 8) (b : Block) : Block := b.mbxEnd op w.rid res [] r.version
    let noGrant (op : BitVec 8) (b : Block) : Block :=
      ends op (if r.sealBroken then 4 else 3) (told (if r.sealBroken then 5 else 4) (b.mbxBusy op w.rid))
    (takes 3 →
      (r.grant = none → Lands s (.logClear w) pgRM 0x058 (cmd 3) (noGrant 3)) ∧
      (r.grant.isSome = true → Lands s (.logClear w) pgRM 0x058 (cmd 3) fun b =>
        let b := b.mbxBusy 3 w.rid
        let b : Block := { b with rm := { b.rm with log := .empty, logCount := 0, logSeq := 0 } }
        ends 3 0 (b.rmLog 11 0 (w.rid.setWidth 16) ((r.logSeq - 1).setWidth 128)))) ∧
    (takes 8 → ∀ held : Bool,
      let s' : State := { s with blk := s.blk.presence held }
      let t : BitVec 12 := s.blk.regFld pgRM 0x050 11 0
      exec (.presenceOpen w held) s = exec (.presenceOpen w held) s' ∧
      (held = false → Lands s' (.presenceOpen w held) pgRM 0x058 (cmd 8) fun b => ends 8 5 (told 4 (b.mbxBusy 8 w.rid))) ∧
      (held = true → r.sealBroken = true →
        Lands s' (.presenceOpen w held) pgRM 0x058 (cmd 8) fun b => ends 8 4 (told 5 (b.mbxBusy 8 w.rid))) ∧
      (held = true → r.sealBroken = false → Lands s' (.presenceOpen w held) pgRM 0x058 (cmd 8) fun b =>
        let b := b.mbxBusy 8 w.rid
        let b : Block := { b with rm := { b.rm with grant := some (b.clk.ns + t.toNat * 1000000000) } }
        (told 1 (b.flag pgRM 3)).mbxEnd 8 w.rid 0 [t.setWidth 32] r.version)) ∧
    (takes 9 →
      (r.grant = none → Lands s (.presenceEnd w) pgRM 0x058 (cmd 9) fun b => ends 9 0 (b.mbxBusy 9 w.rid)) ∧
      (r.grant.isSome = true → Lands s (.presenceEnd w) pgRM 0x058 (cmd 9) fun b =>
        let b := b.mbxBusy 9 w.rid
        let b := told 2 (({ b with rm := { b.rm with grant := none } }.setReg pgPWR 0x070 0).flag pgRM 4)
        ends 9 0 (if r.awlEn then told 7 { b with rm := { b.rm with awlEn := false, awl := {} } } else b))) ∧
    (takes 10 → r.recovery = false →
      let on := bit (s.blk.mbxArg 0) 0
      (on = false → Lands s (.awl w) pgRM 0x058 (cmd 10) fun b =>
        let b := b.mbxBusy 10 w.rid
        ends 10 0 (if r.awlEn then told 7 { b with rm := { b.rm with awlEn := false, awl := {} } } else b)) ∧
      (on = true → r.grant = none → Lands s (.awl w) pgRM 0x058 (cmd 10) (noGrant 10)) ∧
      (on = true → r.grant.isSome = true → Lands s (.awl w) pgRM 0x058 (cmd 10) fun b =>
        let b := b.mbxBusy 10 w.rid
        ends 10 0 (told 6 { b with rm := { b.rm with awlEn := true } })))

/-- While MCLK runs and the command is BUSY. FW_STAGE, with its reads issued and no other read waiting for a tracker: a line
of them in error ends it with FAULT; otherwise, with the last lines read, a candidate that is read, valid and stored fills
the slot that is not active, and a failure gives FORMAT, SIG_BAD or STORE_ERR, which empties the slot; the trackers come
back. FW_ACTIVATE: a store that did not take the header gives STORE_ERR; otherwise the slot is active, MIN_VER its version,
WCOUNT one more, the header is written to both copies, and the Ringmaster restarts. LAST_UPDATE: while LOAD runs nothing
happens; then REFUSED with the reason where the image was not staged, the result of its signature where that is bad, else
the bank is VERIFIED and, if asked for, COMMIT is issued where page LAST is enabled and admitted to identity 3. Nothing else
changes. (14_ringmaster.md R379; 14_ringmaster.md R380; 14_ringmaster.md R381; 14_ringmaster.md R382; 14_ringmaster.md R383; 14_ringmaster.md R384; 14_ringmaster.md R440; 12_registers_and_turnstile.md R335) -/
def Obligations.LongMailboxCommandsEnd : Prop :=
  ∀ (s : State) (m : MbxOp) (e : MbxEnd), s.blk.rm.busy = some m → s.blk.rmFrozen = false → s.blk.orphanDone .fw = none →
    let r := s.blk.rm
    let ends (c : Block) (res : BitVec 8) (resp : List Word) (ver : Word) : Prop := Makes s (.mbxCommandEnd e) (c.mbxEnd m.op m.id res resp ver)
    (∀ (f : FwRead) (pa : BitVec 64) (dev sh : Bool), m.op = 4 → r.fw = some f → f.data = none → f.phase = some (.issued pa dev sh) →
      s.blk.xl.trkWait = [] →
      let b := giveShared s.blk f.window
      let slot := !r.slotB
      let k := fwCheck e.bytes
      let bad := ∃ l, e.stop = some l ∧ f.pos ≤ l ∧ l < f.pos + f.window
      let last := (if f.pos + f.window < 2 then 2 else fwLines e) ≤ f.pos + f.window
      let put (v : Word) : Block := { b with rm := if slot then { b.rm with fwB := v } else { b.rm with fwA := v } }
      (bad → ends b 6 [] 0) ∧
      (¬ bad → last → k.1 ≠ 0 → ends b k.1 [] k.2) ∧
      (¬ bad → last → k.1 = 0 → e.storeOk = false → ends (put 0) 9 [] k.2) ∧
      (¬ bad → last → k.1 = 0 → e.storeOk = true → ends (put k.2) 0 [k.2, flagAt slot 0] k.2)) ∧
    (m.op = 5 →
      let sl := bit (m.args.getD 0 0) 0
      let v := if sl then r.fwB else r.fwA
      (e.storeOk = false → ends s.blk 9 [] v) ∧
      (e.storeOk = true →
        let h := hdrBytes sl v (r.wcount + 1)
        let b : Block := { s.blk with rm := { r with
          slotB := sl, fwMin := v, wcount := r.wcount + 1, recovery := false, hdr0 := h, hdr1 := h } }
        Makes s (.mbxCommandEnd e) ((b.mbxEnd 5 m.id 0 [] v).rmRestart 3))) ∧
    (m.op = 6 →
      let l := s.blk.last
      (l.activity = .pass1 ∨ l.activity = .pass2 → Makes s (.mbxCommandEnd e) s.blk) ∧
      (l.activity ≠ .pass1 → l.activity ≠ .pass2 →
        (l.load.rm = false ∨ l.load.pass1.isEmpty = true ∨ l.inactive ≠ .staged →
          ends s.blk 11 [m.args.getD 0 0, m.args.getD 1 0, l.reason.setWidth 32] r.version) ∧
        (l.load.rm = true → l.load.pass1.isEmpty = false → l.inactive = .staged →
          let res := lastSig l.load.pass1
          let ver := s.blk.other.version
          let b : Block := { s.blk with rm := { r with verA := r.verA || l.active, verB := r.verB || !l.active } }
          (res ≠ 0 → ends s.blk res [] ver) ∧
          (res = 0 → bit (m.args.getD 3 0) 0 = false → ends b 0 [ver, flagAt (!l.active) 0] ver) ∧
          (res = 0 → bit (m.args.getD 3 0) 0 = true → s.blk.admits false 3 pgLAST 0x10 true = true → (s.blk.hdr pgLAST).enable = true →
            ends (b.lastCmd 2 true) 0 [ver, flagAt (!l.active) 0] ver))))

/-- RINGMASTER_RESTART while READY: the firmware candidate's reads are dropped, a running command ends with ABORTED and a
record, the mailbox is free, READY is 0, and a load in PASS1 ends with ABORTED. READY, not while MCLK hangs, in a stage in
which PD2 runs: a start takes versions, slot, MIN_VER and recovery from the store; the SRAM is loaded, the BOOT record
written, and, except in recovery, a record of each held management event. SENSOR_SAMPLE, READY and not in recovery, with a
revolution's samples due and no throttle: they are due no more; a thermal reading is kept; reaching WARN it sets THERM and
writes a record; reaching CRIT it sets THERM, writes a record and reports to RAS, and, with THROTTLE_EN and CPC_DPLL enabled
and admitted to identity 3, throttles DCLK to 400 MHz, TARGET kept; a voltage reading outside its limits stands with LOW or
HIGH, which are told when they are new. Nothing else changes, but for what the throttle's write counts and logs. (14_ringmaster.md R371; 14_ringmaster.md R372; 14_ringmaster.md R373; 14_ringmaster.md R379; 14_ringmaster.md R380; 14_ringmaster.md R383; 14_ringmaster.md Table 14-1; 14_ringmaster.md Table 14-2) -/
def Obligations.TheRingmasterRestartsStartsAndSamples : Prop :=
  (∀ (s : State), s.blk.rm.ready = true →
    let b := s.blk.fwDrop
    let down (b : Block) : Block := { b with rm := { b.rm with heldBy := false, ready := false, boot := 3 } }
    let stops (b : Block) : Block := if s.blk.last.activity = .pass1 then b.loadErr { reason := 23 } else b
    (s.blk.rm.busy = none → Makes s .ringmasterRestart (stops (down b))) ∧
    (∀ m, s.blk.rm.busy = some m →
      Makes s .ringmasterRestart
        (stops (down ((b.mbxEnd m.op m.id 12 [] s.blk.rm.version).rmLog 10 2 (m.id.setWidth 16) 0))))) ∧
  (∀ (s : State) (fw : FwBoot), s.blk.rm.ready = false → s.blk.rmFrozen = false →
    s.blk.pwr.stage ∈ [Stage.check, .lock, .arrays, .run, .entry, .opening, .drain, .restart, .dpOff] →
    let r := s.blk.rm
    let booted (r : Rm) : Block :=
      let b := ({ s.blk with rm := { r with ready := true, sram := r.sram + 1 } } : Block).rmLog 1 (if r.recovery then 5 else r.boot) 0
        (r.version.setWidth 128 ||| flagAt r.slotB 32)
      let b' := b.rm.evHeld.foldl (fun b pg => b.rmLog 7 0 (BitVec.ofNat 16 pg) ((b.pgStat pg).setWidth 128)) b
      if r.recovery then b else { b' with rm := { b'.rm with evHeld := [] } }
    (r.boot = 1 ∨ r.boot = 4 → Makes s (.ready fw) (booted (r.boots fw)) ∧
      (r.boots fw).fwA = fw.verA ∧ (r.boots fw).fwB = fw.verB ∧ ((r.boots fw).recovery = true → fw.verA = 0 ∨ fw.verB = 0) ∧
      ((r.boots fw).recovery = false → (r.boots fw).version ≠ 0)) ∧
    (r.boot ≠ 1 → r.boot ≠ 4 → Makes s (.ready fw) (booted r))) ∧
  (∀ (s : State), s.blk.rm.ready = true → s.blk.rm.recovery = false → s.blk.rmFrozen = false → s.blk.rm.due = true →
    s.blk.rm.throttled = false →
    let c0 : Block := { s.blk with rm := { s.blk.rm with due := false } }
    Makes s (.sensorSample [] []) c0 ∧
    (∀ t : BitVec 16,
      let lim := s.blk.reg pgRM 0x06C
      let old := s.blk.rm.temp.get 0 0
      let v : Word := t.setWidth 32 ||| 0x10000
      let reaches (deg : BitVec 8) : Prop :=
        8 * (deg.toNat : Int) ≤ t.toInt ∧ (bit old 16 = false ∨ (fld old 15 0 : BitVec 16).toInt < 8 * (deg.toNat : Int))
      let kept : Block := { c0 with rm := { c0.rm with temp := s.blk.rm.temp.set 0 0 v } }
      let told (code : BitVec 8) (b : Block) : Block := (b.flag pgRM 6).rmLog 9 code 0 (v.setWidth 128)
      let warm : Block → Prop := fun c => (reaches (fld lim 7 0) → c = told 1 kept) ∧ (¬ reaches (fld lim 7 0) → c = kept)
      ∀ c, warm c →
        (¬ reaches (fld lim 15 8) → Makes s (.sensorSample [t] []) c) ∧
        (reaches (fld lim 15 8) → bit lim 16 = false → Makes s (.sensorSample [t] []) ((told 2 c).rasEvent 19)) ∧
        (reaches (fld lim 15 8) → bit lim 16 = true → s.blk.admits false 3 pgCPC 0x13 true = true → (s.blk.hdr pgCPC).enable = true →
          Gives s (.sensorSample [t] []) fun b =>
            b.rm.throttled = true ∧ b.rm.kept = s.blk.reg pgCPC 0x04C ∧ b.reg pgCPC 0x04C = 400 ∧ b.rm.temp = kept.rm.temp ∧
            b = { s.blk with clk := b.clk, fab := b.fab, rm := b.rm, ras := b.ras })) ∧
    (∀ mv : BitVec 16,
      let p := s.blk.prm
      let old := s.blk.rm.volt.get 0 0
      let low := mv.toNat < p.vddDpMv * 95 / 100
      let high := p.vddDpMv * 105 / 100 < mv.toNat
      let v : Word := mv.setWidth 32 ||| 0x10000 ||| flagAt (bit old 17 || decide low) 17 ||| flagAt (bit old 18 || decide high) 18
      let kept : Block := { c0 with rm := { c0.rm with volt := s.blk.rm.volt.set 0 0 v } }
      let told (code : BitVec 8) : Block := (kept.flag pgRM 7).rmLog 9 code 0x100 (v.setWidth 128)
      ((low → bit old 17 = true) → (high → bit old 18 = true) → Makes s (.sensorSample [] [mv]) kept) ∧
      (low → ¬ high → bit old 17 = false → Makes s (.sensorSample [] [mv]) (told 3)) ∧
      (high → ¬ low → bit old 18 = false → Makes s (.sensorSample [] [mv]) (told 4))))

/-- LOG_WRITE moves the oldest queued record to slot NEXT with the next sequence number. GRANT_EXPIRY of a grant that has
run out ends it: its fields of PWR_SN_TEST clear, PRES_END is set, a record is written, and an enabled Awl port is disabled
with its record. SEAL_BREAK where PD0 is powered and the seal holds: SEAL_BROKEN, a record, the end of grant and Awl port,
and the SEAL flag, or on backup its note for the start. With the port enabled and MCLK running, AWL_ADDR starts a read of
its word or arms a write, and AWL_DATA starts an armed write. AWL_ACCESS_DONE, where the port serves and a write's grant in
the data plane is had at once: the 32-bit part is read or written under identity 4 through every check, and AWL_STAT holds
DONE, the error and whether the Turnstile refused it; where the pages are not served, DONE with an error. Nothing else
changes but for the read or write made. (14_ringmaster.md R374; 14_ringmaster.md R386; 14_ringmaster.md R388; 13_clocks_power_supplies.md R365; 12_registers_and_turnstile.md R335) -/
def Obligations.LogGrantSealAndAwlPort : Prop :=
  (∀ (s : State) (x : LogRec) (rest : List LogRec), s.blk.rm.logq = x :: rest →
    let r := s.blk.rm
    Makes s .logWrite { s.blk with rm := { r with
      logq := rest, log := r.log.insert r.logNext.toNat { x with seq := r.logSeq }, logNext := r.logNext + 1, logSeq := r.logSeq + 1,
      logCount := if r.logCount.toNat < 2048 then r.logCount + 1 else r.logCount } }) ∧
  (∀ (s : State),
    let r := s.blk.rm
    let pres (code : BitVec 8) (b : Block) : Block := b.rmLog 4 code (r.owner.setWidth 16) 0
    let noAwl (b : Block) : Block := if r.awlEn then pres 7 { b with rm := { b.rm with awlEn := false, awl := {} } } else b
    let noGrant (b : Block) : Block := noAwl (pres 2 (({ b with rm := { b.rm with grant := none } }.setReg pgPWR 0x070 0).flag pgRM 4))
    (∀ t, r.grant = some t → t ≤ s.blk.clk.ns → Makes s .grantExpiry (noGrant s.blk)) ∧
    (r.sealBroken = false → (s.blk.pwr.stage ≠ .held ∨ s.blk.pwr.onBkp = true) →
      let b := pres 3 { s.blk with rm := { r with sealBroken := true } }
      let b := if r.grant.isSome then noGrant b else noAwl b
      (s.blk.pwr.onBkp = false → Makes s .sealBreak (b.flag pgRM 5)) ∧
      (s.blk.pwr.onBkp = true → Makes s .sealBreak { b with pwr := { b.pwr with sealSeen := true } }))) ∧
  (∀ (s : State) (d : Word), s.blk.rm.awlEn = true → s.blk.rmFrozen = false →
    let a := s.blk.rm.awl
    let put (a : Awl) : Block := { s.blk with rm := { s.blk.rm with awl := a } }
    (bit d 31 = false → Makes s (.awlAddr d) (put { a with
      word := fld d 20 2, armed := false, op := some none, done := false, err := false, denied := false })) ∧
    (bit d 31 = true → Makes s (.awlAddr d) (put { a with word := fld d 20 2, armed := true })) ∧
    (a.armed = true → Makes s (.awlData d) (put { a with armed := false, op := some (some d), done := false, err := false, denied := false }))) ∧
  (∀ (s : State) (op : Option Word), s.blk.rm.awl.op = some op →
    let addr := 4 * s.blk.rm.awl.word.toNat
    let pg := pageOf addr
    let off := offOf addr
    let pass := s.blk.admits false 4 pg (off / 4) op.isSome
    let ask := if pass then s.blk.regAsk pg off else .none
    let stat (b : Block) (err : Bool) (data : Word) (denied : Bool) : Block :=
      { b with rm := { b.rm with awl := { b.rm.awl with op := none, data, done := true, err, denied } } }
    (∀ d, op = some d → s.blk.portMode = .serve → s.blk.awlWaits ask = false →
      let b : Block := if ask = .none then s.blk else ({ s.blk with fab := { s.blk.fab with ask } } : Block).takeGrant
      let r := b.writePart false 4 pg (partOf addr) off d
      Makes s .awlAccessDone (stat r.1 r.2 s.blk.rm.awl.data !pass)) ∧
    (op = none → s.blk.portMode = .serve →
      let r := s.blk.readPart false 4 pg (partOf addr) off
      Makes s .awlAccessDone (stat r.1 r.2.1 r.2.2 !pass)) ∧
    (s.blk.portMode = .error ∨ s.blk.portMode = .asleep → Makes s .awlAccessDone (stat s.blk true 0 false)))

/-- COLD_RESET without VBKP leaves reset values but for log and seal; with VBKP PD0 and PD1 go on and GT, log and snapshot
stay. COLD_START begins with SIO, the log as told, the seal mended if it samples closed. DP_READY with the arrays done:
stations accept, the first boundary is processed; before, DP_PGOOD has risen (log 99). DP_LOSS is reported FATAL and holds
the data plane. PARTIAL_COLD_START keeps GT, TU and PWR pages, log, seal and snapshot, all else at reset values with CAUSE
2. SCAN_MODE breaks the seal and holds everything. WARM_RESET by pin or command starts the drain with CAUSE 3 or 4 and is
absorbed in one; WARM_DRAIN_END, drained or timed out, restarts the data plane and frees mailbox, grant and Awl port.
DP_RESTART by watchdog or command: CAUSE 5 or 6, a new epoch, ABANDONED counted; stations, engines, hold buffers, loads,
leaving records, walks and reassembly are empty, P and M of every event and the time unit stay, the unmasked wait for the
scan. RESTART_END after 4,096 cycles runs again, or goes on with the wake; RESTART_SCAN re-enters the next event of a bank.
Nothing else changes in START, READY, LOSS, both WARM_RESETs, END and SCAN but as said. (15_startup_reset_errors.md R392; 15_startup_reset_errors.md R393; 15_startup_reset_errors.md R395; 15_startup_reset_errors.md R396; 15_startup_reset_errors.md R397; 15_startup_reset_errors.md R398; 15_startup_reset_errors.md R399; 15_startup_reset_errors.md R407; 14_ringmaster.md R378; 14_ringmaster.md R386; 17_integration.md R441; 17_integration.md Table 17-8) -/
def Obligations.StartsAndResetsKeepWhatTheyKeep : Prop :=
  (∀ (s : State),
    let f : Block := { prm := s.blk.prm, clk := { dclk := s.blk.clk.dclk, ns := s.blk.clk.ns } }
    let r := s.blk.rm
    let kept : Rm := { log := r.log, logNext := r.logNext, logCount := r.logCount, logSeq := r.logSeq, logq := r.logq, sealBroken := r.sealBroken }
    Makes s (.coldReset false) { f with rm := kept } ∧
    Gives s (.coldReset true) (fun b =>
      b.pwr.stage = .held ∧ b.pwr.onBkp = true ∧ b.pwr.dom = 3 ∧ b.pwr.intermission = true ∧ b.pwr.snap = s.blk.pwr.snap ∧
      b.tu.ns = s.blk.tu.ns ∧ b.rm.log = r.log ∧ b.rm.sealBroken = r.sealBroken ∧
      b = { f with tu := b.tu, rm := b.rm, pwr := b.pwr, fab := b.fab } ∧
      (∀ pg off, pg ≠ pgPWR → pg ≠ pgTU → pg ≠ pgRM → off < 4096 → b.reg pg off = resetOf pg off)) ∧
    (∀ logKept sealClosed dpGood, s.blk.pwr.stage = .held ∨ s.blk.pwr.stage = .scan →
      let sealBroken := r.sealBroken && !sealClosed
      Makes s (.coldStart logKept sealClosed dpGood)
        { f with
          clk := { f.clk with present := 1, judged := s.blk.clk.ns + sioNs 64 }
          rm := if logKept then { kept with sealBroken } else { sealBroken }
          pwr := { stage := .sio, dpGood } }) ∧
    (s.blk.pwr.stage = .arrays → 4096 * 1000 ≤ (s.blk.clk.ns - s.blk.pwr.at_ - 4000) * s.blk.dclkMhz → Makes s .dpReady
      ({ s.blk with
        pwr := { s.blk.pwr with stage := .run, dpGood := true, intermission := false, dom := 0xFFFFFFFF }
        ras := { s.blk.ras with dpReady := true } } : Block).sampleGt.firstBoundary) ∧
    (s.blk.startClocks = true → s.blk.pwr.dpGood = false →
      Makes s .dpReady ({ s.blk with pwr := { s.blk.pwr with dpGood := true } } : Block).goOn) ∧
    (s.blk.pwr.stage = .arrays ∨ s.blk.pwr.stage = .run ∨ s.blk.pwr.stage = .entry ∨ s.blk.pwr.stage = .opening ∨
        s.blk.pwr.stage = .drain ∨ s.blk.pwr.stage = .restart →
      let b := s.blk.rasPost { gt := s.blk.tu.ns, sev := 2, source := 20 }
      Makes s .dpLoss { b with
        pwr := { b.pwr with stage := .dpOff, dpGood := false, intermission := true, busy := false, dom := 0x1F }
        ras := { b.ras with dpReady := false }
        up := [] }) ∧
    (∀ dpGood, (s.blk.pwr.stage = .backup ∧ s.blk.pwr.onBkp = false) ∨ (s.blk.pwr.stage = .dpOff ∧ dpGood = true) →
      Gives s (.partialColdStart dpGood) fun b =>
        b.pwr.stage = .check ∧ b.pwr.dom = 0x1F ∧ b.pwr.dpGood = dpGood ∧ b.pwr.snap = s.blk.pwr.snap ∧ b.tu = s.blk.tu ∧
        b.rm.log = r.log ∧ b.rm.sealBroken = r.sealBroken ∧ b.rm.boot = 4 ∧ b.rm.grant = none ∧ b.ras = { cause := 2 } ∧
        b = { f with tu := b.tu, rm := b.rm, pwr := b.pwr, fab := b.fab, ras := b.ras, clk := { f.clk with present := 3, checkAt := s.blk.clk.ns } } ∧
        (∀ pg off, off < 4096 → pg ≠ pgRM →
          b.reg pg off = if pg = pgTU ∨ (pg = pgPWR ∧ off ≠ 0x070) then s.blk.reg pg off else if pg = pgPWR then 0 else resetOf pg off)) ∧
    Gives s .scanMode (fun b =>
      b = { f with rm := b.rm, pwr := { stage := .scan } } ∧ b.rm.sealBroken = true ∧ b.rm.grant = none ∧ b.rm.awlEn = false ∧
      b.rm.log = r.log)) ∧
  (∀ (s : State),
    let drain (b : Block) (cause : BitVec 3) : Block :=
      { b with
        pwr := { b.pwr with stage := .drain, busy := false, intermission := false, at_ := b.clk.ns }
        ras := { b.ras with cause } }
    (s.blk.pwr.stage = .run ∨ s.blk.pwr.stage = .entry → Makes s (.warmReset .pin) (drain s.blk 3)) ∧
    (s.blk.pwr.stage = .drain → Makes s (.warmReset .pin) s.blk) ∧
    (∀ w : RegAcc, w.als = .base → s.blk.pwr.stage = .run → s.blk.writes pgRAS 0x044 (withOp w 3 1) = true →
      Puts s (.warmReset (.command w)) (drain (s.blk.wrote pgRAS 0x044 (withOp w 3 1)) 4)) ∧
    (s.blk.pwr.stage = .drain → s.blk.dpEmpty = true ∨
        s.blk.pwr.at_ + 1000 * (s.blk.regFld pgRAS 0x040 31 16).toNat ≤ s.blk.clk.ns →
      Gives s .warmDrainEnd fun b =>
        b.pwr.stage = .restart ∧ b.ras.dpReady = false ∧ b.ras.cause = s.blk.ras.cause ∧ b.ras.epoch = s.blk.ras.epoch + 1 ∧
        b.rm.ready = false ∧ b.rm.heldBy = false ∧ b.rm.busy = none ∧ b.rm.grant = none ∧ b.rm.awlEn = false ∧ b.rm.boot = 2 ∧
        b.fab.draining = false ∧ b.fab.q = [] ∧ b.fab.ask = .none ∧ b.fab.posted = .empty ∧ b.tu = s.blk.tu)) ∧
  (∀ (s : State) (src : RestartSrc) (cause : BitVec 3),
    s.blk.pwr.stage = .run ∨ s.blk.pwr.stage = .entry ∨ s.blk.pwr.stage = .opening ∨ s.blk.pwr.stage = .drain ∨ s.blk.pwr.stage = .restart →
    (src = .watchdog ∧ cause = 5 ∨
      ∃ w : RegAcc, src = .command w ∧ w.als = .base ∧ s.blk.writes pgRAS 0x044 (withOp w 3 2) = true ∧ cause = 6) →
    Gives s (.dpRestart src) fun b =>
      b.pwr.stage = .restart ∧ b.pwr.at_ = s.blk.clk.dclk ∧
      b.pwr.intermission = (s.blk.pwr.intermission && s.blk.pwr.stage != .entry) ∧ b.ras.dpReady = false ∧ b.ras.cause = cause ∧
      b.ras.epoch = s.blk.ras.epoch + 1 ∧ b.ras.abandoned = satAdd 0 (if s.blk.dpEmpty = true then 0 else s.blk.inWork) ∧
      b.ras.scan = .empty ∧ b.clk = { s.blk.clk with gated := [] } ∧ b.hold = [] ∧ b.loads = .empty ∧ b.leave = .empty ∧ b.pays = .empty ∧
      b.ages = .empty ∧ b.up = [] ∧
      b.xl.walkers = .empty ∧ b.xl.waitq = [] ∧ b.xl.trkWait = [] ∧ b.xl.orphans = [] ∧ b.xl.segs = s.blk.xl.segs ∧ b.tu = s.blk.tu ∧ b.fab.rgn = s.blk.fab.rgn ∧
      (∀ k, k < 8 → (b.station k).intake = [] ∧ (b.station k).parked = [] ∧ (b.station k).sets = .empty ∧ (b.station k).fills = []) ∧
      (∀ n, n < 16 → (b.engine n).idle = true) ∧ (∀ c, c < 16 → (b.coll c).raise = 0) ∧
      (s.blk.pend.wf {} = true → ∀ e : Event, (b.pendOf e).p = (s.blk.pendOf e).p ∧ (b.pendOf e).m = (s.blk.pendOf e).m ∧
        ((b.pendOf e).p = true → (b.pendOf e).m = false → (b.pendOf e).fl = some { looking := true, scan := true }))) ∧
  (∀ (s : State), s.blk.pwr.stage = .restart → s.blk.pwr.at_ + 4096 ≤ s.blk.clk.dclk →
    Gives s .restartEnd fun b =>
      b.pwr.stage = (if s.blk.pwr.intermission = true then .opening else .run) ∧ b.ras = { s.blk.ras with dpReady := true, scan := s.blk.scanList } ∧
      (b.hdr pgRAS).flags &&& 0x20 = 0x20 ∧
      (s.blk.ras.cause = 3 ∨ s.blk.ras.cause = 4 → b.reg pgGLB 0x054 = 1 ∧ b.fab.stopped = false ∧ (b.hdr pgRAS).flags &&& 0x10 = 0x10)) ∧
  (∀ (s : State) (q : Fin 16) (e : Event) (rest : List Event), s.blk.ras.scan.get [] q = e :: rest → s.blk.dpOn = true →
    s.blk.reentryRoom e = true →
    let b : Block := { s.blk with ras := { s.blk.ras with scan := s.blk.ras.scan.set [] q rest } }
    let p := s.blk.pendOf e
    (p.unscanned = true →
      let k := evBank e % 8
      let fl : Flight := p.fl.getD {}
      Makes s (.restartScan q) ((b.setPend e { p with p := true, fl := some { fl with looking := true, scan := false } }).setStation k
        { s.blk.station k with reentry := (s.blk.station k).reentry ++
          [{ kind := .reentry, src := if wiredRange e then .line (e.setWidth 11) else .self e, pevent := e }] })) ∧
    (p.unscanned = false → Makes s (.restartScan q) b))

/-- ECC_CE of a powered array counts in RAS_CE and, with CE_REC, joins the queue of 16 reports, which counts one more in
RAS_LOST. ECC_UE with its report: the 16 events of a pending word are held and payloads merged into them freed, a context is
lost and its seat empty, the live fields of a ring are faulted and cleared, compiled ring fields, a class entry and a slot
word stay bad, a thread's seats are empty, a VIF entry is FATAL, the Ringmaster restarts, a log record or a snapshot word is
gone; a source-route or TLB entry is invalidated and counts as CE. Either consumes an injection armed for it. RAS_REPORT
moves the oldest report to slot NEXT, offers the record to its ring and the event to its context where enabled, sets the
owner's cause FAULT, counts RAS_UE, sets CE, UE or FATAL, and for FATAL with FATAL_STOP clears ADMIT_EN. RAS_INJECT arms an
array of sources 1 to 16. SCRUB_PASS after 16 revolutions starts a pass over the words behind each arbitrated port.
COUNTER_WRAP of a full counter gives 0, its overflow bit and OVF, or with FREEZE_OVF the end of counting too.
MEM_RESPONSE_UNKNOWN_ID is reported as UE of the trackers. Nothing else changes. (15_startup_reset_errors.md R402; 15_startup_reset_errors.md R403; 15_startup_reset_errors.md R404; 15_startup_reset_errors.md R405; 15_startup_reset_errors.md R406; 15_startup_reset_errors.md R407; 15_startup_reset_errors.md R409; 15_startup_reset_errors.md Table 15-3; 16_performance_energy.md R417; 16_performance_energy.md R419; 17_integration.md R429) -/
def Obligations.ErrorsAreCountedAndReported : Prop :=
  (∀ (s : State) (src : BitVec 5) (index : BitVec 24) (synd : BitVec 8),
    (1 ≤ src.toNat ∧ src.toNat ≤ 13 ∧ s.blk.dpOn = true) ∨ (src = 14 ∧ s.blk.rm.ready = true) ∨
      ((src = 15 ∨ src = 16) ∧ s.blk.pwr.stage ≠ .scan) →
    let used (double : Bool) : Block :=
      if s.blk.ras.inject = some (src, double) then { s.blk with ras := { s.blk.ras with inject := none } }.flag pgRAS 6 else s.blk
    let report (b : Block) (sev : BitVec 2) (owner : OwnerNo) (index : BitVec 24 := index) : Block :=
      let r : RasRep := { gt := s.blk.gt, sev, source := src, owner, index, synd }
      if b.ras.reports.length < 16 then { b with ras := { b.ras with reports := b.ras.reports ++ [r] } }
      else (b.cnt pgRAS 0x070).flag pgRAS 3
    let ce := s.blk.regBit pgRAS 0x040 0
    let c := (used false).cnt pgRAS 0x068
    Makes s (.eccCe src index synd) (if ce then report c 0 0 else c) ∧
    (let u := used true
     let o := s.blk.ueOwner src index
     let ue (b : Block) : Prop := Makes s (.eccUe src index synd) (report b 1 o)
     (src = 1 → index.toNat < 1048576 →
       Gives s (.eccUe src index synd) fun b =>
         Block.Notes ((List.range 8).map pgSTN ++ [pgJL]) { report u 1 o with pend := b.pend, pays := b.pays } b ∧
         ∀ e : Event, hasState e = true →
         (e.toNat / 16 = index.toNat / 16 → ∀ f, (s.blk.pendOf e).fl = some f → ∀ i, i ∈ f.frees ∨ some i ∈ f.pays.map Arrival.pay →
           b.pays.find? i = none) ∧
         (e.toNat / 16 = index.toNat / 16 → b.pendOf e = { p := true, m := true }) ∧
         (e.toNat / 16 ≠ index.toNat / 16 → b.pendOf e = s.blk.pendOf e)) ∧
     (src = 6 → bit index 22 = false → ue ((u.ringFault (fld index 13 0)).setRing (fld index 13 0) { faulted := true })) ∧
     (src = 6 → bit index 22 = true →
       let key : BitVec 24 := (fld index 13 0 : RingNo).setWidth 24 ||| flagAt (bit index 23) 23
       let b : Block := { u with ras := { u.ras with badRings := key :: u.ras.badRings.erase key } }
       Makes s (.eccUe src index synd)
         (report (if bit index 23 = s.blk.last.active then b.ringFault (fld index 13 0) else b) 1 o (setBit index 22 false))) ∧
     (src = 2 ∨ src = 3 →
       let c : CtxNo := fld index 15 0
       s.blk.loads.find? c.toNat = none → s.blk.leave.find? c.toNat = none → Gives s (.eccUe src index synd) fun b =>
         b.rec? c = none ∧ ∀ x, s.blk.rec? c = some x → ∀ i, x.seat = some i → (b.seatOf i).ctx = none) ∧
     (src = 9 →
       let t := (fld index 10 0 : BitVec 11).toNat
       (∀ i, i / 2 = t → ∀ c, (s.blk.seatOf i).ctx = some c → ∃ x, s.blk.rec? c = some x ∧ x.seat = some i) →
       Gives s (.eccUe src index synd) fun b => (b.seatOf (2 * t)).ctx = none ∧ (b.seatOf (2 * t + 1)).ctx = none) ∧
     (src = 14 → Gives s (.eccUe src index synd) fun b =>
       b.rm.ready = false ∧ b.rm.boot = 3 ∧ b.rm.busy = none ∧ b.rm.heldBy = false) ∧
     (src = 16 →
       let key := regKey (fld index 16 10 : BitVec 7).toNat (4 * (fld index 9 0 : BitVec 10).toNat)
       ue { u with pwr := { u.pwr with snap := u.pwr.snap.map fun x => { x with regs := x.regs.erase key } } }) ∧
     (src ≠ 4 → src ≠ 11 → s.blk.ras.reports.length < 16 → Gives s (.eccUe src index synd) fun b =>
       b.ras.reports = s.blk.ras.reports ++ [{ gt := s.blk.gt, sev := if src = 10 then 2 else 1, source := src, owner := o,
                                                index := if src = 6 then setBit index 22 false else index, synd }]) ∧
     (src = 7 →
       let key : BitVec 24 := (fld index 11 0 : BitVec 12).setWidth 24 ||| flagAt (bit index 23) 23
       ue { u with ras := { u.ras with badClasses := key :: u.ras.badClasses.erase key } }) ∧
     (src = 8 →
       let w := (fld index 11 0 : BitVec 12).toNat
       ue { u with ras := { u.ras with badSlots := w :: u.ras.badSlots.erase w } }) ∧
     (src = 10 → Makes s (.eccUe src index synd) (report u 2 (ownerCode (fld index 11 0 : BitVec 12).toNat))) ∧
     (src = 15 → ue { u with rm := { u.rm with log := u.rm.log.erase (fld index 10 0 : BitVec 11).toNat } }) ∧
     (src = 4 ∨ src = 11 →
       let b := ((if src = 4 then u.ceCache index else u.ceTlb index).cnt pgRAS 0x068)
       Makes s (.eccUe src index synd) (if ce then report b 0 0 else b)))) ∧
  (∀ (s : State) (r : RasRep) (rest : List RasRep), s.blk.ras.reports = r :: rest →
    let slot := s.blk.ras.next
    let ring := s.blk.reg pgRAS 0x048
    let ev := s.blk.reg pgRAS 0x04C
    let prio : Prio := fld ev 21 16
    let w1 : Word := slot.setWidth 32 ||| (r.sev.setWidth 32 <<< 5) ||| (r.source.setWidth 32 <<< 7) ||| (r.owner.setWidth 32 <<< 12)
    let b : Block := { s.blk with ras := { s.blk.ras with reports := rest, log := s.blk.ras.log.insert slot.toNat r, next := slot + 1 } }
    let b := if bit ring 15 then b.ownRecord (fld ring 13 0) { vevent := 0x00904, prio, type := 0xC, w1, gt := r.gt } false true else b
    let b := if bit ev 22 then b.ask16 { ctx := fld ev 15 0, entry := bankedEntry 0x00904 prio 0 } else b
    let b := b.ownerCause r.owner 6
    (r.sev = 0 → Makes s .rasReport (b.flag pgRAS 0)) ∧
    (r.sev = 1 → Makes s .rasReport ((b.cnt pgRAS 0x06C).flag pgRAS 1)) ∧
    (r.sev = 2 →
      let d := (b.cnt pgRAS 0x06C).flag pgRAS 2
      Makes s .rasReport (if d.regBit pgRAS 0x040 1 then d.setReg pgGLB 0x054 0 else d)) ∧
    (r.sev = 3 → Makes s .rasReport b)) ∧
  (∀ (s : State) (w : RegAcc), w.als = .base → s.blk.writes pgRAS 0x078 (withOp w 0x40 0x40) = true →
    let b := (s.blk.wrote pgRAS 0x078 (withOp w 0x40 0x40)).setReg pgRAS 0x078 (blend 0x3F (s.blk.reg pgRAS 0x078) w.data)
    let n := (fld w.data 4 0 : BitVec 5).toNat
    (1 ≤ n → n ≤ 16 → Puts s (.rasInject w) { b with ras := { b.ras with inject := some (fld w.data 4 0, bit w.data 5) } }) ∧
    (n = 0 ∨ 16 < n → Puts s (.rasInject w) b)) ∧
  (∀ (s : State), s.blk.dpOn = true →
    (s.blk.regBit pgRAS 0x040 2 = false → 16 ≤ s.blk.ras.revs → s.blk.ras.scrub = .empty → Gives s .scrubPass fun b =>
      b = { s.blk with ras := { s.blk.ras with revs := 0, scrub := b.ras.scrub } } ∧
      (∀ q : Fin 16, b.ras.scrub.get 0 (Res.pendBank q).key = 4096 ∧ b.ras.scrub.get 0 (Res.classBank q).key = 2048 ∧
        b.ras.scrub.get 0 (Res.ctxBank q).key = 20480) ∧
      (∀ q : Fin 4, b.ras.scrub.get 0 (Res.ringTable q).key = 16384)) ∧
    (∀ (walk : Bool) (id : BitVec 12), s.blk.ras.reports.length < 16 →
      let r : RasRep := { gt := s.blk.gt, sev := 1, source := 12, index := id.setWidth 24 ||| flagAt walk 23 }
      Makes s (.memResponseUnknownId walk id) { s.blk with ras := { s.blk.ras with reports := s.blk.ras.reports ++ [r] } }) ∧
    (∀ (fixed : Bool) (i : BitVec 6),
      let j := if fixed then i.toNat % 16 else i.toNat
      let lo := if fixed then 0x400 + 8 * j else 0x200 + 8 * j
      let on : Bool := if fixed then s.blk.regBit pgPMU 0x040 1
        else (s.blk.regBit pgPMU 0x040 0 && (if j < 32 then s.blk.regBit pgPMU 0x044 j else s.blk.regBit pgPMU 0x048 (j - 32)))
      let ovf := if fixed then 0x054 else if j < 32 then 0x04C else 0x050
      on = true → s.blk.reg pgPMU lo = 0xFFFFFFFF → s.blk.reg pgPMU (lo + 4) = 0xFFFF →
      let b := (s.blk.setReg pgPMU lo 0).setReg pgPMU (lo + 4) 0
      let b := b.setReg pgPMU ovf (setBit (b.reg pgPMU ovf) (j % 32) true)
      (s.blk.regBit pgPMU 0x040 2 = false → Makes s (.counterWrap fixed i) (b.flag pgPMU 0)) ∧
      (s.blk.regBit pgPMU 0x040 2 = true → Makes s (.counterWrap fixed i)
        ((b.setReg pgPMU 0x040 (b.reg pgPMU 0x040 &&& 0xFFFFFFFC)).raise pgPMU 3))))
end

