-- ==== Sys2Proof/Laws/Map.lean ====
section
/-! SUPPORT. Laws of the numbered collections: what is read after a write, and the canonical form. -/

namespace Sys2Proof.Machine

variable {α : Type}

/-! ### Lists of pairs -/

theorem Map.look_drop_self (l : List (Nat × α)) (i : Nat) : Map.look (Map.drop l i) i = none := by
  induction l with
  | nil => rfl
  | cons x r ih =>
    obtain ⟨j, v⟩ := x
    by_cases h : j = i <;> simp [Map.drop, Map.look, h, ih]

theorem Map.look_drop_ne (l : List (Nat × α)) {i j : Nat} (h : j ≠ i) : Map.look (Map.drop l i) j = Map.look l j := by
  induction l with
  | nil => rfl
  | cons x r ih =>
    obtain ⟨k, v⟩ := x
    by_cases hk : k = i
    · subst hk; simp [Map.drop, Map.look, ih, Ne.symm h]
    · by_cases hj : k = j
      · subst hj; simp [Map.drop, Map.look, hk]
      · simp [Map.drop, Map.look, hk, hj, ih]

theorem Map.look_put_self (l : List (Nat × α)) (i : Nat) (v : α) (h : Map.look l i = none) : Map.look (Map.put l i v) i = some v := by
  induction l with
  | nil => simp [Map.put, Map.look]
  | cons x r ih =>
    obtain ⟨k, w⟩ := x
    have hk : k ≠ i := by intro e; simp [Map.look, e] at h
    have hr : Map.look r i = none := by simpa [Map.look, hk] using h
    by_cases hi : i < k <;> simp [Map.put, Map.look, hi, hk, ih hr]

theorem Map.look_put_ne (l : List (Nat × α)) {i j : Nat} (v : α) (h : j ≠ i) : Map.look (Map.put l i v) j = Map.look l j := by
  induction l with
  | nil => simp [Map.put, Map.look, Ne.symm h]
  | cons x r ih =>
    obtain ⟨k, w⟩ := x
    by_cases hi : i < k
    · simp [Map.put, Map.look, hi, Ne.symm h]
    · by_cases hj : k = j
      · subst hj; simp [Map.put, Map.look, hi]
      · simp [Map.put, Map.look, hi, hj, ih]

theorem Map.drop_of_look_none (l : List (Nat × α)) (i : Nat) (h : ∀ p ∈ l, p.1 ≠ i) : Map.drop l i = l := by
  induction l with
  | nil => rfl
  | cons x r ih =>
    obtain ⟨j, v⟩ := x
    have hj : j ≠ i := h (j, v) (by simp)
    simp [Map.drop, hj, ih fun p hp => h p (by simp [hp])]

theorem Map.drop_ne (l : List (Nat × α)) (i : Nat) : ∀ p ∈ Map.drop l i, p.1 ≠ i := by
  induction l with
  | nil => simp [Map.drop]
  | cons x r ih =>
    obtain ⟨j, v⟩ := x
    by_cases hj : j = i
    · simpa [Map.drop, hj] using ih
    · intro p hp
      simp only [Map.drop, if_neg hj, List.mem_cons] at hp
      rcases hp with rfl | hp
      · exact hj
      · exact ih p hp

@[simp] theorem Map.drop_drop (l : List (Nat × α)) (i : Nat) : Map.drop (Map.drop l i) i = Map.drop l i :=
  Map.drop_of_look_none _ _ (Map.drop_ne l i)

theorem Map.drop_put (l : List (Nat × α)) (i : Nat) (v : α) (h : ∀ p ∈ l, p.1 ≠ i) : Map.drop (Map.put l i v) i = l := by
  induction l with
  | nil => simp [Map.put, Map.drop]
  | cons x r ih =>
    obtain ⟨j, w⟩ := x
    have hj : j ≠ i := h (j, w) (by simp)
    have hr : ∀ p ∈ r, p.1 ≠ i := fun p hp => h p (by simp [hp])
    by_cases hi : i < j
    · simp [Map.put, Map.drop, hi, hj, Map.drop_of_look_none r i hr]
    · simp [Map.put, Map.drop, hi, hj, ih hr]

@[simp] theorem Map.insert_insert (m : Map α) (i : Nat) (v w : α) : (m.insert i v).insert i w = m.insert i w := by
  simp [Map.insert, Map.drop_put _ _ _ (Map.drop_ne m.cells i)]

@[simp] theorem Map.erase_insert (m : Map α) (i : Nat) (v : α) : (m.insert i v).erase i = m.erase i := by
  simp [Map.insert, Map.erase, Map.drop_put _ _ _ (Map.drop_ne m.cells i)]

@[simp] theorem Map.insert_erase (m : Map α) (i : Nat) (v : α) : (m.erase i).insert i v = m.insert i v := by
  simp [Map.insert, Map.erase]

@[simp] theorem Map.erase_erase (m : Map α) (i : Nat) : (m.erase i).erase i = m.erase i := by
  simp [Map.erase]

/-- Of two writes of a number, the later stands. -/
@[simp] theorem Map.set_set [DecidableEq α] (m : Map α) (d : α) (i : Nat) (v w : α) : (m.set d i v).set d i w = m.set d i w := by
  unfold Map.set
  split <;> split <;> simp

/-! ### Reads after writes -/

@[simp] theorem Map.find?_insert_self (m : Map α) (i : Nat) (v : α) : (m.insert i v).find? i = some v :=
  Map.look_put_self _ _ _ (Map.look_drop_self _ _)

theorem Map.find?_insert_ne (m : Map α) {i j : Nat} (v : α) (h : j ≠ i) : (m.insert i v).find? j = m.find? j := by
  simp [Map.find?, Map.insert, Map.look_put_ne _ _ h, Map.look_drop_ne _ h]

@[simp] theorem Map.find?_erase_self (m : Map α) (i : Nat) : (m.erase i).find? i = none := Map.look_drop_self _ _

theorem Map.find?_erase_ne (m : Map α) {i j : Nat} (h : j ≠ i) : (m.erase i).find? j = m.find? j := Map.look_drop_ne _ h

@[simp] theorem Map.find?_empty (i : Nat) : (Map.empty : Map α).find? i = none := rfl

@[simp] theorem Map.get_empty (d : α) (i : Nat) : (Map.empty : Map α).get d i = d := rfl

@[simp] theorem Map.get_set_self [DecidableEq α] (m : Map α) (d : α) (i : Nat) (v : α) : (m.set d i v).get d i = v := by
  unfold Map.set Map.get
  split <;> simp_all

theorem Map.get_set_ne [DecidableEq α] (m : Map α) (d d' : α) {i j : Nat} (v : α) (h : j ≠ i) :
    (m.set d i v).get d' j = m.get d' j := by
  unfold Map.set Map.get
  split <;> simp [Map.find?_erase_ne _ h, Map.find?_insert_ne _ _ h]

/-- Reading after a write, by number. -/
theorem Map.get_set [DecidableEq α] (m : Map α) (d : α) (i j : Nat) (v : α) :
    (m.set d i v).get d j = if j = i then v else m.get d j := by
  by_cases h : j = i
  · subst h; simp
  · simp [h, Map.get_set_ne]

/-! ### The canonical form -/

/-- Numbers rise from above a bound. -/
def Map.above (n : Option Nat) (j : Nat) : Prop :=
  match n with
  | none => True
  | some i => i < j

theorem Map.rising_cons (n : Option Nat) (j : Nat) (v : α) (r : List (Nat × α)) :
    Map.rising n ((j, v) :: r) = true ↔ Map.above n j ∧ Map.rising (some j) r = true := by
  cases n <;> simp [Map.rising, Map.above]

theorem Map.above_trans {n : Option Nat} {i j : Nat} (h : Map.above n i) (hij : i < j) : Map.above n j := by
  cases n with
  | none => trivial
  | some k => exact Nat.lt_trans h hij

theorem Map.rising_weaken {n : Option Nat} {i : Nat} (l : List (Nat × α)) (h : Map.above n i) (hr : Map.rising (some i) l = true) :
    Map.rising n l = true := by
  cases l with
  | nil => cases n <;> rfl
  | cons x r =>
    obtain ⟨j, v⟩ := x
    rw [Map.rising_cons] at hr ⊢
    exact ⟨Map.above_trans h hr.1, hr.2⟩

theorem Map.rising_drop {n : Option Nat} (l : List (Nat × α)) (i : Nat) (h : Map.rising n l = true) :
    Map.rising n (Map.drop l i) = true := by
  induction l generalizing n with
  | nil => exact h
  | cons x r ih =>
    obtain ⟨j, v⟩ := x
    rw [Map.rising_cons] at h
    by_cases hj : j = i
    · simp only [Map.drop, if_pos hj]
      exact ih (Map.rising_weaken r h.1 h.2)
    · simp only [Map.drop, if_neg hj]
      rw [Map.rising_cons]
      exact ⟨h.1, ih h.2⟩

theorem Map.rising_put {n : Option Nat} (l : List (Nat × α)) (i : Nat) (v : α) (hi : Map.above n i) (hn : Map.look l i = none)
    (h : Map.rising n l = true) : Map.rising n (Map.put l i v) = true := by
  induction l generalizing n with
  | nil => cases n <;> simp_all [Map.put, Map.rising, Map.above]
  | cons x r ih =>
    obtain ⟨j, w⟩ := x
    rw [Map.rising_cons] at h
    have hj : j ≠ i := by intro e; simp [Map.look, e] at hn
    have hr : Map.look r i = none := by simpa [Map.look, hj] using hn
    by_cases hlt : i < j
    · simp only [Map.put, if_pos hlt]
      rw [Map.rising_cons, Map.rising_cons]
      exact ⟨hi, hlt, h.2⟩
    · simp only [Map.put, if_neg hlt]
      rw [Map.rising_cons]
      exact ⟨h.1, ih (show j < i by omega) hr h.2⟩

theorem Map.mem_drop (l : List (Nat × α)) (i : Nat) (p : Nat × α) (h : p ∈ Map.drop l i) : p ∈ l := by
  induction l with
  | nil => exact h
  | cons x r ih =>
    obtain ⟨j, v⟩ := x
    by_cases hj : j = i
    · simp only [Map.drop, if_pos hj] at h
      exact List.mem_cons_of_mem _ (ih h)
    · simp only [Map.drop, if_neg hj, List.mem_cons] at h ⊢
      exact h.imp_right ih

theorem Map.mem_put (l : List (Nat × α)) (i : Nat) (v : α) (p : Nat × α) (h : p ∈ Map.put l i v) : p = (i, v) ∨ p ∈ l := by
  induction l with
  | nil => simpa [Map.put] using h
  | cons x r ih =>
    obtain ⟨j, w⟩ := x
    by_cases hlt : i < j
    · simpa [Map.put, hlt] using h
    · simp only [Map.put, if_neg hlt, List.mem_cons] at h ⊢
      rcases h with h | h
      · exact Or.inr (Or.inl h)
      · rcases ih h with h | h
        · exact Or.inl h
        · exact Or.inr (Or.inr h)

/-- A write keeps the canonical form. -/
theorem Map.wf_set [DecidableEq α] (m : Map α) (d : α) (i : Nat) (v : α) (h : m.wf d = true) : (m.set d i v).wf d = true := by
  simp only [Map.wf, Bool.and_eq_true, List.all_eq_true, decide_eq_true_eq] at h ⊢
  unfold Map.set
  split
  · exact ⟨Map.rising_drop _ _ h.1, fun p hp => h.2 p (Map.mem_drop _ _ _ hp)⟩
  · refine ⟨Map.rising_put _ _ _ trivial (Map.look_drop_self _ _) (Map.rising_drop _ _ h.1), fun p hp => ?_⟩
    rcases Map.mem_put _ _ _ _ hp with rfl | hp
    · assumption
    · exact h.2 p (Map.mem_drop _ _ _ hp)

/-- A change keeps the canonical form. -/
theorem Map.wf_upd [DecidableEq α] (m : Map α) (d : α) (i : Nat) (f : α → α) (h : m.wf d = true) : (m.upd d i f).wf d = true :=
  Map.wf_set m d i _ h

theorem Map.wf_empty [DecidableEq α] (d : α) : (Map.empty : Map α).wf d = true := rfl

end Sys2Proof.Machine
end

