-- ==== Sys2Proof/Laws/State.lean ====
section
/-! SUPPORT. What each update of the state leaves as it is, one lemma per field, and what is read after it. -/

namespace Sys2Proof.Machine

/-! ### setReg -/

@[simp] theorem Block.setReg_prm (b : Block) (pg off : Nat) (v : Word) : (b.setReg pg off v).prm = b.prm := rfl
@[simp] theorem Block.setReg_ages (b : Block) (pg off : Nat) (v : Word) : (b.setReg pg off v).ages = b.ages := rfl
@[simp] theorem Block.setReg_leave (b : Block) (pg off : Nat) (v : Word) : (b.setReg pg off v).leave = b.leave := rfl
@[simp] theorem Block.setReg_stn (b : Block) (pg off : Nat) (v : Word) : (b.setReg pg off v).stn = b.stn := rfl
@[simp] theorem Block.setReg_col (b : Block) (pg off : Nat) (v : Word) : (b.setReg pg off v).col = b.col := rfl
@[simp] theorem Block.setReg_pend (b : Block) (pg off : Nat) (v : Word) : (b.setReg pg off v).pend = b.pend := rfl
@[simp] theorem Block.setReg_pays (b : Block) (pg off : Nat) (v : Word) : (b.setReg pg off v).pays = b.pays := rfl
@[simp] theorem Block.setReg_eng (b : Block) (pg off : Nat) (v : Word) : (b.setReg pg off v).eng = b.eng := rfl
@[simp] theorem Block.setReg_cb (b : Block) (pg off : Nat) (v : Word) : (b.setReg pg off v).cb = b.cb := rfl
@[simp] theorem Block.setReg_ctx (b : Block) (pg off : Nat) (v : Word) : (b.setReg pg off v).ctx = b.ctx := rfl
@[simp] theorem Block.setReg_hold (b : Block) (pg off : Nat) (v : Word) : (b.setReg pg off v).hold = b.hold := rfl
@[simp] theorem Block.setReg_loads (b : Block) (pg off : Nat) (v : Word) : (b.setReg pg off v).loads = b.loads := rfl
@[simp] theorem Block.setReg_csg (b : Block) (pg off : Nat) (v : Word) : (b.setReg pg off v).csg = b.csg := rfl
@[simp] theorem Block.setReg_seat (b : Block) (pg off : Nat) (v : Word) : (b.setReg pg off v).seat = b.seat := rfl
@[simp] theorem Block.setReg_thr (b : Block) (pg off : Nat) (v : Word) : (b.setReg pg off v).thr = b.thr := rfl
@[simp] theorem Block.setReg_up (b : Block) (pg off : Nat) (v : Word) : (b.setReg pg off v).up = b.up := rfl
@[simp] theorem Block.setReg_ring (b : Block) (pg off : Nat) (v : Word) : (b.setReg pg off v).ring = b.ring := rfl
@[simp] theorem Block.setReg_wr (b : Block) (pg off : Nat) (v : Word) : (b.setReg pg off v).wr = b.wr := rfl
@[simp] theorem Block.setReg_idxFly (b : Block) (pg off : Nat) (v : Word) : (b.setReg pg off v).idxFly = b.idxFly := rfl
@[simp] theorem Block.setReg_last (b : Block) (pg off : Nat) (v : Word) : (b.setReg pg off v).last = b.last := rfl
@[simp] theorem Block.setReg_tu (b : Block) (pg off : Nat) (v : Word) : (b.setReg pg off v).tu = b.tu := rfl
@[simp] theorem Block.setReg_car (b : Block) (pg off : Nat) (v : Word) : (b.setReg pg off v).car = b.car := rfl
@[simp] theorem Block.setReg_vif (b : Block) (pg off : Nat) (v : Word) : (b.setReg pg off v).vif = b.vif := rfl
@[simp] theorem Block.setReg_vm (b : Block) (pg off : Nat) (v : Word) : (b.setReg pg off v).vm = b.vm := rfl
@[simp] theorem Block.setReg_xl (b : Block) (pg off : Nat) (v : Word) : (b.setReg pg off v).xl = b.xl := rfl
@[simp] theorem Block.setReg_jp (b : Block) (pg off : Nat) (v : Word) : (b.setReg pg off v).jp = b.jp := rfl
@[simp] theorem Block.setReg_otherFills (b : Block) (pg off : Nat) (v : Word) : (b.setReg pg off v).otherFills = b.otherFills := rfl
@[simp] theorem Block.setReg_tok (b : Block) (pg off : Nat) (v : Word) : (b.setReg pg off v).tok = b.tok := rfl
@[simp] theorem Block.setReg_clk (b : Block) (pg off : Nat) (v : Word) : (b.setReg pg off v).clk = b.clk := rfl
@[simp] theorem Block.setReg_pwr (b : Block) (pg off : Nat) (v : Word) : (b.setReg pg off v).pwr = b.pwr := rfl
@[simp] theorem Block.setReg_rm (b : Block) (pg off : Nat) (v : Word) : (b.setReg pg off v).rm = b.rm := rfl
@[simp] theorem Block.setReg_ras (b : Block) (pg off : Nat) (v : Word) : (b.setReg pg off v).ras = b.ras := rfl
@[simp] theorem Block.setReg_pmu (b : Block) (pg off : Nat) (v : Word) : (b.setReg pg off v).pmu = b.pmu := rfl

/-! ### setHdr -/

@[simp] theorem Block.setHdr_prm (b : Block) (pg : Nat) (h : PageHdr) : (b.setHdr pg h).prm = b.prm := rfl
@[simp] theorem Block.setHdr_ages (b : Block) (pg : Nat) (h : PageHdr) : (b.setHdr pg h).ages = b.ages := rfl
@[simp] theorem Block.setHdr_leave (b : Block) (pg : Nat) (h : PageHdr) : (b.setHdr pg h).leave = b.leave := rfl
@[simp] theorem Block.setHdr_stn (b : Block) (pg : Nat) (h : PageHdr) : (b.setHdr pg h).stn = b.stn := rfl
@[simp] theorem Block.setHdr_col (b : Block) (pg : Nat) (h : PageHdr) : (b.setHdr pg h).col = b.col := rfl
@[simp] theorem Block.setHdr_pend (b : Block) (pg : Nat) (h : PageHdr) : (b.setHdr pg h).pend = b.pend := rfl
@[simp] theorem Block.setHdr_pays (b : Block) (pg : Nat) (h : PageHdr) : (b.setHdr pg h).pays = b.pays := rfl
@[simp] theorem Block.setHdr_eng (b : Block) (pg : Nat) (h : PageHdr) : (b.setHdr pg h).eng = b.eng := rfl
@[simp] theorem Block.setHdr_cb (b : Block) (pg : Nat) (h : PageHdr) : (b.setHdr pg h).cb = b.cb := rfl
@[simp] theorem Block.setHdr_ctx (b : Block) (pg : Nat) (h : PageHdr) : (b.setHdr pg h).ctx = b.ctx := rfl
@[simp] theorem Block.setHdr_hold (b : Block) (pg : Nat) (h : PageHdr) : (b.setHdr pg h).hold = b.hold := rfl
@[simp] theorem Block.setHdr_loads (b : Block) (pg : Nat) (h : PageHdr) : (b.setHdr pg h).loads = b.loads := rfl
@[simp] theorem Block.setHdr_csg (b : Block) (pg : Nat) (h : PageHdr) : (b.setHdr pg h).csg = b.csg := rfl
@[simp] theorem Block.setHdr_seat (b : Block) (pg : Nat) (h : PageHdr) : (b.setHdr pg h).seat = b.seat := rfl
@[simp] theorem Block.setHdr_thr (b : Block) (pg : Nat) (h : PageHdr) : (b.setHdr pg h).thr = b.thr := rfl
@[simp] theorem Block.setHdr_up (b : Block) (pg : Nat) (h : PageHdr) : (b.setHdr pg h).up = b.up := rfl
@[simp] theorem Block.setHdr_ring (b : Block) (pg : Nat) (h : PageHdr) : (b.setHdr pg h).ring = b.ring := rfl
@[simp] theorem Block.setHdr_wr (b : Block) (pg : Nat) (h : PageHdr) : (b.setHdr pg h).wr = b.wr := rfl
@[simp] theorem Block.setHdr_idxFly (b : Block) (pg : Nat) (h : PageHdr) : (b.setHdr pg h).idxFly = b.idxFly := rfl
@[simp] theorem Block.setHdr_last (b : Block) (pg : Nat) (h : PageHdr) : (b.setHdr pg h).last = b.last := rfl
@[simp] theorem Block.setHdr_tu (b : Block) (pg : Nat) (h : PageHdr) : (b.setHdr pg h).tu = b.tu := rfl
@[simp] theorem Block.setHdr_car (b : Block) (pg : Nat) (h : PageHdr) : (b.setHdr pg h).car = b.car := rfl
@[simp] theorem Block.setHdr_vif (b : Block) (pg : Nat) (h : PageHdr) : (b.setHdr pg h).vif = b.vif := rfl
@[simp] theorem Block.setHdr_vm (b : Block) (pg : Nat) (h : PageHdr) : (b.setHdr pg h).vm = b.vm := rfl
@[simp] theorem Block.setHdr_xl (b : Block) (pg : Nat) (h : PageHdr) : (b.setHdr pg h).xl = b.xl := rfl
@[simp] theorem Block.setHdr_jp (b : Block) (pg : Nat) (h : PageHdr) : (b.setHdr pg h).jp = b.jp := rfl
@[simp] theorem Block.setHdr_otherFills (b : Block) (pg : Nat) (h : PageHdr) : (b.setHdr pg h).otherFills = b.otherFills := rfl
@[simp] theorem Block.setHdr_tok (b : Block) (pg : Nat) (h : PageHdr) : (b.setHdr pg h).tok = b.tok := rfl
@[simp] theorem Block.setHdr_clk (b : Block) (pg : Nat) (h : PageHdr) : (b.setHdr pg h).clk = b.clk := rfl
@[simp] theorem Block.setHdr_pwr (b : Block) (pg : Nat) (h : PageHdr) : (b.setHdr pg h).pwr = b.pwr := rfl
@[simp] theorem Block.setHdr_rm (b : Block) (pg : Nat) (h : PageHdr) : (b.setHdr pg h).rm = b.rm := rfl
@[simp] theorem Block.setHdr_ras (b : Block) (pg : Nat) (h : PageHdr) : (b.setHdr pg h).ras = b.ras := rfl
@[simp] theorem Block.setHdr_pmu (b : Block) (pg : Nat) (h : PageHdr) : (b.setHdr pg h).pmu = b.pmu := rfl

/-! ### setStation -/

@[simp] theorem Block.setStation_prm (b : Block) (k : Nat) (v : Station) : (b.setStation k v).prm = b.prm := rfl
@[simp] theorem Block.setStation_ages (b : Block) (k : Nat) (v : Station) : (b.setStation k v).ages = b.ages := rfl
@[simp] theorem Block.setStation_leave (b : Block) (k : Nat) (v : Station) : (b.setStation k v).leave = b.leave := rfl
@[simp] theorem Block.setStation_fab (b : Block) (k : Nat) (v : Station) : (b.setStation k v).fab = b.fab := rfl
@[simp] theorem Block.setStation_col (b : Block) (k : Nat) (v : Station) : (b.setStation k v).col = b.col := rfl
@[simp] theorem Block.setStation_pend (b : Block) (k : Nat) (v : Station) : (b.setStation k v).pend = b.pend := rfl
@[simp] theorem Block.setStation_pays (b : Block) (k : Nat) (v : Station) : (b.setStation k v).pays = b.pays := rfl
@[simp] theorem Block.setStation_eng (b : Block) (k : Nat) (v : Station) : (b.setStation k v).eng = b.eng := rfl
@[simp] theorem Block.setStation_cb (b : Block) (k : Nat) (v : Station) : (b.setStation k v).cb = b.cb := rfl
@[simp] theorem Block.setStation_ctx (b : Block) (k : Nat) (v : Station) : (b.setStation k v).ctx = b.ctx := rfl
@[simp] theorem Block.setStation_hold (b : Block) (k : Nat) (v : Station) : (b.setStation k v).hold = b.hold := rfl
@[simp] theorem Block.setStation_loads (b : Block) (k : Nat) (v : Station) : (b.setStation k v).loads = b.loads := rfl
@[simp] theorem Block.setStation_csg (b : Block) (k : Nat) (v : Station) : (b.setStation k v).csg = b.csg := rfl
@[simp] theorem Block.setStation_seat (b : Block) (k : Nat) (v : Station) : (b.setStation k v).seat = b.seat := rfl
@[simp] theorem Block.setStation_thr (b : Block) (k : Nat) (v : Station) : (b.setStation k v).thr = b.thr := rfl
@[simp] theorem Block.setStation_up (b : Block) (k : Nat) (v : Station) : (b.setStation k v).up = b.up := rfl
@[simp] theorem Block.setStation_ring (b : Block) (k : Nat) (v : Station) : (b.setStation k v).ring = b.ring := rfl
@[simp] theorem Block.setStation_wr (b : Block) (k : Nat) (v : Station) : (b.setStation k v).wr = b.wr := rfl
@[simp] theorem Block.setStation_idxFly (b : Block) (k : Nat) (v : Station) : (b.setStation k v).idxFly = b.idxFly := rfl
@[simp] theorem Block.setStation_last (b : Block) (k : Nat) (v : Station) : (b.setStation k v).last = b.last := rfl
@[simp] theorem Block.setStation_tu (b : Block) (k : Nat) (v : Station) : (b.setStation k v).tu = b.tu := rfl
@[simp] theorem Block.setStation_car (b : Block) (k : Nat) (v : Station) : (b.setStation k v).car = b.car := rfl
@[simp] theorem Block.setStation_vif (b : Block) (k : Nat) (v : Station) : (b.setStation k v).vif = b.vif := rfl
@[simp] theorem Block.setStation_vm (b : Block) (k : Nat) (v : Station) : (b.setStation k v).vm = b.vm := rfl
@[simp] theorem Block.setStation_xl (b : Block) (k : Nat) (v : Station) : (b.setStation k v).xl = b.xl := rfl
@[simp] theorem Block.setStation_jp (b : Block) (k : Nat) (v : Station) : (b.setStation k v).jp = b.jp := rfl
@[simp] theorem Block.setStation_otherFills (b : Block) (k : Nat) (v : Station) : (b.setStation k v).otherFills = b.otherFills := rfl
@[simp] theorem Block.setStation_tok (b : Block) (k : Nat) (v : Station) : (b.setStation k v).tok = b.tok := rfl
@[simp] theorem Block.setStation_clk (b : Block) (k : Nat) (v : Station) : (b.setStation k v).clk = b.clk := rfl
@[simp] theorem Block.setStation_pwr (b : Block) (k : Nat) (v : Station) : (b.setStation k v).pwr = b.pwr := rfl
@[simp] theorem Block.setStation_rm (b : Block) (k : Nat) (v : Station) : (b.setStation k v).rm = b.rm := rfl
@[simp] theorem Block.setStation_ras (b : Block) (k : Nat) (v : Station) : (b.setStation k v).ras = b.ras := rfl
@[simp] theorem Block.setStation_pmu (b : Block) (k : Nat) (v : Station) : (b.setStation k v).pmu = b.pmu := rfl

/-! ### setColl -/

@[simp] theorem Block.setColl_prm (b : Block) (c : Nat) (v : Collector) : (b.setColl c v).prm = b.prm := rfl
@[simp] theorem Block.setColl_ages (b : Block) (c : Nat) (v : Collector) : (b.setColl c v).ages = b.ages := rfl
@[simp] theorem Block.setColl_leave (b : Block) (c : Nat) (v : Collector) : (b.setColl c v).leave = b.leave := rfl
@[simp] theorem Block.setColl_fab (b : Block) (c : Nat) (v : Collector) : (b.setColl c v).fab = b.fab := rfl
@[simp] theorem Block.setColl_stn (b : Block) (c : Nat) (v : Collector) : (b.setColl c v).stn = b.stn := rfl
@[simp] theorem Block.setColl_pend (b : Block) (c : Nat) (v : Collector) : (b.setColl c v).pend = b.pend := rfl
@[simp] theorem Block.setColl_pays (b : Block) (c : Nat) (v : Collector) : (b.setColl c v).pays = b.pays := rfl
@[simp] theorem Block.setColl_eng (b : Block) (c : Nat) (v : Collector) : (b.setColl c v).eng = b.eng := rfl
@[simp] theorem Block.setColl_cb (b : Block) (c : Nat) (v : Collector) : (b.setColl c v).cb = b.cb := rfl
@[simp] theorem Block.setColl_ctx (b : Block) (c : Nat) (v : Collector) : (b.setColl c v).ctx = b.ctx := rfl
@[simp] theorem Block.setColl_hold (b : Block) (c : Nat) (v : Collector) : (b.setColl c v).hold = b.hold := rfl
@[simp] theorem Block.setColl_loads (b : Block) (c : Nat) (v : Collector) : (b.setColl c v).loads = b.loads := rfl
@[simp] theorem Block.setColl_csg (b : Block) (c : Nat) (v : Collector) : (b.setColl c v).csg = b.csg := rfl
@[simp] theorem Block.setColl_seat (b : Block) (c : Nat) (v : Collector) : (b.setColl c v).seat = b.seat := rfl
@[simp] theorem Block.setColl_thr (b : Block) (c : Nat) (v : Collector) : (b.setColl c v).thr = b.thr := rfl
@[simp] theorem Block.setColl_up (b : Block) (c : Nat) (v : Collector) : (b.setColl c v).up = b.up := rfl
@[simp] theorem Block.setColl_ring (b : Block) (c : Nat) (v : Collector) : (b.setColl c v).ring = b.ring := rfl
@[simp] theorem Block.setColl_wr (b : Block) (c : Nat) (v : Collector) : (b.setColl c v).wr = b.wr := rfl
@[simp] theorem Block.setColl_idxFly (b : Block) (c : Nat) (v : Collector) : (b.setColl c v).idxFly = b.idxFly := rfl
@[simp] theorem Block.setColl_last (b : Block) (c : Nat) (v : Collector) : (b.setColl c v).last = b.last := rfl
@[simp] theorem Block.setColl_tu (b : Block) (c : Nat) (v : Collector) : (b.setColl c v).tu = b.tu := rfl
@[simp] theorem Block.setColl_car (b : Block) (c : Nat) (v : Collector) : (b.setColl c v).car = b.car := rfl
@[simp] theorem Block.setColl_vif (b : Block) (c : Nat) (v : Collector) : (b.setColl c v).vif = b.vif := rfl
@[simp] theorem Block.setColl_vm (b : Block) (c : Nat) (v : Collector) : (b.setColl c v).vm = b.vm := rfl
@[simp] theorem Block.setColl_xl (b : Block) (c : Nat) (v : Collector) : (b.setColl c v).xl = b.xl := rfl
@[simp] theorem Block.setColl_jp (b : Block) (c : Nat) (v : Collector) : (b.setColl c v).jp = b.jp := rfl
@[simp] theorem Block.setColl_otherFills (b : Block) (c : Nat) (v : Collector) : (b.setColl c v).otherFills = b.otherFills := rfl
@[simp] theorem Block.setColl_tok (b : Block) (c : Nat) (v : Collector) : (b.setColl c v).tok = b.tok := rfl
@[simp] theorem Block.setColl_clk (b : Block) (c : Nat) (v : Collector) : (b.setColl c v).clk = b.clk := rfl
@[simp] theorem Block.setColl_pwr (b : Block) (c : Nat) (v : Collector) : (b.setColl c v).pwr = b.pwr := rfl
@[simp] theorem Block.setColl_rm (b : Block) (c : Nat) (v : Collector) : (b.setColl c v).rm = b.rm := rfl
@[simp] theorem Block.setColl_ras (b : Block) (c : Nat) (v : Collector) : (b.setColl c v).ras = b.ras := rfl
@[simp] theorem Block.setColl_pmu (b : Block) (c : Nat) (v : Collector) : (b.setColl c v).pmu = b.pmu := rfl

/-! ### setPend -/

@[simp] theorem Block.setPend_prm (b : Block) (e : Event) (v : Pend) : (b.setPend e v).prm = b.prm := rfl
@[simp] theorem Block.setPend_ages (b : Block) (e : Event) (v : Pend) : (b.setPend e v).ages = b.ages := rfl
@[simp] theorem Block.setPend_leave (b : Block) (e : Event) (v : Pend) : (b.setPend e v).leave = b.leave := rfl
@[simp] theorem Block.setPend_fab (b : Block) (e : Event) (v : Pend) : (b.setPend e v).fab = b.fab := rfl
@[simp] theorem Block.setPend_stn (b : Block) (e : Event) (v : Pend) : (b.setPend e v).stn = b.stn := rfl
@[simp] theorem Block.setPend_col (b : Block) (e : Event) (v : Pend) : (b.setPend e v).col = b.col := rfl
@[simp] theorem Block.setPend_pays (b : Block) (e : Event) (v : Pend) : (b.setPend e v).pays = b.pays := rfl
@[simp] theorem Block.setPend_eng (b : Block) (e : Event) (v : Pend) : (b.setPend e v).eng = b.eng := rfl
@[simp] theorem Block.setPend_cb (b : Block) (e : Event) (v : Pend) : (b.setPend e v).cb = b.cb := rfl
@[simp] theorem Block.setPend_ctx (b : Block) (e : Event) (v : Pend) : (b.setPend e v).ctx = b.ctx := rfl
@[simp] theorem Block.setPend_hold (b : Block) (e : Event) (v : Pend) : (b.setPend e v).hold = b.hold := rfl
@[simp] theorem Block.setPend_loads (b : Block) (e : Event) (v : Pend) : (b.setPend e v).loads = b.loads := rfl
@[simp] theorem Block.setPend_csg (b : Block) (e : Event) (v : Pend) : (b.setPend e v).csg = b.csg := rfl
@[simp] theorem Block.setPend_seat (b : Block) (e : Event) (v : Pend) : (b.setPend e v).seat = b.seat := rfl
@[simp] theorem Block.setPend_thr (b : Block) (e : Event) (v : Pend) : (b.setPend e v).thr = b.thr := rfl
@[simp] theorem Block.setPend_up (b : Block) (e : Event) (v : Pend) : (b.setPend e v).up = b.up := rfl
@[simp] theorem Block.setPend_ring (b : Block) (e : Event) (v : Pend) : (b.setPend e v).ring = b.ring := rfl
@[simp] theorem Block.setPend_wr (b : Block) (e : Event) (v : Pend) : (b.setPend e v).wr = b.wr := rfl
@[simp] theorem Block.setPend_idxFly (b : Block) (e : Event) (v : Pend) : (b.setPend e v).idxFly = b.idxFly := rfl
@[simp] theorem Block.setPend_last (b : Block) (e : Event) (v : Pend) : (b.setPend e v).last = b.last := rfl
@[simp] theorem Block.setPend_tu (b : Block) (e : Event) (v : Pend) : (b.setPend e v).tu = b.tu := rfl
@[simp] theorem Block.setPend_car (b : Block) (e : Event) (v : Pend) : (b.setPend e v).car = b.car := rfl
@[simp] theorem Block.setPend_vif (b : Block) (e : Event) (v : Pend) : (b.setPend e v).vif = b.vif := rfl
@[simp] theorem Block.setPend_vm (b : Block) (e : Event) (v : Pend) : (b.setPend e v).vm = b.vm := rfl
@[simp] theorem Block.setPend_xl (b : Block) (e : Event) (v : Pend) : (b.setPend e v).xl = b.xl := rfl
@[simp] theorem Block.setPend_jp (b : Block) (e : Event) (v : Pend) : (b.setPend e v).jp = b.jp := rfl
@[simp] theorem Block.setPend_otherFills (b : Block) (e : Event) (v : Pend) : (b.setPend e v).otherFills = b.otherFills := rfl
@[simp] theorem Block.setPend_tok (b : Block) (e : Event) (v : Pend) : (b.setPend e v).tok = b.tok := rfl
@[simp] theorem Block.setPend_clk (b : Block) (e : Event) (v : Pend) : (b.setPend e v).clk = b.clk := rfl
@[simp] theorem Block.setPend_pwr (b : Block) (e : Event) (v : Pend) : (b.setPend e v).pwr = b.pwr := rfl
@[simp] theorem Block.setPend_rm (b : Block) (e : Event) (v : Pend) : (b.setPend e v).rm = b.rm := rfl
@[simp] theorem Block.setPend_ras (b : Block) (e : Event) (v : Pend) : (b.setPend e v).ras = b.ras := rfl
@[simp] theorem Block.setPend_pmu (b : Block) (e : Event) (v : Pend) : (b.setPend e v).pmu = b.pmu := rfl

/-! ### setEngine -/

@[simp] theorem Block.setEngine_prm (b : Block) (n : Nat) (v : Engine) : (b.setEngine n v).prm = b.prm := rfl
@[simp] theorem Block.setEngine_ages (b : Block) (n : Nat) (v : Engine) : (b.setEngine n v).ages = b.ages := rfl
@[simp] theorem Block.setEngine_leave (b : Block) (n : Nat) (v : Engine) : (b.setEngine n v).leave = b.leave := rfl
@[simp] theorem Block.setEngine_fab (b : Block) (n : Nat) (v : Engine) : (b.setEngine n v).fab = b.fab := rfl
@[simp] theorem Block.setEngine_stn (b : Block) (n : Nat) (v : Engine) : (b.setEngine n v).stn = b.stn := rfl
@[simp] theorem Block.setEngine_col (b : Block) (n : Nat) (v : Engine) : (b.setEngine n v).col = b.col := rfl
@[simp] theorem Block.setEngine_pend (b : Block) (n : Nat) (v : Engine) : (b.setEngine n v).pend = b.pend := rfl
@[simp] theorem Block.setEngine_pays (b : Block) (n : Nat) (v : Engine) : (b.setEngine n v).pays = b.pays := rfl
@[simp] theorem Block.setEngine_cb (b : Block) (n : Nat) (v : Engine) : (b.setEngine n v).cb = b.cb := rfl
@[simp] theorem Block.setEngine_ctx (b : Block) (n : Nat) (v : Engine) : (b.setEngine n v).ctx = b.ctx := rfl
@[simp] theorem Block.setEngine_hold (b : Block) (n : Nat) (v : Engine) : (b.setEngine n v).hold = b.hold := rfl
@[simp] theorem Block.setEngine_loads (b : Block) (n : Nat) (v : Engine) : (b.setEngine n v).loads = b.loads := rfl
@[simp] theorem Block.setEngine_csg (b : Block) (n : Nat) (v : Engine) : (b.setEngine n v).csg = b.csg := rfl
@[simp] theorem Block.setEngine_seat (b : Block) (n : Nat) (v : Engine) : (b.setEngine n v).seat = b.seat := rfl
@[simp] theorem Block.setEngine_thr (b : Block) (n : Nat) (v : Engine) : (b.setEngine n v).thr = b.thr := rfl
@[simp] theorem Block.setEngine_up (b : Block) (n : Nat) (v : Engine) : (b.setEngine n v).up = b.up := rfl
@[simp] theorem Block.setEngine_ring (b : Block) (n : Nat) (v : Engine) : (b.setEngine n v).ring = b.ring := rfl
@[simp] theorem Block.setEngine_wr (b : Block) (n : Nat) (v : Engine) : (b.setEngine n v).wr = b.wr := rfl
@[simp] theorem Block.setEngine_idxFly (b : Block) (n : Nat) (v : Engine) : (b.setEngine n v).idxFly = b.idxFly := rfl
@[simp] theorem Block.setEngine_last (b : Block) (n : Nat) (v : Engine) : (b.setEngine n v).last = b.last := rfl
@[simp] theorem Block.setEngine_tu (b : Block) (n : Nat) (v : Engine) : (b.setEngine n v).tu = b.tu := rfl
@[simp] theorem Block.setEngine_car (b : Block) (n : Nat) (v : Engine) : (b.setEngine n v).car = b.car := rfl
@[simp] theorem Block.setEngine_vif (b : Block) (n : Nat) (v : Engine) : (b.setEngine n v).vif = b.vif := rfl
@[simp] theorem Block.setEngine_vm (b : Block) (n : Nat) (v : Engine) : (b.setEngine n v).vm = b.vm := rfl
@[simp] theorem Block.setEngine_xl (b : Block) (n : Nat) (v : Engine) : (b.setEngine n v).xl = b.xl := rfl
@[simp] theorem Block.setEngine_jp (b : Block) (n : Nat) (v : Engine) : (b.setEngine n v).jp = b.jp := rfl
@[simp] theorem Block.setEngine_otherFills (b : Block) (n : Nat) (v : Engine) : (b.setEngine n v).otherFills = b.otherFills := rfl
@[simp] theorem Block.setEngine_tok (b : Block) (n : Nat) (v : Engine) : (b.setEngine n v).tok = b.tok := rfl
@[simp] theorem Block.setEngine_clk (b : Block) (n : Nat) (v : Engine) : (b.setEngine n v).clk = b.clk := rfl
@[simp] theorem Block.setEngine_pwr (b : Block) (n : Nat) (v : Engine) : (b.setEngine n v).pwr = b.pwr := rfl
@[simp] theorem Block.setEngine_rm (b : Block) (n : Nat) (v : Engine) : (b.setEngine n v).rm = b.rm := rfl
@[simp] theorem Block.setEngine_ras (b : Block) (n : Nat) (v : Engine) : (b.setEngine n v).ras = b.ras := rfl
@[simp] theorem Block.setEngine_pmu (b : Block) (n : Nat) (v : Engine) : (b.setEngine n v).pmu = b.pmu := rfl

/-! ### setBank -/

@[simp] theorem Block.setBank_prm (b : Block) (q : Nat) (v : CBank) : (b.setBank q v).prm = b.prm := rfl
@[simp] theorem Block.setBank_ages (b : Block) (q : Nat) (v : CBank) : (b.setBank q v).ages = b.ages := rfl
@[simp] theorem Block.setBank_leave (b : Block) (q : Nat) (v : CBank) : (b.setBank q v).leave = b.leave := rfl
@[simp] theorem Block.setBank_fab (b : Block) (q : Nat) (v : CBank) : (b.setBank q v).fab = b.fab := rfl
@[simp] theorem Block.setBank_stn (b : Block) (q : Nat) (v : CBank) : (b.setBank q v).stn = b.stn := rfl
@[simp] theorem Block.setBank_col (b : Block) (q : Nat) (v : CBank) : (b.setBank q v).col = b.col := rfl
@[simp] theorem Block.setBank_pend (b : Block) (q : Nat) (v : CBank) : (b.setBank q v).pend = b.pend := rfl
@[simp] theorem Block.setBank_pays (b : Block) (q : Nat) (v : CBank) : (b.setBank q v).pays = b.pays := rfl
@[simp] theorem Block.setBank_eng (b : Block) (q : Nat) (v : CBank) : (b.setBank q v).eng = b.eng := rfl
@[simp] theorem Block.setBank_ctx (b : Block) (q : Nat) (v : CBank) : (b.setBank q v).ctx = b.ctx := rfl
@[simp] theorem Block.setBank_hold (b : Block) (q : Nat) (v : CBank) : (b.setBank q v).hold = b.hold := rfl
@[simp] theorem Block.setBank_loads (b : Block) (q : Nat) (v : CBank) : (b.setBank q v).loads = b.loads := rfl
@[simp] theorem Block.setBank_csg (b : Block) (q : Nat) (v : CBank) : (b.setBank q v).csg = b.csg := rfl
@[simp] theorem Block.setBank_seat (b : Block) (q : Nat) (v : CBank) : (b.setBank q v).seat = b.seat := rfl
@[simp] theorem Block.setBank_thr (b : Block) (q : Nat) (v : CBank) : (b.setBank q v).thr = b.thr := rfl
@[simp] theorem Block.setBank_up (b : Block) (q : Nat) (v : CBank) : (b.setBank q v).up = b.up := rfl
@[simp] theorem Block.setBank_ring (b : Block) (q : Nat) (v : CBank) : (b.setBank q v).ring = b.ring := rfl
@[simp] theorem Block.setBank_wr (b : Block) (q : Nat) (v : CBank) : (b.setBank q v).wr = b.wr := rfl
@[simp] theorem Block.setBank_idxFly (b : Block) (q : Nat) (v : CBank) : (b.setBank q v).idxFly = b.idxFly := rfl
@[simp] theorem Block.setBank_last (b : Block) (q : Nat) (v : CBank) : (b.setBank q v).last = b.last := rfl
@[simp] theorem Block.setBank_tu (b : Block) (q : Nat) (v : CBank) : (b.setBank q v).tu = b.tu := rfl
@[simp] theorem Block.setBank_car (b : Block) (q : Nat) (v : CBank) : (b.setBank q v).car = b.car := rfl
@[simp] theorem Block.setBank_vif (b : Block) (q : Nat) (v : CBank) : (b.setBank q v).vif = b.vif := rfl
@[simp] theorem Block.setBank_vm (b : Block) (q : Nat) (v : CBank) : (b.setBank q v).vm = b.vm := rfl
@[simp] theorem Block.setBank_xl (b : Block) (q : Nat) (v : CBank) : (b.setBank q v).xl = b.xl := rfl
@[simp] theorem Block.setBank_jp (b : Block) (q : Nat) (v : CBank) : (b.setBank q v).jp = b.jp := rfl
@[simp] theorem Block.setBank_otherFills (b : Block) (q : Nat) (v : CBank) : (b.setBank q v).otherFills = b.otherFills := rfl
@[simp] theorem Block.setBank_tok (b : Block) (q : Nat) (v : CBank) : (b.setBank q v).tok = b.tok := rfl
@[simp] theorem Block.setBank_clk (b : Block) (q : Nat) (v : CBank) : (b.setBank q v).clk = b.clk := rfl
@[simp] theorem Block.setBank_pwr (b : Block) (q : Nat) (v : CBank) : (b.setBank q v).pwr = b.pwr := rfl
@[simp] theorem Block.setBank_rm (b : Block) (q : Nat) (v : CBank) : (b.setBank q v).rm = b.rm := rfl
@[simp] theorem Block.setBank_ras (b : Block) (q : Nat) (v : CBank) : (b.setBank q v).ras = b.ras := rfl
@[simp] theorem Block.setBank_pmu (b : Block) (q : Nat) (v : CBank) : (b.setBank q v).pmu = b.pmu := rfl

/-! ### setRec -/

@[simp] theorem Block.setRec_prm (b : Block) (c : CtxNo) (v : Ctx) : (b.setRec c v).prm = b.prm := rfl
@[simp] theorem Block.setRec_ages (b : Block) (c : CtxNo) (v : Ctx) : (b.setRec c v).ages = b.ages := rfl
@[simp] theorem Block.setRec_leave (b : Block) (c : CtxNo) (v : Ctx) : (b.setRec c v).leave = b.leave := rfl
@[simp] theorem Block.setRec_fab (b : Block) (c : CtxNo) (v : Ctx) : (b.setRec c v).fab = b.fab := rfl
@[simp] theorem Block.setRec_stn (b : Block) (c : CtxNo) (v : Ctx) : (b.setRec c v).stn = b.stn := rfl
@[simp] theorem Block.setRec_col (b : Block) (c : CtxNo) (v : Ctx) : (b.setRec c v).col = b.col := rfl
@[simp] theorem Block.setRec_pend (b : Block) (c : CtxNo) (v : Ctx) : (b.setRec c v).pend = b.pend := rfl
@[simp] theorem Block.setRec_pays (b : Block) (c : CtxNo) (v : Ctx) : (b.setRec c v).pays = b.pays := rfl
@[simp] theorem Block.setRec_eng (b : Block) (c : CtxNo) (v : Ctx) : (b.setRec c v).eng = b.eng := rfl
@[simp] theorem Block.setRec_cb (b : Block) (c : CtxNo) (v : Ctx) : (b.setRec c v).cb = b.cb := rfl
@[simp] theorem Block.setRec_hold (b : Block) (c : CtxNo) (v : Ctx) : (b.setRec c v).hold = b.hold := rfl
@[simp] theorem Block.setRec_loads (b : Block) (c : CtxNo) (v : Ctx) : (b.setRec c v).loads = b.loads := rfl
@[simp] theorem Block.setRec_csg (b : Block) (c : CtxNo) (v : Ctx) : (b.setRec c v).csg = b.csg := rfl
@[simp] theorem Block.setRec_seat (b : Block) (c : CtxNo) (v : Ctx) : (b.setRec c v).seat = b.seat := rfl
@[simp] theorem Block.setRec_thr (b : Block) (c : CtxNo) (v : Ctx) : (b.setRec c v).thr = b.thr := rfl
@[simp] theorem Block.setRec_up (b : Block) (c : CtxNo) (v : Ctx) : (b.setRec c v).up = b.up := rfl
@[simp] theorem Block.setRec_ring (b : Block) (c : CtxNo) (v : Ctx) : (b.setRec c v).ring = b.ring := rfl
@[simp] theorem Block.setRec_wr (b : Block) (c : CtxNo) (v : Ctx) : (b.setRec c v).wr = b.wr := rfl
@[simp] theorem Block.setRec_idxFly (b : Block) (c : CtxNo) (v : Ctx) : (b.setRec c v).idxFly = b.idxFly := rfl
@[simp] theorem Block.setRec_last (b : Block) (c : CtxNo) (v : Ctx) : (b.setRec c v).last = b.last := rfl
@[simp] theorem Block.setRec_tu (b : Block) (c : CtxNo) (v : Ctx) : (b.setRec c v).tu = b.tu := rfl
@[simp] theorem Block.setRec_car (b : Block) (c : CtxNo) (v : Ctx) : (b.setRec c v).car = b.car := rfl
@[simp] theorem Block.setRec_vif (b : Block) (c : CtxNo) (v : Ctx) : (b.setRec c v).vif = b.vif := rfl
@[simp] theorem Block.setRec_vm (b : Block) (c : CtxNo) (v : Ctx) : (b.setRec c v).vm = b.vm := rfl
@[simp] theorem Block.setRec_xl (b : Block) (c : CtxNo) (v : Ctx) : (b.setRec c v).xl = b.xl := rfl
@[simp] theorem Block.setRec_jp (b : Block) (c : CtxNo) (v : Ctx) : (b.setRec c v).jp = b.jp := rfl
@[simp] theorem Block.setRec_otherFills (b : Block) (c : CtxNo) (v : Ctx) : (b.setRec c v).otherFills = b.otherFills := rfl
@[simp] theorem Block.setRec_tok (b : Block) (c : CtxNo) (v : Ctx) : (b.setRec c v).tok = b.tok := rfl
@[simp] theorem Block.setRec_clk (b : Block) (c : CtxNo) (v : Ctx) : (b.setRec c v).clk = b.clk := rfl
@[simp] theorem Block.setRec_pwr (b : Block) (c : CtxNo) (v : Ctx) : (b.setRec c v).pwr = b.pwr := rfl
@[simp] theorem Block.setRec_rm (b : Block) (c : CtxNo) (v : Ctx) : (b.setRec c v).rm = b.rm := rfl
@[simp] theorem Block.setRec_ras (b : Block) (c : CtxNo) (v : Ctx) : (b.setRec c v).ras = b.ras := rfl
@[simp] theorem Block.setRec_pmu (b : Block) (c : CtxNo) (v : Ctx) : (b.setRec c v).pmu = b.pmu := rfl

/-! ### setSeat -/

@[simp] theorem Block.setSeat_prm (b : Block) (i : Nat) (v : Seat) : (b.setSeat i v).prm = b.prm := rfl
@[simp] theorem Block.setSeat_ages (b : Block) (i : Nat) (v : Seat) : (b.setSeat i v).ages = b.ages := rfl
@[simp] theorem Block.setSeat_leave (b : Block) (i : Nat) (v : Seat) : (b.setSeat i v).leave = b.leave := rfl
@[simp] theorem Block.setSeat_fab (b : Block) (i : Nat) (v : Seat) : (b.setSeat i v).fab = b.fab := rfl
@[simp] theorem Block.setSeat_stn (b : Block) (i : Nat) (v : Seat) : (b.setSeat i v).stn = b.stn := rfl
@[simp] theorem Block.setSeat_col (b : Block) (i : Nat) (v : Seat) : (b.setSeat i v).col = b.col := rfl
@[simp] theorem Block.setSeat_pend (b : Block) (i : Nat) (v : Seat) : (b.setSeat i v).pend = b.pend := rfl
@[simp] theorem Block.setSeat_pays (b : Block) (i : Nat) (v : Seat) : (b.setSeat i v).pays = b.pays := rfl
@[simp] theorem Block.setSeat_eng (b : Block) (i : Nat) (v : Seat) : (b.setSeat i v).eng = b.eng := rfl
@[simp] theorem Block.setSeat_cb (b : Block) (i : Nat) (v : Seat) : (b.setSeat i v).cb = b.cb := rfl
@[simp] theorem Block.setSeat_ctx (b : Block) (i : Nat) (v : Seat) : (b.setSeat i v).ctx = b.ctx := rfl
@[simp] theorem Block.setSeat_hold (b : Block) (i : Nat) (v : Seat) : (b.setSeat i v).hold = b.hold := rfl
@[simp] theorem Block.setSeat_loads (b : Block) (i : Nat) (v : Seat) : (b.setSeat i v).loads = b.loads := rfl
@[simp] theorem Block.setSeat_csg (b : Block) (i : Nat) (v : Seat) : (b.setSeat i v).csg = b.csg := rfl
@[simp] theorem Block.setSeat_thr (b : Block) (i : Nat) (v : Seat) : (b.setSeat i v).thr = b.thr := rfl
@[simp] theorem Block.setSeat_up (b : Block) (i : Nat) (v : Seat) : (b.setSeat i v).up = b.up := rfl
@[simp] theorem Block.setSeat_ring (b : Block) (i : Nat) (v : Seat) : (b.setSeat i v).ring = b.ring := rfl
@[simp] theorem Block.setSeat_wr (b : Block) (i : Nat) (v : Seat) : (b.setSeat i v).wr = b.wr := rfl
@[simp] theorem Block.setSeat_idxFly (b : Block) (i : Nat) (v : Seat) : (b.setSeat i v).idxFly = b.idxFly := rfl
@[simp] theorem Block.setSeat_last (b : Block) (i : Nat) (v : Seat) : (b.setSeat i v).last = b.last := rfl
@[simp] theorem Block.setSeat_tu (b : Block) (i : Nat) (v : Seat) : (b.setSeat i v).tu = b.tu := rfl
@[simp] theorem Block.setSeat_car (b : Block) (i : Nat) (v : Seat) : (b.setSeat i v).car = b.car := rfl
@[simp] theorem Block.setSeat_vif (b : Block) (i : Nat) (v : Seat) : (b.setSeat i v).vif = b.vif := rfl
@[simp] theorem Block.setSeat_vm (b : Block) (i : Nat) (v : Seat) : (b.setSeat i v).vm = b.vm := rfl
@[simp] theorem Block.setSeat_xl (b : Block) (i : Nat) (v : Seat) : (b.setSeat i v).xl = b.xl := rfl
@[simp] theorem Block.setSeat_jp (b : Block) (i : Nat) (v : Seat) : (b.setSeat i v).jp = b.jp := rfl
@[simp] theorem Block.setSeat_otherFills (b : Block) (i : Nat) (v : Seat) : (b.setSeat i v).otherFills = b.otherFills := rfl
@[simp] theorem Block.setSeat_tok (b : Block) (i : Nat) (v : Seat) : (b.setSeat i v).tok = b.tok := rfl
@[simp] theorem Block.setSeat_clk (b : Block) (i : Nat) (v : Seat) : (b.setSeat i v).clk = b.clk := rfl
@[simp] theorem Block.setSeat_pwr (b : Block) (i : Nat) (v : Seat) : (b.setSeat i v).pwr = b.pwr := rfl
@[simp] theorem Block.setSeat_rm (b : Block) (i : Nat) (v : Seat) : (b.setSeat i v).rm = b.rm := rfl
@[simp] theorem Block.setSeat_ras (b : Block) (i : Nat) (v : Seat) : (b.setSeat i v).ras = b.ras := rfl
@[simp] theorem Block.setSeat_pmu (b : Block) (i : Nat) (v : Seat) : (b.setSeat i v).pmu = b.pmu := rfl

/-! ### setThread -/

@[simp] theorem Block.setThread_prm (b : Block) (t : Nat) (v : Thread) : (b.setThread t v).prm = b.prm := rfl
@[simp] theorem Block.setThread_ages (b : Block) (t : Nat) (v : Thread) : (b.setThread t v).ages = b.ages := rfl
@[simp] theorem Block.setThread_leave (b : Block) (t : Nat) (v : Thread) : (b.setThread t v).leave = b.leave := rfl
@[simp] theorem Block.setThread_fab (b : Block) (t : Nat) (v : Thread) : (b.setThread t v).fab = b.fab := rfl
@[simp] theorem Block.setThread_stn (b : Block) (t : Nat) (v : Thread) : (b.setThread t v).stn = b.stn := rfl
@[simp] theorem Block.setThread_col (b : Block) (t : Nat) (v : Thread) : (b.setThread t v).col = b.col := rfl
@[simp] theorem Block.setThread_pend (b : Block) (t : Nat) (v : Thread) : (b.setThread t v).pend = b.pend := rfl
@[simp] theorem Block.setThread_pays (b : Block) (t : Nat) (v : Thread) : (b.setThread t v).pays = b.pays := rfl
@[simp] theorem Block.setThread_eng (b : Block) (t : Nat) (v : Thread) : (b.setThread t v).eng = b.eng := rfl
@[simp] theorem Block.setThread_cb (b : Block) (t : Nat) (v : Thread) : (b.setThread t v).cb = b.cb := rfl
@[simp] theorem Block.setThread_ctx (b : Block) (t : Nat) (v : Thread) : (b.setThread t v).ctx = b.ctx := rfl
@[simp] theorem Block.setThread_hold (b : Block) (t : Nat) (v : Thread) : (b.setThread t v).hold = b.hold := rfl
@[simp] theorem Block.setThread_loads (b : Block) (t : Nat) (v : Thread) : (b.setThread t v).loads = b.loads := rfl
@[simp] theorem Block.setThread_csg (b : Block) (t : Nat) (v : Thread) : (b.setThread t v).csg = b.csg := rfl
@[simp] theorem Block.setThread_seat (b : Block) (t : Nat) (v : Thread) : (b.setThread t v).seat = b.seat := rfl
@[simp] theorem Block.setThread_up (b : Block) (t : Nat) (v : Thread) : (b.setThread t v).up = b.up := rfl
@[simp] theorem Block.setThread_ring (b : Block) (t : Nat) (v : Thread) : (b.setThread t v).ring = b.ring := rfl
@[simp] theorem Block.setThread_wr (b : Block) (t : Nat) (v : Thread) : (b.setThread t v).wr = b.wr := rfl
@[simp] theorem Block.setThread_idxFly (b : Block) (t : Nat) (v : Thread) : (b.setThread t v).idxFly = b.idxFly := rfl
@[simp] theorem Block.setThread_last (b : Block) (t : Nat) (v : Thread) : (b.setThread t v).last = b.last := rfl
@[simp] theorem Block.setThread_tu (b : Block) (t : Nat) (v : Thread) : (b.setThread t v).tu = b.tu := rfl
@[simp] theorem Block.setThread_car (b : Block) (t : Nat) (v : Thread) : (b.setThread t v).car = b.car := rfl
@[simp] theorem Block.setThread_vif (b : Block) (t : Nat) (v : Thread) : (b.setThread t v).vif = b.vif := rfl
@[simp] theorem Block.setThread_vm (b : Block) (t : Nat) (v : Thread) : (b.setThread t v).vm = b.vm := rfl
@[simp] theorem Block.setThread_xl (b : Block) (t : Nat) (v : Thread) : (b.setThread t v).xl = b.xl := rfl
@[simp] theorem Block.setThread_jp (b : Block) (t : Nat) (v : Thread) : (b.setThread t v).jp = b.jp := rfl
@[simp] theorem Block.setThread_otherFills (b : Block) (t : Nat) (v : Thread) : (b.setThread t v).otherFills = b.otherFills := rfl
@[simp] theorem Block.setThread_tok (b : Block) (t : Nat) (v : Thread) : (b.setThread t v).tok = b.tok := rfl
@[simp] theorem Block.setThread_clk (b : Block) (t : Nat) (v : Thread) : (b.setThread t v).clk = b.clk := rfl
@[simp] theorem Block.setThread_pwr (b : Block) (t : Nat) (v : Thread) : (b.setThread t v).pwr = b.pwr := rfl
@[simp] theorem Block.setThread_rm (b : Block) (t : Nat) (v : Thread) : (b.setThread t v).rm = b.rm := rfl
@[simp] theorem Block.setThread_ras (b : Block) (t : Nat) (v : Thread) : (b.setThread t v).ras = b.ras := rfl
@[simp] theorem Block.setThread_pmu (b : Block) (t : Nat) (v : Thread) : (b.setThread t v).pmu = b.pmu := rfl

/-! ### setCmd -/

@[simp] theorem Block.setCmd_prm (b : Block) (g : Nat) (v : CsgCmd) : (b.setCmd g v).prm = b.prm := rfl
@[simp] theorem Block.setCmd_ages (b : Block) (g : Nat) (v : CsgCmd) : (b.setCmd g v).ages = b.ages := rfl
@[simp] theorem Block.setCmd_leave (b : Block) (g : Nat) (v : CsgCmd) : (b.setCmd g v).leave = b.leave := rfl
@[simp] theorem Block.setCmd_fab (b : Block) (g : Nat) (v : CsgCmd) : (b.setCmd g v).fab = b.fab := rfl
@[simp] theorem Block.setCmd_stn (b : Block) (g : Nat) (v : CsgCmd) : (b.setCmd g v).stn = b.stn := rfl
@[simp] theorem Block.setCmd_col (b : Block) (g : Nat) (v : CsgCmd) : (b.setCmd g v).col = b.col := rfl
@[simp] theorem Block.setCmd_pend (b : Block) (g : Nat) (v : CsgCmd) : (b.setCmd g v).pend = b.pend := rfl
@[simp] theorem Block.setCmd_pays (b : Block) (g : Nat) (v : CsgCmd) : (b.setCmd g v).pays = b.pays := rfl
@[simp] theorem Block.setCmd_eng (b : Block) (g : Nat) (v : CsgCmd) : (b.setCmd g v).eng = b.eng := rfl
@[simp] theorem Block.setCmd_cb (b : Block) (g : Nat) (v : CsgCmd) : (b.setCmd g v).cb = b.cb := rfl
@[simp] theorem Block.setCmd_ctx (b : Block) (g : Nat) (v : CsgCmd) : (b.setCmd g v).ctx = b.ctx := rfl
@[simp] theorem Block.setCmd_hold (b : Block) (g : Nat) (v : CsgCmd) : (b.setCmd g v).hold = b.hold := rfl
@[simp] theorem Block.setCmd_loads (b : Block) (g : Nat) (v : CsgCmd) : (b.setCmd g v).loads = b.loads := rfl
@[simp] theorem Block.setCmd_seat (b : Block) (g : Nat) (v : CsgCmd) : (b.setCmd g v).seat = b.seat := rfl
@[simp] theorem Block.setCmd_thr (b : Block) (g : Nat) (v : CsgCmd) : (b.setCmd g v).thr = b.thr := rfl
@[simp] theorem Block.setCmd_up (b : Block) (g : Nat) (v : CsgCmd) : (b.setCmd g v).up = b.up := rfl
@[simp] theorem Block.setCmd_ring (b : Block) (g : Nat) (v : CsgCmd) : (b.setCmd g v).ring = b.ring := rfl
@[simp] theorem Block.setCmd_wr (b : Block) (g : Nat) (v : CsgCmd) : (b.setCmd g v).wr = b.wr := rfl
@[simp] theorem Block.setCmd_idxFly (b : Block) (g : Nat) (v : CsgCmd) : (b.setCmd g v).idxFly = b.idxFly := rfl
@[simp] theorem Block.setCmd_last (b : Block) (g : Nat) (v : CsgCmd) : (b.setCmd g v).last = b.last := rfl
@[simp] theorem Block.setCmd_tu (b : Block) (g : Nat) (v : CsgCmd) : (b.setCmd g v).tu = b.tu := rfl
@[simp] theorem Block.setCmd_car (b : Block) (g : Nat) (v : CsgCmd) : (b.setCmd g v).car = b.car := rfl
@[simp] theorem Block.setCmd_vif (b : Block) (g : Nat) (v : CsgCmd) : (b.setCmd g v).vif = b.vif := rfl
@[simp] theorem Block.setCmd_vm (b : Block) (g : Nat) (v : CsgCmd) : (b.setCmd g v).vm = b.vm := rfl
@[simp] theorem Block.setCmd_xl (b : Block) (g : Nat) (v : CsgCmd) : (b.setCmd g v).xl = b.xl := rfl
@[simp] theorem Block.setCmd_jp (b : Block) (g : Nat) (v : CsgCmd) : (b.setCmd g v).jp = b.jp := rfl
@[simp] theorem Block.setCmd_otherFills (b : Block) (g : Nat) (v : CsgCmd) : (b.setCmd g v).otherFills = b.otherFills := rfl
@[simp] theorem Block.setCmd_tok (b : Block) (g : Nat) (v : CsgCmd) : (b.setCmd g v).tok = b.tok := rfl
@[simp] theorem Block.setCmd_clk (b : Block) (g : Nat) (v : CsgCmd) : (b.setCmd g v).clk = b.clk := rfl
@[simp] theorem Block.setCmd_pwr (b : Block) (g : Nat) (v : CsgCmd) : (b.setCmd g v).pwr = b.pwr := rfl
@[simp] theorem Block.setCmd_rm (b : Block) (g : Nat) (v : CsgCmd) : (b.setCmd g v).rm = b.rm := rfl
@[simp] theorem Block.setCmd_ras (b : Block) (g : Nat) (v : CsgCmd) : (b.setCmd g v).ras = b.ras := rfl
@[simp] theorem Block.setCmd_pmu (b : Block) (g : Nat) (v : CsgCmd) : (b.setCmd g v).pmu = b.pmu := rfl

/-! ### setRing -/

@[simp] theorem Block.setRing_prm (b : Block) (r : RingNo) (v : Ring) : (b.setRing r v).prm = b.prm := rfl
@[simp] theorem Block.setRing_ages (b : Block) (r : RingNo) (v : Ring) : (b.setRing r v).ages = b.ages := rfl
@[simp] theorem Block.setRing_leave (b : Block) (r : RingNo) (v : Ring) : (b.setRing r v).leave = b.leave := rfl
@[simp] theorem Block.setRing_fab (b : Block) (r : RingNo) (v : Ring) : (b.setRing r v).fab = b.fab := rfl
@[simp] theorem Block.setRing_stn (b : Block) (r : RingNo) (v : Ring) : (b.setRing r v).stn = b.stn := rfl
@[simp] theorem Block.setRing_col (b : Block) (r : RingNo) (v : Ring) : (b.setRing r v).col = b.col := rfl
@[simp] theorem Block.setRing_pend (b : Block) (r : RingNo) (v : Ring) : (b.setRing r v).pend = b.pend := rfl
@[simp] theorem Block.setRing_pays (b : Block) (r : RingNo) (v : Ring) : (b.setRing r v).pays = b.pays := rfl
@[simp] theorem Block.setRing_eng (b : Block) (r : RingNo) (v : Ring) : (b.setRing r v).eng = b.eng := rfl
@[simp] theorem Block.setRing_cb (b : Block) (r : RingNo) (v : Ring) : (b.setRing r v).cb = b.cb := rfl
@[simp] theorem Block.setRing_ctx (b : Block) (r : RingNo) (v : Ring) : (b.setRing r v).ctx = b.ctx := rfl
@[simp] theorem Block.setRing_hold (b : Block) (r : RingNo) (v : Ring) : (b.setRing r v).hold = b.hold := rfl
@[simp] theorem Block.setRing_loads (b : Block) (r : RingNo) (v : Ring) : (b.setRing r v).loads = b.loads := rfl
@[simp] theorem Block.setRing_csg (b : Block) (r : RingNo) (v : Ring) : (b.setRing r v).csg = b.csg := rfl
@[simp] theorem Block.setRing_seat (b : Block) (r : RingNo) (v : Ring) : (b.setRing r v).seat = b.seat := rfl
@[simp] theorem Block.setRing_thr (b : Block) (r : RingNo) (v : Ring) : (b.setRing r v).thr = b.thr := rfl
@[simp] theorem Block.setRing_up (b : Block) (r : RingNo) (v : Ring) : (b.setRing r v).up = b.up := rfl
@[simp] theorem Block.setRing_wr (b : Block) (r : RingNo) (v : Ring) : (b.setRing r v).wr = b.wr := rfl
@[simp] theorem Block.setRing_idxFly (b : Block) (r : RingNo) (v : Ring) : (b.setRing r v).idxFly = b.idxFly := rfl
@[simp] theorem Block.setRing_last (b : Block) (r : RingNo) (v : Ring) : (b.setRing r v).last = b.last := rfl
@[simp] theorem Block.setRing_tu (b : Block) (r : RingNo) (v : Ring) : (b.setRing r v).tu = b.tu := rfl
@[simp] theorem Block.setRing_car (b : Block) (r : RingNo) (v : Ring) : (b.setRing r v).car = b.car := rfl
@[simp] theorem Block.setRing_vif (b : Block) (r : RingNo) (v : Ring) : (b.setRing r v).vif = b.vif := rfl
@[simp] theorem Block.setRing_vm (b : Block) (r : RingNo) (v : Ring) : (b.setRing r v).vm = b.vm := rfl
@[simp] theorem Block.setRing_xl (b : Block) (r : RingNo) (v : Ring) : (b.setRing r v).xl = b.xl := rfl
@[simp] theorem Block.setRing_jp (b : Block) (r : RingNo) (v : Ring) : (b.setRing r v).jp = b.jp := rfl
@[simp] theorem Block.setRing_otherFills (b : Block) (r : RingNo) (v : Ring) : (b.setRing r v).otherFills = b.otherFills := rfl
@[simp] theorem Block.setRing_tok (b : Block) (r : RingNo) (v : Ring) : (b.setRing r v).tok = b.tok := rfl
@[simp] theorem Block.setRing_clk (b : Block) (r : RingNo) (v : Ring) : (b.setRing r v).clk = b.clk := rfl
@[simp] theorem Block.setRing_pwr (b : Block) (r : RingNo) (v : Ring) : (b.setRing r v).pwr = b.pwr := rfl
@[simp] theorem Block.setRing_rm (b : Block) (r : RingNo) (v : Ring) : (b.setRing r v).rm = b.rm := rfl
@[simp] theorem Block.setRing_ras (b : Block) (r : RingNo) (v : Ring) : (b.setRing r v).ras = b.ras := rfl
@[simp] theorem Block.setRing_pmu (b : Block) (r : RingNo) (v : Ring) : (b.setRing r v).pmu = b.pmu := rfl

/-! ### setWriter -/

@[simp] theorem Block.setWriter_prm (b : Block) (w : Nat) (v : Writer) : (b.setWriter w v).prm = b.prm := rfl
@[simp] theorem Block.setWriter_ages (b : Block) (w : Nat) (v : Writer) : (b.setWriter w v).ages = b.ages := rfl
@[simp] theorem Block.setWriter_leave (b : Block) (w : Nat) (v : Writer) : (b.setWriter w v).leave = b.leave := rfl
@[simp] theorem Block.setWriter_fab (b : Block) (w : Nat) (v : Writer) : (b.setWriter w v).fab = b.fab := rfl
@[simp] theorem Block.setWriter_stn (b : Block) (w : Nat) (v : Writer) : (b.setWriter w v).stn = b.stn := rfl
@[simp] theorem Block.setWriter_col (b : Block) (w : Nat) (v : Writer) : (b.setWriter w v).col = b.col := rfl
@[simp] theorem Block.setWriter_pend (b : Block) (w : Nat) (v : Writer) : (b.setWriter w v).pend = b.pend := rfl
@[simp] theorem Block.setWriter_pays (b : Block) (w : Nat) (v : Writer) : (b.setWriter w v).pays = b.pays := rfl
@[simp] theorem Block.setWriter_eng (b : Block) (w : Nat) (v : Writer) : (b.setWriter w v).eng = b.eng := rfl
@[simp] theorem Block.setWriter_cb (b : Block) (w : Nat) (v : Writer) : (b.setWriter w v).cb = b.cb := rfl
@[simp] theorem Block.setWriter_ctx (b : Block) (w : Nat) (v : Writer) : (b.setWriter w v).ctx = b.ctx := rfl
@[simp] theorem Block.setWriter_hold (b : Block) (w : Nat) (v : Writer) : (b.setWriter w v).hold = b.hold := rfl
@[simp] theorem Block.setWriter_loads (b : Block) (w : Nat) (v : Writer) : (b.setWriter w v).loads = b.loads := rfl
@[simp] theorem Block.setWriter_csg (b : Block) (w : Nat) (v : Writer) : (b.setWriter w v).csg = b.csg := rfl
@[simp] theorem Block.setWriter_seat (b : Block) (w : Nat) (v : Writer) : (b.setWriter w v).seat = b.seat := rfl
@[simp] theorem Block.setWriter_thr (b : Block) (w : Nat) (v : Writer) : (b.setWriter w v).thr = b.thr := rfl
@[simp] theorem Block.setWriter_up (b : Block) (w : Nat) (v : Writer) : (b.setWriter w v).up = b.up := rfl
@[simp] theorem Block.setWriter_ring (b : Block) (w : Nat) (v : Writer) : (b.setWriter w v).ring = b.ring := rfl
@[simp] theorem Block.setWriter_idxFly (b : Block) (w : Nat) (v : Writer) : (b.setWriter w v).idxFly = b.idxFly := rfl
@[simp] theorem Block.setWriter_last (b : Block) (w : Nat) (v : Writer) : (b.setWriter w v).last = b.last := rfl
@[simp] theorem Block.setWriter_tu (b : Block) (w : Nat) (v : Writer) : (b.setWriter w v).tu = b.tu := rfl
@[simp] theorem Block.setWriter_car (b : Block) (w : Nat) (v : Writer) : (b.setWriter w v).car = b.car := rfl
@[simp] theorem Block.setWriter_vif (b : Block) (w : Nat) (v : Writer) : (b.setWriter w v).vif = b.vif := rfl
@[simp] theorem Block.setWriter_vm (b : Block) (w : Nat) (v : Writer) : (b.setWriter w v).vm = b.vm := rfl
@[simp] theorem Block.setWriter_xl (b : Block) (w : Nat) (v : Writer) : (b.setWriter w v).xl = b.xl := rfl
@[simp] theorem Block.setWriter_jp (b : Block) (w : Nat) (v : Writer) : (b.setWriter w v).jp = b.jp := rfl
@[simp] theorem Block.setWriter_otherFills (b : Block) (w : Nat) (v : Writer) : (b.setWriter w v).otherFills = b.otherFills := rfl
@[simp] theorem Block.setWriter_tok (b : Block) (w : Nat) (v : Writer) : (b.setWriter w v).tok = b.tok := rfl
@[simp] theorem Block.setWriter_clk (b : Block) (w : Nat) (v : Writer) : (b.setWriter w v).clk = b.clk := rfl
@[simp] theorem Block.setWriter_pwr (b : Block) (w : Nat) (v : Writer) : (b.setWriter w v).pwr = b.pwr := rfl
@[simp] theorem Block.setWriter_rm (b : Block) (w : Nat) (v : Writer) : (b.setWriter w v).rm = b.rm := rfl
@[simp] theorem Block.setWriter_ras (b : Block) (w : Nat) (v : Writer) : (b.setWriter w v).ras = b.ras := rfl
@[simp] theorem Block.setWriter_pmu (b : Block) (w : Nat) (v : Writer) : (b.setWriter w v).pmu = b.pmu := rfl

/-! ### setVif -/

@[simp] theorem Block.setVif_prm (b : Block) (v : Nat) (x : Vif) : (b.setVif v x).prm = b.prm := rfl
@[simp] theorem Block.setVif_ages (b : Block) (v : Nat) (x : Vif) : (b.setVif v x).ages = b.ages := rfl
@[simp] theorem Block.setVif_leave (b : Block) (v : Nat) (x : Vif) : (b.setVif v x).leave = b.leave := rfl
@[simp] theorem Block.setVif_fab (b : Block) (v : Nat) (x : Vif) : (b.setVif v x).fab = b.fab := rfl
@[simp] theorem Block.setVif_stn (b : Block) (v : Nat) (x : Vif) : (b.setVif v x).stn = b.stn := rfl
@[simp] theorem Block.setVif_col (b : Block) (v : Nat) (x : Vif) : (b.setVif v x).col = b.col := rfl
@[simp] theorem Block.setVif_pend (b : Block) (v : Nat) (x : Vif) : (b.setVif v x).pend = b.pend := rfl
@[simp] theorem Block.setVif_pays (b : Block) (v : Nat) (x : Vif) : (b.setVif v x).pays = b.pays := rfl
@[simp] theorem Block.setVif_eng (b : Block) (v : Nat) (x : Vif) : (b.setVif v x).eng = b.eng := rfl
@[simp] theorem Block.setVif_cb (b : Block) (v : Nat) (x : Vif) : (b.setVif v x).cb = b.cb := rfl
@[simp] theorem Block.setVif_ctx (b : Block) (v : Nat) (x : Vif) : (b.setVif v x).ctx = b.ctx := rfl
@[simp] theorem Block.setVif_hold (b : Block) (v : Nat) (x : Vif) : (b.setVif v x).hold = b.hold := rfl
@[simp] theorem Block.setVif_loads (b : Block) (v : Nat) (x : Vif) : (b.setVif v x).loads = b.loads := rfl
@[simp] theorem Block.setVif_csg (b : Block) (v : Nat) (x : Vif) : (b.setVif v x).csg = b.csg := rfl
@[simp] theorem Block.setVif_seat (b : Block) (v : Nat) (x : Vif) : (b.setVif v x).seat = b.seat := rfl
@[simp] theorem Block.setVif_thr (b : Block) (v : Nat) (x : Vif) : (b.setVif v x).thr = b.thr := rfl
@[simp] theorem Block.setVif_up (b : Block) (v : Nat) (x : Vif) : (b.setVif v x).up = b.up := rfl
@[simp] theorem Block.setVif_ring (b : Block) (v : Nat) (x : Vif) : (b.setVif v x).ring = b.ring := rfl
@[simp] theorem Block.setVif_wr (b : Block) (v : Nat) (x : Vif) : (b.setVif v x).wr = b.wr := rfl
@[simp] theorem Block.setVif_idxFly (b : Block) (v : Nat) (x : Vif) : (b.setVif v x).idxFly = b.idxFly := rfl
@[simp] theorem Block.setVif_last (b : Block) (v : Nat) (x : Vif) : (b.setVif v x).last = b.last := rfl
@[simp] theorem Block.setVif_tu (b : Block) (v : Nat) (x : Vif) : (b.setVif v x).tu = b.tu := rfl
@[simp] theorem Block.setVif_car (b : Block) (v : Nat) (x : Vif) : (b.setVif v x).car = b.car := rfl
@[simp] theorem Block.setVif_vm (b : Block) (v : Nat) (x : Vif) : (b.setVif v x).vm = b.vm := rfl
@[simp] theorem Block.setVif_xl (b : Block) (v : Nat) (x : Vif) : (b.setVif v x).xl = b.xl := rfl
@[simp] theorem Block.setVif_jp (b : Block) (v : Nat) (x : Vif) : (b.setVif v x).jp = b.jp := rfl
@[simp] theorem Block.setVif_otherFills (b : Block) (v : Nat) (x : Vif) : (b.setVif v x).otherFills = b.otherFills := rfl
@[simp] theorem Block.setVif_tok (b : Block) (v : Nat) (x : Vif) : (b.setVif v x).tok = b.tok := rfl
@[simp] theorem Block.setVif_clk (b : Block) (v : Nat) (x : Vif) : (b.setVif v x).clk = b.clk := rfl
@[simp] theorem Block.setVif_pwr (b : Block) (v : Nat) (x : Vif) : (b.setVif v x).pwr = b.pwr := rfl
@[simp] theorem Block.setVif_rm (b : Block) (v : Nat) (x : Vif) : (b.setVif v x).rm = b.rm := rfl
@[simp] theorem Block.setVif_ras (b : Block) (v : Nat) (x : Vif) : (b.setVif v x).ras = b.ras := rfl
@[simp] theorem Block.setVif_pmu (b : Block) (v : Nat) (x : Vif) : (b.setVif v x).pmu = b.pmu := rfl

/-! ### setDlCh -/

@[simp] theorem Block.setDlCh_prm (b : Block) (c : Nat) (x : DlCh) : (b.setDlCh c x).prm = b.prm := rfl
@[simp] theorem Block.setDlCh_ages (b : Block) (c : Nat) (x : DlCh) : (b.setDlCh c x).ages = b.ages := rfl
@[simp] theorem Block.setDlCh_leave (b : Block) (c : Nat) (x : DlCh) : (b.setDlCh c x).leave = b.leave := rfl
@[simp] theorem Block.setDlCh_fab (b : Block) (c : Nat) (x : DlCh) : (b.setDlCh c x).fab = b.fab := rfl
@[simp] theorem Block.setDlCh_stn (b : Block) (c : Nat) (x : DlCh) : (b.setDlCh c x).stn = b.stn := rfl
@[simp] theorem Block.setDlCh_col (b : Block) (c : Nat) (x : DlCh) : (b.setDlCh c x).col = b.col := rfl
@[simp] theorem Block.setDlCh_pend (b : Block) (c : Nat) (x : DlCh) : (b.setDlCh c x).pend = b.pend := rfl
@[simp] theorem Block.setDlCh_pays (b : Block) (c : Nat) (x : DlCh) : (b.setDlCh c x).pays = b.pays := rfl
@[simp] theorem Block.setDlCh_eng (b : Block) (c : Nat) (x : DlCh) : (b.setDlCh c x).eng = b.eng := rfl
@[simp] theorem Block.setDlCh_cb (b : Block) (c : Nat) (x : DlCh) : (b.setDlCh c x).cb = b.cb := rfl
@[simp] theorem Block.setDlCh_ctx (b : Block) (c : Nat) (x : DlCh) : (b.setDlCh c x).ctx = b.ctx := rfl
@[simp] theorem Block.setDlCh_hold (b : Block) (c : Nat) (x : DlCh) : (b.setDlCh c x).hold = b.hold := rfl
@[simp] theorem Block.setDlCh_loads (b : Block) (c : Nat) (x : DlCh) : (b.setDlCh c x).loads = b.loads := rfl
@[simp] theorem Block.setDlCh_csg (b : Block) (c : Nat) (x : DlCh) : (b.setDlCh c x).csg = b.csg := rfl
@[simp] theorem Block.setDlCh_seat (b : Block) (c : Nat) (x : DlCh) : (b.setDlCh c x).seat = b.seat := rfl
@[simp] theorem Block.setDlCh_thr (b : Block) (c : Nat) (x : DlCh) : (b.setDlCh c x).thr = b.thr := rfl
@[simp] theorem Block.setDlCh_up (b : Block) (c : Nat) (x : DlCh) : (b.setDlCh c x).up = b.up := rfl
@[simp] theorem Block.setDlCh_ring (b : Block) (c : Nat) (x : DlCh) : (b.setDlCh c x).ring = b.ring := rfl
@[simp] theorem Block.setDlCh_wr (b : Block) (c : Nat) (x : DlCh) : (b.setDlCh c x).wr = b.wr := rfl
@[simp] theorem Block.setDlCh_idxFly (b : Block) (c : Nat) (x : DlCh) : (b.setDlCh c x).idxFly = b.idxFly := rfl
@[simp] theorem Block.setDlCh_last (b : Block) (c : Nat) (x : DlCh) : (b.setDlCh c x).last = b.last := rfl
@[simp] theorem Block.setDlCh_tu (b : Block) (c : Nat) (x : DlCh) : (b.setDlCh c x).tu = b.tu := rfl
@[simp] theorem Block.setDlCh_car (b : Block) (c : Nat) (x : DlCh) : (b.setDlCh c x).car = b.car := rfl
@[simp] theorem Block.setDlCh_vif (b : Block) (c : Nat) (x : DlCh) : (b.setDlCh c x).vif = b.vif := rfl
@[simp] theorem Block.setDlCh_xl (b : Block) (c : Nat) (x : DlCh) : (b.setDlCh c x).xl = b.xl := rfl
@[simp] theorem Block.setDlCh_jp (b : Block) (c : Nat) (x : DlCh) : (b.setDlCh c x).jp = b.jp := rfl
@[simp] theorem Block.setDlCh_otherFills (b : Block) (c : Nat) (x : DlCh) : (b.setDlCh c x).otherFills = b.otherFills := rfl
@[simp] theorem Block.setDlCh_tok (b : Block) (c : Nat) (x : DlCh) : (b.setDlCh c x).tok = b.tok := rfl
@[simp] theorem Block.setDlCh_clk (b : Block) (c : Nat) (x : DlCh) : (b.setDlCh c x).clk = b.clk := rfl
@[simp] theorem Block.setDlCh_pwr (b : Block) (c : Nat) (x : DlCh) : (b.setDlCh c x).pwr = b.pwr := rfl
@[simp] theorem Block.setDlCh_rm (b : Block) (c : Nat) (x : DlCh) : (b.setDlCh c x).rm = b.rm := rfl
@[simp] theorem Block.setDlCh_ras (b : Block) (c : Nat) (x : DlCh) : (b.setDlCh c x).ras = b.ras := rfl
@[simp] theorem Block.setDlCh_pmu (b : Block) (c : Nat) (x : DlCh) : (b.setDlCh c x).pmu = b.pmu := rfl

/-! ### setPort -/

@[simp] theorem Block.setPort_prm (b : Block) (p : Nat) (x : JPort) : (b.setPort p x).prm = b.prm := rfl
@[simp] theorem Block.setPort_ages (b : Block) (p : Nat) (x : JPort) : (b.setPort p x).ages = b.ages := rfl
@[simp] theorem Block.setPort_leave (b : Block) (p : Nat) (x : JPort) : (b.setPort p x).leave = b.leave := rfl
@[simp] theorem Block.setPort_fab (b : Block) (p : Nat) (x : JPort) : (b.setPort p x).fab = b.fab := rfl
@[simp] theorem Block.setPort_stn (b : Block) (p : Nat) (x : JPort) : (b.setPort p x).stn = b.stn := rfl
@[simp] theorem Block.setPort_col (b : Block) (p : Nat) (x : JPort) : (b.setPort p x).col = b.col := rfl
@[simp] theorem Block.setPort_pend (b : Block) (p : Nat) (x : JPort) : (b.setPort p x).pend = b.pend := rfl
@[simp] theorem Block.setPort_pays (b : Block) (p : Nat) (x : JPort) : (b.setPort p x).pays = b.pays := rfl
@[simp] theorem Block.setPort_eng (b : Block) (p : Nat) (x : JPort) : (b.setPort p x).eng = b.eng := rfl
@[simp] theorem Block.setPort_cb (b : Block) (p : Nat) (x : JPort) : (b.setPort p x).cb = b.cb := rfl
@[simp] theorem Block.setPort_ctx (b : Block) (p : Nat) (x : JPort) : (b.setPort p x).ctx = b.ctx := rfl
@[simp] theorem Block.setPort_hold (b : Block) (p : Nat) (x : JPort) : (b.setPort p x).hold = b.hold := rfl
@[simp] theorem Block.setPort_loads (b : Block) (p : Nat) (x : JPort) : (b.setPort p x).loads = b.loads := rfl
@[simp] theorem Block.setPort_csg (b : Block) (p : Nat) (x : JPort) : (b.setPort p x).csg = b.csg := rfl
@[simp] theorem Block.setPort_seat (b : Block) (p : Nat) (x : JPort) : (b.setPort p x).seat = b.seat := rfl
@[simp] theorem Block.setPort_thr (b : Block) (p : Nat) (x : JPort) : (b.setPort p x).thr = b.thr := rfl
@[simp] theorem Block.setPort_up (b : Block) (p : Nat) (x : JPort) : (b.setPort p x).up = b.up := rfl
@[simp] theorem Block.setPort_ring (b : Block) (p : Nat) (x : JPort) : (b.setPort p x).ring = b.ring := rfl
@[simp] theorem Block.setPort_wr (b : Block) (p : Nat) (x : JPort) : (b.setPort p x).wr = b.wr := rfl
@[simp] theorem Block.setPort_idxFly (b : Block) (p : Nat) (x : JPort) : (b.setPort p x).idxFly = b.idxFly := rfl
@[simp] theorem Block.setPort_last (b : Block) (p : Nat) (x : JPort) : (b.setPort p x).last = b.last := rfl
@[simp] theorem Block.setPort_tu (b : Block) (p : Nat) (x : JPort) : (b.setPort p x).tu = b.tu := rfl
@[simp] theorem Block.setPort_car (b : Block) (p : Nat) (x : JPort) : (b.setPort p x).car = b.car := rfl
@[simp] theorem Block.setPort_vif (b : Block) (p : Nat) (x : JPort) : (b.setPort p x).vif = b.vif := rfl
@[simp] theorem Block.setPort_vm (b : Block) (p : Nat) (x : JPort) : (b.setPort p x).vm = b.vm := rfl
@[simp] theorem Block.setPort_xl (b : Block) (p : Nat) (x : JPort) : (b.setPort p x).xl = b.xl := rfl
@[simp] theorem Block.setPort_otherFills (b : Block) (p : Nat) (x : JPort) : (b.setPort p x).otherFills = b.otherFills := rfl
@[simp] theorem Block.setPort_tok (b : Block) (p : Nat) (x : JPort) : (b.setPort p x).tok = b.tok := rfl
@[simp] theorem Block.setPort_clk (b : Block) (p : Nat) (x : JPort) : (b.setPort p x).clk = b.clk := rfl
@[simp] theorem Block.setPort_pwr (b : Block) (p : Nat) (x : JPort) : (b.setPort p x).pwr = b.pwr := rfl
@[simp] theorem Block.setPort_rm (b : Block) (p : Nat) (x : JPort) : (b.setPort p x).rm = b.rm := rfl
@[simp] theorem Block.setPort_ras (b : Block) (p : Nat) (x : JPort) : (b.setPort p x).ras = b.ras := rfl
@[simp] theorem Block.setPort_pmu (b : Block) (p : Nat) (x : JPort) : (b.setPort p x).pmu = b.pmu := rfl

/-! ### granted -/

@[simp] theorem Block.granted_prm (b : Block) (r : Res) (i : Nat) : (b.granted r i).prm = b.prm := rfl
@[simp] theorem Block.granted_leave (b : Block) (r : Res) (i : Nat) : (b.granted r i).leave = b.leave := rfl
@[simp] theorem Block.granted_fab (b : Block) (r : Res) (i : Nat) : (b.granted r i).fab = b.fab := rfl
@[simp] theorem Block.granted_stn (b : Block) (r : Res) (i : Nat) : (b.granted r i).stn = b.stn := rfl
@[simp] theorem Block.granted_col (b : Block) (r : Res) (i : Nat) : (b.granted r i).col = b.col := rfl
@[simp] theorem Block.granted_pend (b : Block) (r : Res) (i : Nat) : (b.granted r i).pend = b.pend := rfl
@[simp] theorem Block.granted_pays (b : Block) (r : Res) (i : Nat) : (b.granted r i).pays = b.pays := rfl
@[simp] theorem Block.granted_eng (b : Block) (r : Res) (i : Nat) : (b.granted r i).eng = b.eng := rfl
@[simp] theorem Block.granted_cb (b : Block) (r : Res) (i : Nat) : (b.granted r i).cb = b.cb := rfl
@[simp] theorem Block.granted_ctx (b : Block) (r : Res) (i : Nat) : (b.granted r i).ctx = b.ctx := rfl
@[simp] theorem Block.granted_hold (b : Block) (r : Res) (i : Nat) : (b.granted r i).hold = b.hold := rfl
@[simp] theorem Block.granted_loads (b : Block) (r : Res) (i : Nat) : (b.granted r i).loads = b.loads := rfl
@[simp] theorem Block.granted_csg (b : Block) (r : Res) (i : Nat) : (b.granted r i).csg = b.csg := rfl
@[simp] theorem Block.granted_seat (b : Block) (r : Res) (i : Nat) : (b.granted r i).seat = b.seat := rfl
@[simp] theorem Block.granted_thr (b : Block) (r : Res) (i : Nat) : (b.granted r i).thr = b.thr := rfl
@[simp] theorem Block.granted_up (b : Block) (r : Res) (i : Nat) : (b.granted r i).up = b.up := rfl
@[simp] theorem Block.granted_ring (b : Block) (r : Res) (i : Nat) : (b.granted r i).ring = b.ring := rfl
@[simp] theorem Block.granted_wr (b : Block) (r : Res) (i : Nat) : (b.granted r i).wr = b.wr := rfl
@[simp] theorem Block.granted_idxFly (b : Block) (r : Res) (i : Nat) : (b.granted r i).idxFly = b.idxFly := rfl
@[simp] theorem Block.granted_last (b : Block) (r : Res) (i : Nat) : (b.granted r i).last = b.last := rfl
@[simp] theorem Block.granted_tu (b : Block) (r : Res) (i : Nat) : (b.granted r i).tu = b.tu := rfl
@[simp] theorem Block.granted_car (b : Block) (r : Res) (i : Nat) : (b.granted r i).car = b.car := rfl
@[simp] theorem Block.granted_vif (b : Block) (r : Res) (i : Nat) : (b.granted r i).vif = b.vif := rfl
@[simp] theorem Block.granted_vm (b : Block) (r : Res) (i : Nat) : (b.granted r i).vm = b.vm := rfl
@[simp] theorem Block.granted_xl (b : Block) (r : Res) (i : Nat) : (b.granted r i).xl = b.xl := rfl
@[simp] theorem Block.granted_jp (b : Block) (r : Res) (i : Nat) : (b.granted r i).jp = b.jp := rfl
@[simp] theorem Block.granted_otherFills (b : Block) (r : Res) (i : Nat) : (b.granted r i).otherFills = b.otherFills := rfl
@[simp] theorem Block.granted_tok (b : Block) (r : Res) (i : Nat) : (b.granted r i).tok = b.tok := rfl
@[simp] theorem Block.granted_clk (b : Block) (r : Res) (i : Nat) : (b.granted r i).clk = b.clk := rfl
@[simp] theorem Block.granted_pwr (b : Block) (r : Res) (i : Nat) : (b.granted r i).pwr = b.pwr := rfl
@[simp] theorem Block.granted_rm (b : Block) (r : Res) (i : Nat) : (b.granted r i).rm = b.rm := rfl
@[simp] theorem Block.granted_ras (b : Block) (r : Res) (i : Nat) : (b.granted r i).ras = b.ras := rfl
@[simp] theorem Block.granted_pmu (b : Block) (r : Res) (i : Nat) : (b.granted r i).pmu = b.pmu := rfl

/-! ### answer -/

@[simp] theorem Block.answer_prm (b : Block) (err : Bool) (data : BitVec 64) : (b.answer err data).prm = b.prm := rfl
@[simp] theorem Block.answer_ages (b : Block) (err : Bool) (data : BitVec 64) : (b.answer err data).ages = b.ages := rfl
@[simp] theorem Block.answer_leave (b : Block) (err : Bool) (data : BitVec 64) : (b.answer err data).leave = b.leave := rfl
@[simp] theorem Block.answer_stn (b : Block) (err : Bool) (data : BitVec 64) : (b.answer err data).stn = b.stn := rfl
@[simp] theorem Block.answer_col (b : Block) (err : Bool) (data : BitVec 64) : (b.answer err data).col = b.col := rfl
@[simp] theorem Block.answer_pend (b : Block) (err : Bool) (data : BitVec 64) : (b.answer err data).pend = b.pend := rfl
@[simp] theorem Block.answer_pays (b : Block) (err : Bool) (data : BitVec 64) : (b.answer err data).pays = b.pays := rfl
@[simp] theorem Block.answer_eng (b : Block) (err : Bool) (data : BitVec 64) : (b.answer err data).eng = b.eng := rfl
@[simp] theorem Block.answer_cb (b : Block) (err : Bool) (data : BitVec 64) : (b.answer err data).cb = b.cb := rfl
@[simp] theorem Block.answer_ctx (b : Block) (err : Bool) (data : BitVec 64) : (b.answer err data).ctx = b.ctx := rfl
@[simp] theorem Block.answer_hold (b : Block) (err : Bool) (data : BitVec 64) : (b.answer err data).hold = b.hold := rfl
@[simp] theorem Block.answer_loads (b : Block) (err : Bool) (data : BitVec 64) : (b.answer err data).loads = b.loads := rfl
@[simp] theorem Block.answer_csg (b : Block) (err : Bool) (data : BitVec 64) : (b.answer err data).csg = b.csg := rfl
@[simp] theorem Block.answer_seat (b : Block) (err : Bool) (data : BitVec 64) : (b.answer err data).seat = b.seat := rfl
@[simp] theorem Block.answer_thr (b : Block) (err : Bool) (data : BitVec 64) : (b.answer err data).thr = b.thr := rfl
@[simp] theorem Block.answer_up (b : Block) (err : Bool) (data : BitVec 64) : (b.answer err data).up = b.up := rfl
@[simp] theorem Block.answer_ring (b : Block) (err : Bool) (data : BitVec 64) : (b.answer err data).ring = b.ring := rfl
@[simp] theorem Block.answer_wr (b : Block) (err : Bool) (data : BitVec 64) : (b.answer err data).wr = b.wr := rfl
@[simp] theorem Block.answer_idxFly (b : Block) (err : Bool) (data : BitVec 64) : (b.answer err data).idxFly = b.idxFly := rfl
@[simp] theorem Block.answer_last (b : Block) (err : Bool) (data : BitVec 64) : (b.answer err data).last = b.last := rfl
@[simp] theorem Block.answer_tu (b : Block) (err : Bool) (data : BitVec 64) : (b.answer err data).tu = b.tu := rfl
@[simp] theorem Block.answer_car (b : Block) (err : Bool) (data : BitVec 64) : (b.answer err data).car = b.car := rfl
@[simp] theorem Block.answer_vif (b : Block) (err : Bool) (data : BitVec 64) : (b.answer err data).vif = b.vif := rfl
@[simp] theorem Block.answer_vm (b : Block) (err : Bool) (data : BitVec 64) : (b.answer err data).vm = b.vm := rfl
@[simp] theorem Block.answer_xl (b : Block) (err : Bool) (data : BitVec 64) : (b.answer err data).xl = b.xl := rfl
@[simp] theorem Block.answer_jp (b : Block) (err : Bool) (data : BitVec 64) : (b.answer err data).jp = b.jp := rfl
@[simp] theorem Block.answer_otherFills (b : Block) (err : Bool) (data : BitVec 64) : (b.answer err data).otherFills = b.otherFills := rfl
@[simp] theorem Block.answer_tok (b : Block) (err : Bool) (data : BitVec 64) : (b.answer err data).tok = b.tok := rfl
@[simp] theorem Block.answer_clk (b : Block) (err : Bool) (data : BitVec 64) : (b.answer err data).clk = b.clk := rfl
@[simp] theorem Block.answer_pwr (b : Block) (err : Bool) (data : BitVec 64) : (b.answer err data).pwr = b.pwr := rfl
@[simp] theorem Block.answer_rm (b : Block) (err : Bool) (data : BitVec 64) : (b.answer err data).rm = b.rm := rfl
@[simp] theorem Block.answer_ras (b : Block) (err : Bool) (data : BitVec 64) : (b.answer err data).ras = b.ras := rfl
@[simp] theorem Block.answer_pmu (b : Block) (err : Bool) (data : BitVec 64) : (b.answer err data).pmu = b.pmu := rfl

/-! ### Reads after updates -/

@[simp] theorem Block.station_setStation (b : Block) (k : Nat) (v : Station) : (b.setStation k v).station k = v := by
  simp [Block.station, Block.setStation]
@[simp] theorem Block.coll_setColl (b : Block) (c : Nat) (v : Collector) : (b.setColl c v).coll c = v := by
  simp [Block.coll, Block.setColl]
@[simp] theorem Block.pendOf_setPend (b : Block) (e : Event) (v : Pend) : (b.setPend e v).pendOf e = v := by
  simp [Block.pendOf, Block.setPend]
@[simp] theorem Block.engine_setEngine (b : Block) (n : Nat) (v : Engine) : (b.setEngine n v).engine n = v := by
  simp [Block.engine, Block.setEngine]
@[simp] theorem Block.bank_setBank (b : Block) (q : Nat) (v : CBank) : (b.setBank q v).bank q = v := by
  simp [Block.bank, Block.setBank]
@[simp] theorem Block.rec?_setRec (b : Block) (c : CtxNo) (v : Ctx) : (b.setRec c v).rec? c = some v := by
  simp [Block.rec?, Block.setRec]
@[simp] theorem Block.seatOf_setSeat (b : Block) (i : Nat) (v : Seat) : (b.setSeat i v).seatOf i = v := by
  simp [Block.seatOf, Block.setSeat]
@[simp] theorem Block.thread_setThread (b : Block) (t : Nat) (v : Thread) : (b.setThread t v).thread t = v := by
  simp [Block.thread, Block.setThread]
@[simp] theorem Block.cmd_setCmd (b : Block) (g : Nat) (v : CsgCmd) : (b.setCmd g v).cmd g = v := by
  simp [Block.cmd, Block.setCmd]
@[simp] theorem Block.ringOf_setRing (b : Block) (r : RingNo) (v : Ring) : (b.setRing r v).ringOf r = v := by
  simp [Block.ringOf, Block.setRing]
@[simp] theorem Block.writer_setWriter (b : Block) (w : Nat) (v : Writer) : (b.setWriter w v).writer w = v := by
  simp [Block.writer, Block.setWriter]
@[simp] theorem Block.vifOf_setVif (b : Block) (v : Nat) (x : Vif) : (b.setVif v x).vifOf v = x := by
  simp [Block.vifOf, Block.setVif]
@[simp] theorem Block.dlCh_setDlCh (b : Block) (c : Nat) (x : DlCh) : (b.setDlCh c x).dlCh c = x := by
  simp [Block.dlCh, Block.setDlCh]
@[simp] theorem Block.port_setPort (b : Block) (p : Nat) (x : JPort) : (b.setPort p x).port p = x := by
  simp [Block.port, Block.setPort]
@[simp] theorem Block.hdr_setHdr (b : Block) (pg : Nat) (h : PageHdr) : (b.setHdr pg h).hdr pg = h := by
  simp [Block.hdr, Block.setHdr]
theorem Block.hdr_setHdr_ne (b : Block) {pg q : Nat} (h : PageHdr) (n : q ≠ pg) : (b.setHdr pg h).hdr q = b.hdr q := by
  simp [Block.hdr, Block.setHdr, Map.get_set_ne _ _ _ _ n]

/-! ### Of two updates of one place, the later stands -/

@[simp] theorem Block.setReg_setReg (b : Block) (pg off : Nat) (v w : Word) : (b.setReg pg off v).setReg pg off w = b.setReg pg off w := by
  simp [Block.setReg]
@[simp] theorem Block.setHdr_setHdr (b : Block) (pg : Nat) (v w : PageHdr) : (b.setHdr pg v).setHdr pg w = b.setHdr pg w := by
  simp [Block.setHdr]
@[simp] theorem Block.setStation_setStation (b : Block) (k : Nat) (v w : Station) : (b.setStation k v).setStation k w = b.setStation k w := by
  simp [Block.setStation]
@[simp] theorem Block.setColl_setColl (b : Block) (c : Nat) (v w : Collector) : (b.setColl c v).setColl c w = b.setColl c w := by
  simp [Block.setColl]
@[simp] theorem Block.setPend_setPend (b : Block) (e : Event) (v w : Pend) : (b.setPend e v).setPend e w = b.setPend e w := by
  simp [Block.setPend]
@[simp] theorem Block.setEngine_setEngine (b : Block) (n : Nat) (v w : Engine) : (b.setEngine n v).setEngine n w = b.setEngine n w := by
  simp [Block.setEngine]
@[simp] theorem Block.setBank_setBank (b : Block) (q : Nat) (v w : CBank) : (b.setBank q v).setBank q w = b.setBank q w := by
  simp [Block.setBank]
@[simp] theorem Block.setRec_setRec (b : Block) (c : CtxNo) (v w : Ctx) : (b.setRec c v).setRec c w = b.setRec c w := by
  simp [Block.setRec]
@[simp] theorem Block.setSeat_setSeat (b : Block) (i : Nat) (v w : Seat) : (b.setSeat i v).setSeat i w = b.setSeat i w := by
  simp [Block.setSeat]
@[simp] theorem Block.setThread_setThread (b : Block) (t : Nat) (v w : Thread) : (b.setThread t v).setThread t w = b.setThread t w := by
  simp [Block.setThread]
@[simp] theorem Block.setCmd_setCmd (b : Block) (g : Nat) (v w : CsgCmd) : (b.setCmd g v).setCmd g w = b.setCmd g w := by
  simp [Block.setCmd]
@[simp] theorem Block.setRing_setRing (b : Block) (r : RingNo) (v w : Ring) : (b.setRing r v).setRing r w = b.setRing r w := by
  simp [Block.setRing]
@[simp] theorem Block.setWriter_setWriter (b : Block) (n : Nat) (v w : Writer) : (b.setWriter n v).setWriter n w = b.setWriter n w := by
  simp [Block.setWriter]
@[simp] theorem Block.setVif_setVif (b : Block) (n : Nat) (v w : Vif) : (b.setVif n v).setVif n w = b.setVif n w := by
  simp [Block.setVif]
@[simp] theorem Block.setDlCh_setDlCh (b : Block) (c : Nat) (v w : DlCh) : (b.setDlCh c v).setDlCh c w = b.setDlCh c w := by
  simp [Block.setDlCh]
@[simp] theorem Block.setPort_setPort (b : Block) (p : Nat) (v w : JPort) : (b.setPort p v).setPort p w = b.setPort p w := by
  simp [Block.setPort]

/-- Two registers with offsets below 4,096 stand in one place only if page and offset are the same. -/
theorem regKey_inj {pg off pg' off' : Nat} (h : off < 4096) (h' : off' < 4096) (e : regKey pg off = regKey pg' off') :
    pg = pg' ∧ off = off' := by
  unfold regKey at e; omega

@[simp] theorem Block.reg_setReg (b : Block) (pg off : Nat) (v : Word) : (b.setReg pg off v).reg pg off = v := by
  simp [Block.reg, Block.setReg]
theorem Block.reg_setReg_ne (b : Block) {pg off pg' off' : Nat} (v : Word) (h : off < 4096) (h' : off' < 4096)
    (n : pg' ≠ pg ∨ off' ≠ off) : (b.setReg pg off v).reg pg' off' = b.reg pg' off' := by
  have : regKey pg' off' ≠ regKey pg off := fun e => by
    have := regKey_inj h' h e; rcases n with n | n <;> exact n (by simp [this])
  simp [Block.reg, Block.setReg, Map.get_set_ne _ _ _ _ this]

@[simp] theorem Block.reg_setHdr (b : Block) (q : Nat) (h : PageHdr) (pg off : Nat) : (b.setHdr q h).reg pg off = b.reg pg off := rfl
@[simp] theorem Block.hdr_setReg (b : Block) (q o : Nat) (v : Word) (pg : Nat) : (b.setReg q o v).hdr pg = b.hdr pg := rfl
@[simp] theorem Block.reg_answer (b : Block) (e : Bool) (d : BitVec 64) (pg off : Nat) : (b.answer e d).reg pg off = b.reg pg off := rfl
@[simp] theorem Block.hdr_answer (b : Block) (e : Bool) (d : BitVec 64) (pg : Nat) : (b.answer e d).hdr pg = b.hdr pg := rfl

end Sys2Proof.Machine
end

