-- ==== Sys2Proof/Laws/Ops.lean ====
section
/-! SUPPORT. What the shared operations can do: counters, status flags, records, events of the performance monitor. -/

namespace Sys2Proof.Machine

theorem Block.Notes.refl (pgs : List Nat) (b : Block) : Block.Notes pgs b b := ⟨rfl, fun _ _ _ _ => rfl, fun _ _ => rfl⟩

theorem Block.Notes.trans {pgs : List Nat} {a b c : Block} (h : Block.Notes pgs a b) (k : Block.Notes pgs b c) :
    Block.Notes pgs a c := by
  refine ⟨?_, fun pg off n o => (k.reg pg off n o).trans (h.reg pg off n o), fun pg n => (k.hdr pg n).trans (h.hdr pg n)⟩
  rw [k.rest, h.rest]

theorem Block.Notes.mono {p q : List Nat} {a b : Block} (h : Block.Notes p a b) (s : ∀ x ∈ p, x ∈ q) : Block.Notes q a b :=
  ⟨h.rest, fun pg off n o => h.reg pg off (fun m => n (s _ m)) o, fun pg n => h.hdr pg fun m => n (s _ m)⟩

/-- Of several pages, one: the relation for a larger list of pages. -/
theorem Block.Notes.of {p q : List Nat} {a b : Block} (h : Block.Notes p a b) (s : p ⊆ q) : Block.Notes q a b := h.mono s

theorem Block.setReg_notes (b : Block) (pg off : Nat) (v : Word) (h : off < 4096) : Block.Notes [pg] b (b.setReg pg off v) :=
  ⟨rfl, fun q o n ho => Block.reg_setReg_ne b v h ho (Or.inl (by simpa using n)), fun _ _ => rfl⟩

theorem Block.setHdr_notes (b : Block) (pg : Nat) (h : PageHdr) : Block.Notes [pg] b (b.setHdr pg h) :=
  ⟨rfl, fun _ _ _ _ => rfl, fun q n => Block.hdr_setHdr_ne b h (by simpa using n)⟩

theorem Block.cnt_notes (b : Block) (pg off n : Nat) (h : off < 4096) : Block.Notes [pg] b (b.cnt pg off n) :=
  Block.setReg_notes b pg off _ h

theorem Block.cntHalf_notes (b : Block) (pg off : Nat) (hi : Bool) (n : Nat) (h : off < 4096) :
    Block.Notes [pg] b (b.cntHalf pg off hi n) :=
  Block.setReg_notes b pg off _ h

theorem Block.cnt48_notes (b : Block) (pg lo hi n : Nat) (h : lo < 4096) (h' : hi < 4096) :
    Block.Notes [pg] b (b.cnt48 pg lo hi n) :=
  (Block.setReg_notes b pg lo _ h).trans (Block.setReg_notes _ pg hi _ h')

theorem Block.rmLog_notes (b : Block) (cls code : BitVec 8) (src : BitVec 16) (data : BitVec 128) :
    Block.Notes [pgRM] b (b.rmLog cls code src data) := by
  unfold Block.rmLog
  split
  · exact ⟨rfl, fun _ _ _ _ => rfl, fun _ _ => rfl⟩
  · exact Block.cnt_notes b pgRM 0x068 1 (by decide)

theorem Block.even_notes (b : Block) (pg : Nat) (m : BitVec 24) : Block.Notes [pgRM] b (b.even pg m) := by
  unfold Block.even
  split
  · exact Block.Notes.refl _ _
  · split
    · exact Block.rmLog_notes b _ _ _ _
    · split
      · exact Block.Notes.refl _ _
      · exact ⟨rfl, fun _ _ _ _ => rfl, fun _ _ => rfl⟩

theorem Block.raise_notes (b : Block) (pg : Nat) (m : BitVec 8) : Block.Notes [pg, pgRM] b (b.raise pg m) := by
  unfold Block.raise
  split
  · exact Block.Notes.refl _ _
  · exact ((Block.setHdr_notes b pg _).of (by simp)).trans ((Block.even_notes _ pg _).of (by simp))

theorem Block.flag_notes (b : Block) (pg i : Nat) : Block.Notes [pg, pgRM] b (b.flag pg i) := Block.raise_notes b pg _

theorem Block.pgErr_notes (b : Block) (pg : Nat) (e : PgErr) (id : BitVec 5) (off : BitVec 14) (wr : Bool) :
    Block.Notes [pg, pgRM] b (b.pgErr pg e id off wr) := by
  unfold Block.pgErr
  have h := ((Block.setHdr_notes b pg { b.hdr pg with errBits := (b.hdr pg).errBits ||| e.bits, errId := id, errOff := off, errWr := wr, err := true, seq := (b.hdr pg).seq + 1 }).of
    (q := [pg, pgRM]) (by simp)).trans ((Block.even_notes _ pg 0x400).of (by simp))
  dsimp only
  split
  · exact h.trans ((Block.rmLog_notes _ _ _ _ _).of (by simp))
  · exact h

theorem Block.pmuBump_notes (b : Block) (lo n : Nat) (h : lo + 4 < 4096) : Block.Notes [pgPMU] b (b.pmuBump lo n).1 :=
  (Block.setReg_notes b pgPMU lo _ (by omega)).trans (Block.setReg_notes _ pgPMU (lo + 4) _ h)

theorem Block.pmuWrap_notes (b : Block) (fixed : Bool) (i : Nat) : Block.Notes [pgPMU, pgRM] b (b.pmuWrap fixed i) := by
  have key : ∀ b1 : Block, Block.Notes [pgPMU, pgRM] b1
      (if bit (b1.reg pgPMU 0x040) 2 then ((b1.setReg pgPMU 0x040 (b1.reg pgPMU 0x040 &&& ~~~3)).raise pgPMU 3) else b1.flag pgPMU 0) := by
    intro b1
    split
    · exact ((Block.setReg_notes b1 pgPMU 0x040 _ (by decide)).of (by simp)).trans (Block.raise_notes _ pgPMU 3)
    · exact Block.flag_notes b1 pgPMU 0
  unfold Block.pmuWrap
  refine Block.Notes.trans (Block.Notes.of (p := [pgPMU]) ?_ (by simp)) (key _)
  split
  · exact Block.setReg_notes _ _ _ _ (by decide)
  · split <;> exact Block.setReg_notes _ _ _ _ (by decide)

theorem Block.pmuOne_notes (ev : BitVec 8) (unit n : Nat) (b : Block) (i : Nat) (h : i < 64) :
    Block.Notes [pgPMU, pgRM] b (Block.pmuOne ev unit n b i) := by
  unfold Block.pmuOne
  dsimp only
  split
  · have hb := Block.pmuBump_notes b (0x200 + 8 * i) n (by omega)
    split
    · exact (hb.of (by simp)).trans (Block.pmuWrap_notes _ _ _)
    · exact hb.of (by simp)
  · exact Block.Notes.refl _ _

theorem Block.Notes.foldl {α : Type} {pgs : List Nat} (f : Block → α → Block) (l : List α) (b : Block)
    (h : ∀ b, ∀ a ∈ l, Block.Notes pgs b (f b a)) : Block.Notes pgs b (l.foldl f b) := by
  induction l generalizing b with
  | nil => exact Block.Notes.refl _ _
  | cons x r ih =>
    exact (h b x (by simp)).trans (ih _ fun b a ha => h b a (by simp [ha]))

theorem Block.pmuEv_notes (b : Block) (ev : BitVec 8) (unit n : Nat) : Block.Notes [pgPMU, pgRM] b (b.pmuEv ev unit n) := by
  unfold Block.pmuEv
  split
  · exact Block.Notes.foldl _ _ _ fun b i hi => Block.pmuOne_notes _ _ _ _ _ (by simpa using hi)
  · exact Block.Notes.refl _ _

/-! ### What a flag leaves in its page -/

theorem Block.Notes.eq_field {α : Type} {pgs : List Nat} {b b' : Block} (h : Block.Notes pgs b b') (f : Block → α)
    (hf : ∀ (b : Block) r d q v, f { b with fab := { b.fab with regs := r, hdr := d }, rm := { b.rm with logq := q, evHeld := v } } = f b) :
    f b' = f b := by
  rw [h.rest, hf]

theorem Block.rmLog_hdr (b : Block) (cls code : BitVec 8) (src : BitVec 16) (data : BitVec 128) (pg : Nat) :
    (b.rmLog cls code src data).hdr pg = b.hdr pg := by
  unfold Block.rmLog
  split <;> rfl

theorem Block.even_hdr (b : Block) (pg : Nat) (m : BitVec 24) (q : Nat) : (b.even pg m).hdr q = b.hdr q := by
  unfold Block.even
  split
  · rfl
  · split
    · exact Block.rmLog_hdr _ _ _ _ _ _
    · split <;> rfl

/-- A flag is set and the sequence number rises; nothing else of the header changes. -/
theorem Block.flag_hdr (b : Block) (pg i : Nat) (h : i < 8) :
    (b.flag pg i).hdr pg = { b.hdr pg with flags := (b.hdr pg).flags ||| ((1 : BitVec 8) <<< i), seq := (b.hdr pg).seq + 1 } := by
  have hm : (1 : BitVec 8) <<< i ≠ 0 := by
    rcases (show i = 0 ∨ i = 1 ∨ i = 2 ∨ i = 3 ∨ i = 4 ∨ i = 5 ∨ i = 6 ∨ i = 7 by omega) with rfl | rfl | rfl | rfl | rfl | rfl | rfl | rfl <;> decide
  unfold Block.flag Block.raise
  rw [if_neg hm]
  simp [Block.even_hdr]

/-! ### What counting and reporting leave as they are -/

@[simp] theorem Block.rmLog_prm (b : Block) (cls code : BitVec 8) (src : BitVec 16) (data : BitVec 128) : (b.rmLog cls code src data).prm = b.prm := (congrArg Block.prm (Block.rmLog_notes b cls code src data).rest).trans rfl
@[simp] theorem Block.rmLog_stn (b : Block) (cls code : BitVec 8) (src : BitVec 16) (data : BitVec 128) : (b.rmLog cls code src data).stn = b.stn := (congrArg Block.stn (Block.rmLog_notes b cls code src data).rest).trans rfl
@[simp] theorem Block.rmLog_col (b : Block) (cls code : BitVec 8) (src : BitVec 16) (data : BitVec 128) : (b.rmLog cls code src data).col = b.col := (congrArg Block.col (Block.rmLog_notes b cls code src data).rest).trans rfl
@[simp] theorem Block.rmLog_pend (b : Block) (cls code : BitVec 8) (src : BitVec 16) (data : BitVec 128) : (b.rmLog cls code src data).pend = b.pend := (congrArg Block.pend (Block.rmLog_notes b cls code src data).rest).trans rfl
@[simp] theorem Block.rmLog_pays (b : Block) (cls code : BitVec 8) (src : BitVec 16) (data : BitVec 128) : (b.rmLog cls code src data).pays = b.pays := (congrArg Block.pays (Block.rmLog_notes b cls code src data).rest).trans rfl
@[simp] theorem Block.rmLog_eng (b : Block) (cls code : BitVec 8) (src : BitVec 16) (data : BitVec 128) : (b.rmLog cls code src data).eng = b.eng := (congrArg Block.eng (Block.rmLog_notes b cls code src data).rest).trans rfl
@[simp] theorem Block.rmLog_cb (b : Block) (cls code : BitVec 8) (src : BitVec 16) (data : BitVec 128) : (b.rmLog cls code src data).cb = b.cb := (congrArg Block.cb (Block.rmLog_notes b cls code src data).rest).trans rfl
@[simp] theorem Block.rmLog_ctx (b : Block) (cls code : BitVec 8) (src : BitVec 16) (data : BitVec 128) : (b.rmLog cls code src data).ctx = b.ctx := (congrArg Block.ctx (Block.rmLog_notes b cls code src data).rest).trans rfl
@[simp] theorem Block.rmLog_ages (b : Block) (cls code : BitVec 8) (src : BitVec 16) (data : BitVec 128) : (b.rmLog cls code src data).ages = b.ages := (congrArg Block.ages (Block.rmLog_notes b cls code src data).rest).trans rfl
@[simp] theorem Block.rmLog_leave (b : Block) (cls code : BitVec 8) (src : BitVec 16) (data : BitVec 128) : (b.rmLog cls code src data).leave = b.leave := (congrArg Block.leave (Block.rmLog_notes b cls code src data).rest).trans rfl
@[simp] theorem Block.rmLog_hold (b : Block) (cls code : BitVec 8) (src : BitVec 16) (data : BitVec 128) : (b.rmLog cls code src data).hold = b.hold := (congrArg Block.hold (Block.rmLog_notes b cls code src data).rest).trans rfl
@[simp] theorem Block.rmLog_loads (b : Block) (cls code : BitVec 8) (src : BitVec 16) (data : BitVec 128) : (b.rmLog cls code src data).loads = b.loads := (congrArg Block.loads (Block.rmLog_notes b cls code src data).rest).trans rfl
@[simp] theorem Block.rmLog_csg (b : Block) (cls code : BitVec 8) (src : BitVec 16) (data : BitVec 128) : (b.rmLog cls code src data).csg = b.csg := (congrArg Block.csg (Block.rmLog_notes b cls code src data).rest).trans rfl
@[simp] theorem Block.rmLog_seat (b : Block) (cls code : BitVec 8) (src : BitVec 16) (data : BitVec 128) : (b.rmLog cls code src data).seat = b.seat := (congrArg Block.seat (Block.rmLog_notes b cls code src data).rest).trans rfl
@[simp] theorem Block.rmLog_thr (b : Block) (cls code : BitVec 8) (src : BitVec 16) (data : BitVec 128) : (b.rmLog cls code src data).thr = b.thr := (congrArg Block.thr (Block.rmLog_notes b cls code src data).rest).trans rfl
@[simp] theorem Block.rmLog_up (b : Block) (cls code : BitVec 8) (src : BitVec 16) (data : BitVec 128) : (b.rmLog cls code src data).up = b.up := (congrArg Block.up (Block.rmLog_notes b cls code src data).rest).trans rfl
@[simp] theorem Block.rmLog_ring (b : Block) (cls code : BitVec 8) (src : BitVec 16) (data : BitVec 128) : (b.rmLog cls code src data).ring = b.ring := (congrArg Block.ring (Block.rmLog_notes b cls code src data).rest).trans rfl
@[simp] theorem Block.rmLog_wr (b : Block) (cls code : BitVec 8) (src : BitVec 16) (data : BitVec 128) : (b.rmLog cls code src data).wr = b.wr := (congrArg Block.wr (Block.rmLog_notes b cls code src data).rest).trans rfl
@[simp] theorem Block.rmLog_idxFly (b : Block) (cls code : BitVec 8) (src : BitVec 16) (data : BitVec 128) : (b.rmLog cls code src data).idxFly = b.idxFly := (congrArg Block.idxFly (Block.rmLog_notes b cls code src data).rest).trans rfl
@[simp] theorem Block.rmLog_last (b : Block) (cls code : BitVec 8) (src : BitVec 16) (data : BitVec 128) : (b.rmLog cls code src data).last = b.last := (congrArg Block.last (Block.rmLog_notes b cls code src data).rest).trans rfl
@[simp] theorem Block.rmLog_tu (b : Block) (cls code : BitVec 8) (src : BitVec 16) (data : BitVec 128) : (b.rmLog cls code src data).tu = b.tu := (congrArg Block.tu (Block.rmLog_notes b cls code src data).rest).trans rfl
@[simp] theorem Block.rmLog_car (b : Block) (cls code : BitVec 8) (src : BitVec 16) (data : BitVec 128) : (b.rmLog cls code src data).car = b.car := (congrArg Block.car (Block.rmLog_notes b cls code src data).rest).trans rfl
@[simp] theorem Block.rmLog_vif (b : Block) (cls code : BitVec 8) (src : BitVec 16) (data : BitVec 128) : (b.rmLog cls code src data).vif = b.vif := (congrArg Block.vif (Block.rmLog_notes b cls code src data).rest).trans rfl
@[simp] theorem Block.rmLog_vm (b : Block) (cls code : BitVec 8) (src : BitVec 16) (data : BitVec 128) : (b.rmLog cls code src data).vm = b.vm := (congrArg Block.vm (Block.rmLog_notes b cls code src data).rest).trans rfl
@[simp] theorem Block.rmLog_xl (b : Block) (cls code : BitVec 8) (src : BitVec 16) (data : BitVec 128) : (b.rmLog cls code src data).xl = b.xl := (congrArg Block.xl (Block.rmLog_notes b cls code src data).rest).trans rfl
@[simp] theorem Block.rmLog_jp (b : Block) (cls code : BitVec 8) (src : BitVec 16) (data : BitVec 128) : (b.rmLog cls code src data).jp = b.jp := (congrArg Block.jp (Block.rmLog_notes b cls code src data).rest).trans rfl
@[simp] theorem Block.rmLog_otherFills (b : Block) (cls code : BitVec 8) (src : BitVec 16) (data : BitVec 128) : (b.rmLog cls code src data).otherFills = b.otherFills := (congrArg Block.otherFills (Block.rmLog_notes b cls code src data).rest).trans rfl
@[simp] theorem Block.rmLog_tok (b : Block) (cls code : BitVec 8) (src : BitVec 16) (data : BitVec 128) : (b.rmLog cls code src data).tok = b.tok := (congrArg Block.tok (Block.rmLog_notes b cls code src data).rest).trans rfl
@[simp] theorem Block.rmLog_clk (b : Block) (cls code : BitVec 8) (src : BitVec 16) (data : BitVec 128) : (b.rmLog cls code src data).clk = b.clk := (congrArg Block.clk (Block.rmLog_notes b cls code src data).rest).trans rfl
@[simp] theorem Block.rmLog_pwr (b : Block) (cls code : BitVec 8) (src : BitVec 16) (data : BitVec 128) : (b.rmLog cls code src data).pwr = b.pwr := (congrArg Block.pwr (Block.rmLog_notes b cls code src data).rest).trans rfl
@[simp] theorem Block.rmLog_ras (b : Block) (cls code : BitVec 8) (src : BitVec 16) (data : BitVec 128) : (b.rmLog cls code src data).ras = b.ras := (congrArg Block.ras (Block.rmLog_notes b cls code src data).rest).trans rfl
@[simp] theorem Block.rmLog_pmu (b : Block) (cls code : BitVec 8) (src : BitVec 16) (data : BitVec 128) : (b.rmLog cls code src data).pmu = b.pmu := (congrArg Block.pmu (Block.rmLog_notes b cls code src data).rest).trans rfl

@[simp] theorem Block.even_prm (b : Block) (pg : Nat) (m : BitVec 24) : (b.even pg m).prm = b.prm := (congrArg Block.prm (Block.even_notes b pg m).rest).trans rfl
@[simp] theorem Block.even_stn (b : Block) (pg : Nat) (m : BitVec 24) : (b.even pg m).stn = b.stn := (congrArg Block.stn (Block.even_notes b pg m).rest).trans rfl
@[simp] theorem Block.even_col (b : Block) (pg : Nat) (m : BitVec 24) : (b.even pg m).col = b.col := (congrArg Block.col (Block.even_notes b pg m).rest).trans rfl
@[simp] theorem Block.even_pend (b : Block) (pg : Nat) (m : BitVec 24) : (b.even pg m).pend = b.pend := (congrArg Block.pend (Block.even_notes b pg m).rest).trans rfl
@[simp] theorem Block.even_pays (b : Block) (pg : Nat) (m : BitVec 24) : (b.even pg m).pays = b.pays := (congrArg Block.pays (Block.even_notes b pg m).rest).trans rfl
@[simp] theorem Block.even_eng (b : Block) (pg : Nat) (m : BitVec 24) : (b.even pg m).eng = b.eng := (congrArg Block.eng (Block.even_notes b pg m).rest).trans rfl
@[simp] theorem Block.even_cb (b : Block) (pg : Nat) (m : BitVec 24) : (b.even pg m).cb = b.cb := (congrArg Block.cb (Block.even_notes b pg m).rest).trans rfl
@[simp] theorem Block.even_ctx (b : Block) (pg : Nat) (m : BitVec 24) : (b.even pg m).ctx = b.ctx := (congrArg Block.ctx (Block.even_notes b pg m).rest).trans rfl
@[simp] theorem Block.even_ages (b : Block) (pg : Nat) (m : BitVec 24) : (b.even pg m).ages = b.ages := (congrArg Block.ages (Block.even_notes b pg m).rest).trans rfl
@[simp] theorem Block.even_leave (b : Block) (pg : Nat) (m : BitVec 24) : (b.even pg m).leave = b.leave := (congrArg Block.leave (Block.even_notes b pg m).rest).trans rfl
@[simp] theorem Block.even_hold (b : Block) (pg : Nat) (m : BitVec 24) : (b.even pg m).hold = b.hold := (congrArg Block.hold (Block.even_notes b pg m).rest).trans rfl
@[simp] theorem Block.even_loads (b : Block) (pg : Nat) (m : BitVec 24) : (b.even pg m).loads = b.loads := (congrArg Block.loads (Block.even_notes b pg m).rest).trans rfl
@[simp] theorem Block.even_csg (b : Block) (pg : Nat) (m : BitVec 24) : (b.even pg m).csg = b.csg := (congrArg Block.csg (Block.even_notes b pg m).rest).trans rfl
@[simp] theorem Block.even_seat (b : Block) (pg : Nat) (m : BitVec 24) : (b.even pg m).seat = b.seat := (congrArg Block.seat (Block.even_notes b pg m).rest).trans rfl
@[simp] theorem Block.even_thr (b : Block) (pg : Nat) (m : BitVec 24) : (b.even pg m).thr = b.thr := (congrArg Block.thr (Block.even_notes b pg m).rest).trans rfl
@[simp] theorem Block.even_up (b : Block) (pg : Nat) (m : BitVec 24) : (b.even pg m).up = b.up := (congrArg Block.up (Block.even_notes b pg m).rest).trans rfl
@[simp] theorem Block.even_ring (b : Block) (pg : Nat) (m : BitVec 24) : (b.even pg m).ring = b.ring := (congrArg Block.ring (Block.even_notes b pg m).rest).trans rfl
@[simp] theorem Block.even_wr (b : Block) (pg : Nat) (m : BitVec 24) : (b.even pg m).wr = b.wr := (congrArg Block.wr (Block.even_notes b pg m).rest).trans rfl
@[simp] theorem Block.even_idxFly (b : Block) (pg : Nat) (m : BitVec 24) : (b.even pg m).idxFly = b.idxFly := (congrArg Block.idxFly (Block.even_notes b pg m).rest).trans rfl
@[simp] theorem Block.even_last (b : Block) (pg : Nat) (m : BitVec 24) : (b.even pg m).last = b.last := (congrArg Block.last (Block.even_notes b pg m).rest).trans rfl
@[simp] theorem Block.even_tu (b : Block) (pg : Nat) (m : BitVec 24) : (b.even pg m).tu = b.tu := (congrArg Block.tu (Block.even_notes b pg m).rest).trans rfl
@[simp] theorem Block.even_car (b : Block) (pg : Nat) (m : BitVec 24) : (b.even pg m).car = b.car := (congrArg Block.car (Block.even_notes b pg m).rest).trans rfl
@[simp] theorem Block.even_vif (b : Block) (pg : Nat) (m : BitVec 24) : (b.even pg m).vif = b.vif := (congrArg Block.vif (Block.even_notes b pg m).rest).trans rfl
@[simp] theorem Block.even_vm (b : Block) (pg : Nat) (m : BitVec 24) : (b.even pg m).vm = b.vm := (congrArg Block.vm (Block.even_notes b pg m).rest).trans rfl
@[simp] theorem Block.even_xl (b : Block) (pg : Nat) (m : BitVec 24) : (b.even pg m).xl = b.xl := (congrArg Block.xl (Block.even_notes b pg m).rest).trans rfl
@[simp] theorem Block.even_jp (b : Block) (pg : Nat) (m : BitVec 24) : (b.even pg m).jp = b.jp := (congrArg Block.jp (Block.even_notes b pg m).rest).trans rfl
@[simp] theorem Block.even_otherFills (b : Block) (pg : Nat) (m : BitVec 24) : (b.even pg m).otherFills = b.otherFills := (congrArg Block.otherFills (Block.even_notes b pg m).rest).trans rfl
@[simp] theorem Block.even_tok (b : Block) (pg : Nat) (m : BitVec 24) : (b.even pg m).tok = b.tok := (congrArg Block.tok (Block.even_notes b pg m).rest).trans rfl
@[simp] theorem Block.even_clk (b : Block) (pg : Nat) (m : BitVec 24) : (b.even pg m).clk = b.clk := (congrArg Block.clk (Block.even_notes b pg m).rest).trans rfl
@[simp] theorem Block.even_pwr (b : Block) (pg : Nat) (m : BitVec 24) : (b.even pg m).pwr = b.pwr := (congrArg Block.pwr (Block.even_notes b pg m).rest).trans rfl
@[simp] theorem Block.even_ras (b : Block) (pg : Nat) (m : BitVec 24) : (b.even pg m).ras = b.ras := (congrArg Block.ras (Block.even_notes b pg m).rest).trans rfl
@[simp] theorem Block.even_pmu (b : Block) (pg : Nat) (m : BitVec 24) : (b.even pg m).pmu = b.pmu := (congrArg Block.pmu (Block.even_notes b pg m).rest).trans rfl

@[simp] theorem Block.raise_prm (b : Block) (pg : Nat) (m : BitVec 8) : (b.raise pg m).prm = b.prm := (congrArg Block.prm (Block.raise_notes b pg m).rest).trans rfl
@[simp] theorem Block.raise_stn (b : Block) (pg : Nat) (m : BitVec 8) : (b.raise pg m).stn = b.stn := (congrArg Block.stn (Block.raise_notes b pg m).rest).trans rfl
@[simp] theorem Block.raise_col (b : Block) (pg : Nat) (m : BitVec 8) : (b.raise pg m).col = b.col := (congrArg Block.col (Block.raise_notes b pg m).rest).trans rfl
@[simp] theorem Block.raise_pend (b : Block) (pg : Nat) (m : BitVec 8) : (b.raise pg m).pend = b.pend := (congrArg Block.pend (Block.raise_notes b pg m).rest).trans rfl
@[simp] theorem Block.raise_pays (b : Block) (pg : Nat) (m : BitVec 8) : (b.raise pg m).pays = b.pays := (congrArg Block.pays (Block.raise_notes b pg m).rest).trans rfl
@[simp] theorem Block.raise_eng (b : Block) (pg : Nat) (m : BitVec 8) : (b.raise pg m).eng = b.eng := (congrArg Block.eng (Block.raise_notes b pg m).rest).trans rfl
@[simp] theorem Block.raise_cb (b : Block) (pg : Nat) (m : BitVec 8) : (b.raise pg m).cb = b.cb := (congrArg Block.cb (Block.raise_notes b pg m).rest).trans rfl
@[simp] theorem Block.raise_ctx (b : Block) (pg : Nat) (m : BitVec 8) : (b.raise pg m).ctx = b.ctx := (congrArg Block.ctx (Block.raise_notes b pg m).rest).trans rfl
@[simp] theorem Block.raise_ages (b : Block) (pg : Nat) (m : BitVec 8) : (b.raise pg m).ages = b.ages := (congrArg Block.ages (Block.raise_notes b pg m).rest).trans rfl
@[simp] theorem Block.raise_leave (b : Block) (pg : Nat) (m : BitVec 8) : (b.raise pg m).leave = b.leave := (congrArg Block.leave (Block.raise_notes b pg m).rest).trans rfl
@[simp] theorem Block.raise_hold (b : Block) (pg : Nat) (m : BitVec 8) : (b.raise pg m).hold = b.hold := (congrArg Block.hold (Block.raise_notes b pg m).rest).trans rfl
@[simp] theorem Block.raise_loads (b : Block) (pg : Nat) (m : BitVec 8) : (b.raise pg m).loads = b.loads := (congrArg Block.loads (Block.raise_notes b pg m).rest).trans rfl
@[simp] theorem Block.raise_csg (b : Block) (pg : Nat) (m : BitVec 8) : (b.raise pg m).csg = b.csg := (congrArg Block.csg (Block.raise_notes b pg m).rest).trans rfl
@[simp] theorem Block.raise_seat (b : Block) (pg : Nat) (m : BitVec 8) : (b.raise pg m).seat = b.seat := (congrArg Block.seat (Block.raise_notes b pg m).rest).trans rfl
@[simp] theorem Block.raise_thr (b : Block) (pg : Nat) (m : BitVec 8) : (b.raise pg m).thr = b.thr := (congrArg Block.thr (Block.raise_notes b pg m).rest).trans rfl
@[simp] theorem Block.raise_up (b : Block) (pg : Nat) (m : BitVec 8) : (b.raise pg m).up = b.up := (congrArg Block.up (Block.raise_notes b pg m).rest).trans rfl
@[simp] theorem Block.raise_ring (b : Block) (pg : Nat) (m : BitVec 8) : (b.raise pg m).ring = b.ring := (congrArg Block.ring (Block.raise_notes b pg m).rest).trans rfl
@[simp] theorem Block.raise_wr (b : Block) (pg : Nat) (m : BitVec 8) : (b.raise pg m).wr = b.wr := (congrArg Block.wr (Block.raise_notes b pg m).rest).trans rfl
@[simp] theorem Block.raise_idxFly (b : Block) (pg : Nat) (m : BitVec 8) : (b.raise pg m).idxFly = b.idxFly := (congrArg Block.idxFly (Block.raise_notes b pg m).rest).trans rfl
@[simp] theorem Block.raise_last (b : Block) (pg : Nat) (m : BitVec 8) : (b.raise pg m).last = b.last := (congrArg Block.last (Block.raise_notes b pg m).rest).trans rfl
@[simp] theorem Block.raise_tu (b : Block) (pg : Nat) (m : BitVec 8) : (b.raise pg m).tu = b.tu := (congrArg Block.tu (Block.raise_notes b pg m).rest).trans rfl
@[simp] theorem Block.raise_car (b : Block) (pg : Nat) (m : BitVec 8) : (b.raise pg m).car = b.car := (congrArg Block.car (Block.raise_notes b pg m).rest).trans rfl
@[simp] theorem Block.raise_vif (b : Block) (pg : Nat) (m : BitVec 8) : (b.raise pg m).vif = b.vif := (congrArg Block.vif (Block.raise_notes b pg m).rest).trans rfl
@[simp] theorem Block.raise_vm (b : Block) (pg : Nat) (m : BitVec 8) : (b.raise pg m).vm = b.vm := (congrArg Block.vm (Block.raise_notes b pg m).rest).trans rfl
@[simp] theorem Block.raise_xl (b : Block) (pg : Nat) (m : BitVec 8) : (b.raise pg m).xl = b.xl := (congrArg Block.xl (Block.raise_notes b pg m).rest).trans rfl
@[simp] theorem Block.raise_jp (b : Block) (pg : Nat) (m : BitVec 8) : (b.raise pg m).jp = b.jp := (congrArg Block.jp (Block.raise_notes b pg m).rest).trans rfl
@[simp] theorem Block.raise_otherFills (b : Block) (pg : Nat) (m : BitVec 8) : (b.raise pg m).otherFills = b.otherFills := (congrArg Block.otherFills (Block.raise_notes b pg m).rest).trans rfl
@[simp] theorem Block.raise_tok (b : Block) (pg : Nat) (m : BitVec 8) : (b.raise pg m).tok = b.tok := (congrArg Block.tok (Block.raise_notes b pg m).rest).trans rfl
@[simp] theorem Block.raise_clk (b : Block) (pg : Nat) (m : BitVec 8) : (b.raise pg m).clk = b.clk := (congrArg Block.clk (Block.raise_notes b pg m).rest).trans rfl
@[simp] theorem Block.raise_pwr (b : Block) (pg : Nat) (m : BitVec 8) : (b.raise pg m).pwr = b.pwr := (congrArg Block.pwr (Block.raise_notes b pg m).rest).trans rfl
@[simp] theorem Block.raise_ras (b : Block) (pg : Nat) (m : BitVec 8) : (b.raise pg m).ras = b.ras := (congrArg Block.ras (Block.raise_notes b pg m).rest).trans rfl
@[simp] theorem Block.raise_pmu (b : Block) (pg : Nat) (m : BitVec 8) : (b.raise pg m).pmu = b.pmu := (congrArg Block.pmu (Block.raise_notes b pg m).rest).trans rfl

@[simp] theorem Block.flag_prm (b : Block) (pg i : Nat) : (b.flag pg i).prm = b.prm := (congrArg Block.prm (Block.flag_notes b pg i).rest).trans rfl
@[simp] theorem Block.flag_stn (b : Block) (pg i : Nat) : (b.flag pg i).stn = b.stn := (congrArg Block.stn (Block.flag_notes b pg i).rest).trans rfl
@[simp] theorem Block.flag_col (b : Block) (pg i : Nat) : (b.flag pg i).col = b.col := (congrArg Block.col (Block.flag_notes b pg i).rest).trans rfl
@[simp] theorem Block.flag_pend (b : Block) (pg i : Nat) : (b.flag pg i).pend = b.pend := (congrArg Block.pend (Block.flag_notes b pg i).rest).trans rfl
@[simp] theorem Block.flag_pays (b : Block) (pg i : Nat) : (b.flag pg i).pays = b.pays := (congrArg Block.pays (Block.flag_notes b pg i).rest).trans rfl
@[simp] theorem Block.flag_eng (b : Block) (pg i : Nat) : (b.flag pg i).eng = b.eng := (congrArg Block.eng (Block.flag_notes b pg i).rest).trans rfl
@[simp] theorem Block.flag_cb (b : Block) (pg i : Nat) : (b.flag pg i).cb = b.cb := (congrArg Block.cb (Block.flag_notes b pg i).rest).trans rfl
@[simp] theorem Block.flag_ctx (b : Block) (pg i : Nat) : (b.flag pg i).ctx = b.ctx := (congrArg Block.ctx (Block.flag_notes b pg i).rest).trans rfl
@[simp] theorem Block.flag_ages (b : Block) (pg i : Nat) : (b.flag pg i).ages = b.ages := (congrArg Block.ages (Block.flag_notes b pg i).rest).trans rfl
@[simp] theorem Block.flag_leave (b : Block) (pg i : Nat) : (b.flag pg i).leave = b.leave := (congrArg Block.leave (Block.flag_notes b pg i).rest).trans rfl
@[simp] theorem Block.flag_hold (b : Block) (pg i : Nat) : (b.flag pg i).hold = b.hold := (congrArg Block.hold (Block.flag_notes b pg i).rest).trans rfl
@[simp] theorem Block.flag_loads (b : Block) (pg i : Nat) : (b.flag pg i).loads = b.loads := (congrArg Block.loads (Block.flag_notes b pg i).rest).trans rfl
@[simp] theorem Block.flag_csg (b : Block) (pg i : Nat) : (b.flag pg i).csg = b.csg := (congrArg Block.csg (Block.flag_notes b pg i).rest).trans rfl
@[simp] theorem Block.flag_seat (b : Block) (pg i : Nat) : (b.flag pg i).seat = b.seat := (congrArg Block.seat (Block.flag_notes b pg i).rest).trans rfl
@[simp] theorem Block.flag_thr (b : Block) (pg i : Nat) : (b.flag pg i).thr = b.thr := (congrArg Block.thr (Block.flag_notes b pg i).rest).trans rfl
@[simp] theorem Block.flag_up (b : Block) (pg i : Nat) : (b.flag pg i).up = b.up := (congrArg Block.up (Block.flag_notes b pg i).rest).trans rfl
@[simp] theorem Block.flag_ring (b : Block) (pg i : Nat) : (b.flag pg i).ring = b.ring := (congrArg Block.ring (Block.flag_notes b pg i).rest).trans rfl
@[simp] theorem Block.flag_wr (b : Block) (pg i : Nat) : (b.flag pg i).wr = b.wr := (congrArg Block.wr (Block.flag_notes b pg i).rest).trans rfl
@[simp] theorem Block.flag_idxFly (b : Block) (pg i : Nat) : (b.flag pg i).idxFly = b.idxFly := (congrArg Block.idxFly (Block.flag_notes b pg i).rest).trans rfl
@[simp] theorem Block.flag_last (b : Block) (pg i : Nat) : (b.flag pg i).last = b.last := (congrArg Block.last (Block.flag_notes b pg i).rest).trans rfl
@[simp] theorem Block.flag_tu (b : Block) (pg i : Nat) : (b.flag pg i).tu = b.tu := (congrArg Block.tu (Block.flag_notes b pg i).rest).trans rfl
@[simp] theorem Block.flag_car (b : Block) (pg i : Nat) : (b.flag pg i).car = b.car := (congrArg Block.car (Block.flag_notes b pg i).rest).trans rfl
@[simp] theorem Block.flag_vif (b : Block) (pg i : Nat) : (b.flag pg i).vif = b.vif := (congrArg Block.vif (Block.flag_notes b pg i).rest).trans rfl
@[simp] theorem Block.flag_vm (b : Block) (pg i : Nat) : (b.flag pg i).vm = b.vm := (congrArg Block.vm (Block.flag_notes b pg i).rest).trans rfl
@[simp] theorem Block.flag_xl (b : Block) (pg i : Nat) : (b.flag pg i).xl = b.xl := (congrArg Block.xl (Block.flag_notes b pg i).rest).trans rfl
@[simp] theorem Block.flag_jp (b : Block) (pg i : Nat) : (b.flag pg i).jp = b.jp := (congrArg Block.jp (Block.flag_notes b pg i).rest).trans rfl
@[simp] theorem Block.flag_otherFills (b : Block) (pg i : Nat) : (b.flag pg i).otherFills = b.otherFills := (congrArg Block.otherFills (Block.flag_notes b pg i).rest).trans rfl
@[simp] theorem Block.flag_tok (b : Block) (pg i : Nat) : (b.flag pg i).tok = b.tok := (congrArg Block.tok (Block.flag_notes b pg i).rest).trans rfl
@[simp] theorem Block.flag_clk (b : Block) (pg i : Nat) : (b.flag pg i).clk = b.clk := (congrArg Block.clk (Block.flag_notes b pg i).rest).trans rfl
@[simp] theorem Block.flag_pwr (b : Block) (pg i : Nat) : (b.flag pg i).pwr = b.pwr := (congrArg Block.pwr (Block.flag_notes b pg i).rest).trans rfl
@[simp] theorem Block.flag_ras (b : Block) (pg i : Nat) : (b.flag pg i).ras = b.ras := (congrArg Block.ras (Block.flag_notes b pg i).rest).trans rfl
@[simp] theorem Block.flag_pmu (b : Block) (pg i : Nat) : (b.flag pg i).pmu = b.pmu := (congrArg Block.pmu (Block.flag_notes b pg i).rest).trans rfl

@[simp] theorem Block.pgErr_prm (b : Block) (pg : Nat) (e : PgErr) (id : BitVec 5) (off : BitVec 14) (wr : Bool) : (b.pgErr pg e id off wr).prm = b.prm := (congrArg Block.prm (Block.pgErr_notes b pg e id off wr).rest).trans rfl
@[simp] theorem Block.pgErr_stn (b : Block) (pg : Nat) (e : PgErr) (id : BitVec 5) (off : BitVec 14) (wr : Bool) : (b.pgErr pg e id off wr).stn = b.stn := (congrArg Block.stn (Block.pgErr_notes b pg e id off wr).rest).trans rfl
@[simp] theorem Block.pgErr_col (b : Block) (pg : Nat) (e : PgErr) (id : BitVec 5) (off : BitVec 14) (wr : Bool) : (b.pgErr pg e id off wr).col = b.col := (congrArg Block.col (Block.pgErr_notes b pg e id off wr).rest).trans rfl
@[simp] theorem Block.pgErr_pend (b : Block) (pg : Nat) (e : PgErr) (id : BitVec 5) (off : BitVec 14) (wr : Bool) : (b.pgErr pg e id off wr).pend = b.pend := (congrArg Block.pend (Block.pgErr_notes b pg e id off wr).rest).trans rfl
@[simp] theorem Block.pgErr_pays (b : Block) (pg : Nat) (e : PgErr) (id : BitVec 5) (off : BitVec 14) (wr : Bool) : (b.pgErr pg e id off wr).pays = b.pays := (congrArg Block.pays (Block.pgErr_notes b pg e id off wr).rest).trans rfl
@[simp] theorem Block.pgErr_eng (b : Block) (pg : Nat) (e : PgErr) (id : BitVec 5) (off : BitVec 14) (wr : Bool) : (b.pgErr pg e id off wr).eng = b.eng := (congrArg Block.eng (Block.pgErr_notes b pg e id off wr).rest).trans rfl
@[simp] theorem Block.pgErr_cb (b : Block) (pg : Nat) (e : PgErr) (id : BitVec 5) (off : BitVec 14) (wr : Bool) : (b.pgErr pg e id off wr).cb = b.cb := (congrArg Block.cb (Block.pgErr_notes b pg e id off wr).rest).trans rfl
@[simp] theorem Block.pgErr_ctx (b : Block) (pg : Nat) (e : PgErr) (id : BitVec 5) (off : BitVec 14) (wr : Bool) : (b.pgErr pg e id off wr).ctx = b.ctx := (congrArg Block.ctx (Block.pgErr_notes b pg e id off wr).rest).trans rfl
@[simp] theorem Block.pgErr_ages (b : Block) (pg : Nat) (e : PgErr) (id : BitVec 5) (off : BitVec 14) (wr : Bool) : (b.pgErr pg e id off wr).ages = b.ages := (congrArg Block.ages (Block.pgErr_notes b pg e id off wr).rest).trans rfl
@[simp] theorem Block.pgErr_leave (b : Block) (pg : Nat) (e : PgErr) (id : BitVec 5) (off : BitVec 14) (wr : Bool) : (b.pgErr pg e id off wr).leave = b.leave := (congrArg Block.leave (Block.pgErr_notes b pg e id off wr).rest).trans rfl
@[simp] theorem Block.pgErr_hold (b : Block) (pg : Nat) (e : PgErr) (id : BitVec 5) (off : BitVec 14) (wr : Bool) : (b.pgErr pg e id off wr).hold = b.hold := (congrArg Block.hold (Block.pgErr_notes b pg e id off wr).rest).trans rfl
@[simp] theorem Block.pgErr_loads (b : Block) (pg : Nat) (e : PgErr) (id : BitVec 5) (off : BitVec 14) (wr : Bool) : (b.pgErr pg e id off wr).loads = b.loads := (congrArg Block.loads (Block.pgErr_notes b pg e id off wr).rest).trans rfl
@[simp] theorem Block.pgErr_csg (b : Block) (pg : Nat) (e : PgErr) (id : BitVec 5) (off : BitVec 14) (wr : Bool) : (b.pgErr pg e id off wr).csg = b.csg := (congrArg Block.csg (Block.pgErr_notes b pg e id off wr).rest).trans rfl
@[simp] theorem Block.pgErr_seat (b : Block) (pg : Nat) (e : PgErr) (id : BitVec 5) (off : BitVec 14) (wr : Bool) : (b.pgErr pg e id off wr).seat = b.seat := (congrArg Block.seat (Block.pgErr_notes b pg e id off wr).rest).trans rfl
@[simp] theorem Block.pgErr_thr (b : Block) (pg : Nat) (e : PgErr) (id : BitVec 5) (off : BitVec 14) (wr : Bool) : (b.pgErr pg e id off wr).thr = b.thr := (congrArg Block.thr (Block.pgErr_notes b pg e id off wr).rest).trans rfl
@[simp] theorem Block.pgErr_up (b : Block) (pg : Nat) (e : PgErr) (id : BitVec 5) (off : BitVec 14) (wr : Bool) : (b.pgErr pg e id off wr).up = b.up := (congrArg Block.up (Block.pgErr_notes b pg e id off wr).rest).trans rfl
@[simp] theorem Block.pgErr_ring (b : Block) (pg : Nat) (e : PgErr) (id : BitVec 5) (off : BitVec 14) (wr : Bool) : (b.pgErr pg e id off wr).ring = b.ring := (congrArg Block.ring (Block.pgErr_notes b pg e id off wr).rest).trans rfl
@[simp] theorem Block.pgErr_wr (b : Block) (pg : Nat) (e : PgErr) (id : BitVec 5) (off : BitVec 14) (wr : Bool) : (b.pgErr pg e id off wr).wr = b.wr := (congrArg Block.wr (Block.pgErr_notes b pg e id off wr).rest).trans rfl
@[simp] theorem Block.pgErr_idxFly (b : Block) (pg : Nat) (e : PgErr) (id : BitVec 5) (off : BitVec 14) (wr : Bool) : (b.pgErr pg e id off wr).idxFly = b.idxFly := (congrArg Block.idxFly (Block.pgErr_notes b pg e id off wr).rest).trans rfl
@[simp] theorem Block.pgErr_last (b : Block) (pg : Nat) (e : PgErr) (id : BitVec 5) (off : BitVec 14) (wr : Bool) : (b.pgErr pg e id off wr).last = b.last := (congrArg Block.last (Block.pgErr_notes b pg e id off wr).rest).trans rfl
@[simp] theorem Block.pgErr_tu (b : Block) (pg : Nat) (e : PgErr) (id : BitVec 5) (off : BitVec 14) (wr : Bool) : (b.pgErr pg e id off wr).tu = b.tu := (congrArg Block.tu (Block.pgErr_notes b pg e id off wr).rest).trans rfl
@[simp] theorem Block.pgErr_car (b : Block) (pg : Nat) (e : PgErr) (id : BitVec 5) (off : BitVec 14) (wr : Bool) : (b.pgErr pg e id off wr).car = b.car := (congrArg Block.car (Block.pgErr_notes b pg e id off wr).rest).trans rfl
@[simp] theorem Block.pgErr_vif (b : Block) (pg : Nat) (e : PgErr) (id : BitVec 5) (off : BitVec 14) (wr : Bool) : (b.pgErr pg e id off wr).vif = b.vif := (congrArg Block.vif (Block.pgErr_notes b pg e id off wr).rest).trans rfl
@[simp] theorem Block.pgErr_vm (b : Block) (pg : Nat) (e : PgErr) (id : BitVec 5) (off : BitVec 14) (wr : Bool) : (b.pgErr pg e id off wr).vm = b.vm := (congrArg Block.vm (Block.pgErr_notes b pg e id off wr).rest).trans rfl
@[simp] theorem Block.pgErr_xl (b : Block) (pg : Nat) (e : PgErr) (id : BitVec 5) (off : BitVec 14) (wr : Bool) : (b.pgErr pg e id off wr).xl = b.xl := (congrArg Block.xl (Block.pgErr_notes b pg e id off wr).rest).trans rfl
@[simp] theorem Block.pgErr_jp (b : Block) (pg : Nat) (e : PgErr) (id : BitVec 5) (off : BitVec 14) (wr : Bool) : (b.pgErr pg e id off wr).jp = b.jp := (congrArg Block.jp (Block.pgErr_notes b pg e id off wr).rest).trans rfl
@[simp] theorem Block.pgErr_otherFills (b : Block) (pg : Nat) (e : PgErr) (id : BitVec 5) (off : BitVec 14) (wr : Bool) : (b.pgErr pg e id off wr).otherFills = b.otherFills := (congrArg Block.otherFills (Block.pgErr_notes b pg e id off wr).rest).trans rfl
@[simp] theorem Block.pgErr_tok (b : Block) (pg : Nat) (e : PgErr) (id : BitVec 5) (off : BitVec 14) (wr : Bool) : (b.pgErr pg e id off wr).tok = b.tok := (congrArg Block.tok (Block.pgErr_notes b pg e id off wr).rest).trans rfl
@[simp] theorem Block.pgErr_clk (b : Block) (pg : Nat) (e : PgErr) (id : BitVec 5) (off : BitVec 14) (wr : Bool) : (b.pgErr pg e id off wr).clk = b.clk := (congrArg Block.clk (Block.pgErr_notes b pg e id off wr).rest).trans rfl
@[simp] theorem Block.pgErr_pwr (b : Block) (pg : Nat) (e : PgErr) (id : BitVec 5) (off : BitVec 14) (wr : Bool) : (b.pgErr pg e id off wr).pwr = b.pwr := (congrArg Block.pwr (Block.pgErr_notes b pg e id off wr).rest).trans rfl
@[simp] theorem Block.pgErr_ras (b : Block) (pg : Nat) (e : PgErr) (id : BitVec 5) (off : BitVec 14) (wr : Bool) : (b.pgErr pg e id off wr).ras = b.ras := (congrArg Block.ras (Block.pgErr_notes b pg e id off wr).rest).trans rfl
@[simp] theorem Block.pgErr_pmu (b : Block) (pg : Nat) (e : PgErr) (id : BitVec 5) (off : BitVec 14) (wr : Bool) : (b.pgErr pg e id off wr).pmu = b.pmu := (congrArg Block.pmu (Block.pgErr_notes b pg e id off wr).rest).trans rfl

@[simp] theorem Block.pmuEv_prm (b : Block) (ev : BitVec 8) (unit n : Nat) : (b.pmuEv ev unit n).prm = b.prm := (congrArg Block.prm (Block.pmuEv_notes b ev unit n).rest).trans rfl
@[simp] theorem Block.pmuEv_stn (b : Block) (ev : BitVec 8) (unit n : Nat) : (b.pmuEv ev unit n).stn = b.stn := (congrArg Block.stn (Block.pmuEv_notes b ev unit n).rest).trans rfl
@[simp] theorem Block.pmuEv_col (b : Block) (ev : BitVec 8) (unit n : Nat) : (b.pmuEv ev unit n).col = b.col := (congrArg Block.col (Block.pmuEv_notes b ev unit n).rest).trans rfl
@[simp] theorem Block.pmuEv_pend (b : Block) (ev : BitVec 8) (unit n : Nat) : (b.pmuEv ev unit n).pend = b.pend := (congrArg Block.pend (Block.pmuEv_notes b ev unit n).rest).trans rfl
@[simp] theorem Block.pmuEv_pays (b : Block) (ev : BitVec 8) (unit n : Nat) : (b.pmuEv ev unit n).pays = b.pays := (congrArg Block.pays (Block.pmuEv_notes b ev unit n).rest).trans rfl
@[simp] theorem Block.pmuEv_eng (b : Block) (ev : BitVec 8) (unit n : Nat) : (b.pmuEv ev unit n).eng = b.eng := (congrArg Block.eng (Block.pmuEv_notes b ev unit n).rest).trans rfl
@[simp] theorem Block.pmuEv_cb (b : Block) (ev : BitVec 8) (unit n : Nat) : (b.pmuEv ev unit n).cb = b.cb := (congrArg Block.cb (Block.pmuEv_notes b ev unit n).rest).trans rfl
@[simp] theorem Block.pmuEv_ctx (b : Block) (ev : BitVec 8) (unit n : Nat) : (b.pmuEv ev unit n).ctx = b.ctx := (congrArg Block.ctx (Block.pmuEv_notes b ev unit n).rest).trans rfl
@[simp] theorem Block.pmuEv_ages (b : Block) (ev : BitVec 8) (unit n : Nat) : (b.pmuEv ev unit n).ages = b.ages := (congrArg Block.ages (Block.pmuEv_notes b ev unit n).rest).trans rfl
@[simp] theorem Block.pmuEv_leave (b : Block) (ev : BitVec 8) (unit n : Nat) : (b.pmuEv ev unit n).leave = b.leave := (congrArg Block.leave (Block.pmuEv_notes b ev unit n).rest).trans rfl
@[simp] theorem Block.pmuEv_hold (b : Block) (ev : BitVec 8) (unit n : Nat) : (b.pmuEv ev unit n).hold = b.hold := (congrArg Block.hold (Block.pmuEv_notes b ev unit n).rest).trans rfl
@[simp] theorem Block.pmuEv_loads (b : Block) (ev : BitVec 8) (unit n : Nat) : (b.pmuEv ev unit n).loads = b.loads := (congrArg Block.loads (Block.pmuEv_notes b ev unit n).rest).trans rfl
@[simp] theorem Block.pmuEv_csg (b : Block) (ev : BitVec 8) (unit n : Nat) : (b.pmuEv ev unit n).csg = b.csg := (congrArg Block.csg (Block.pmuEv_notes b ev unit n).rest).trans rfl
@[simp] theorem Block.pmuEv_seat (b : Block) (ev : BitVec 8) (unit n : Nat) : (b.pmuEv ev unit n).seat = b.seat := (congrArg Block.seat (Block.pmuEv_notes b ev unit n).rest).trans rfl
@[simp] theorem Block.pmuEv_thr (b : Block) (ev : BitVec 8) (unit n : Nat) : (b.pmuEv ev unit n).thr = b.thr := (congrArg Block.thr (Block.pmuEv_notes b ev unit n).rest).trans rfl
@[simp] theorem Block.pmuEv_up (b : Block) (ev : BitVec 8) (unit n : Nat) : (b.pmuEv ev unit n).up = b.up := (congrArg Block.up (Block.pmuEv_notes b ev unit n).rest).trans rfl
@[simp] theorem Block.pmuEv_ring (b : Block) (ev : BitVec 8) (unit n : Nat) : (b.pmuEv ev unit n).ring = b.ring := (congrArg Block.ring (Block.pmuEv_notes b ev unit n).rest).trans rfl
@[simp] theorem Block.pmuEv_wr (b : Block) (ev : BitVec 8) (unit n : Nat) : (b.pmuEv ev unit n).wr = b.wr := (congrArg Block.wr (Block.pmuEv_notes b ev unit n).rest).trans rfl
@[simp] theorem Block.pmuEv_idxFly (b : Block) (ev : BitVec 8) (unit n : Nat) : (b.pmuEv ev unit n).idxFly = b.idxFly := (congrArg Block.idxFly (Block.pmuEv_notes b ev unit n).rest).trans rfl
@[simp] theorem Block.pmuEv_last (b : Block) (ev : BitVec 8) (unit n : Nat) : (b.pmuEv ev unit n).last = b.last := (congrArg Block.last (Block.pmuEv_notes b ev unit n).rest).trans rfl
@[simp] theorem Block.pmuEv_tu (b : Block) (ev : BitVec 8) (unit n : Nat) : (b.pmuEv ev unit n).tu = b.tu := (congrArg Block.tu (Block.pmuEv_notes b ev unit n).rest).trans rfl
@[simp] theorem Block.pmuEv_car (b : Block) (ev : BitVec 8) (unit n : Nat) : (b.pmuEv ev unit n).car = b.car := (congrArg Block.car (Block.pmuEv_notes b ev unit n).rest).trans rfl
@[simp] theorem Block.pmuEv_vif (b : Block) (ev : BitVec 8) (unit n : Nat) : (b.pmuEv ev unit n).vif = b.vif := (congrArg Block.vif (Block.pmuEv_notes b ev unit n).rest).trans rfl
@[simp] theorem Block.pmuEv_vm (b : Block) (ev : BitVec 8) (unit n : Nat) : (b.pmuEv ev unit n).vm = b.vm := (congrArg Block.vm (Block.pmuEv_notes b ev unit n).rest).trans rfl
@[simp] theorem Block.pmuEv_xl (b : Block) (ev : BitVec 8) (unit n : Nat) : (b.pmuEv ev unit n).xl = b.xl := (congrArg Block.xl (Block.pmuEv_notes b ev unit n).rest).trans rfl
@[simp] theorem Block.pmuEv_jp (b : Block) (ev : BitVec 8) (unit n : Nat) : (b.pmuEv ev unit n).jp = b.jp := (congrArg Block.jp (Block.pmuEv_notes b ev unit n).rest).trans rfl
@[simp] theorem Block.pmuEv_otherFills (b : Block) (ev : BitVec 8) (unit n : Nat) : (b.pmuEv ev unit n).otherFills = b.otherFills := (congrArg Block.otherFills (Block.pmuEv_notes b ev unit n).rest).trans rfl
@[simp] theorem Block.pmuEv_tok (b : Block) (ev : BitVec 8) (unit n : Nat) : (b.pmuEv ev unit n).tok = b.tok := (congrArg Block.tok (Block.pmuEv_notes b ev unit n).rest).trans rfl
@[simp] theorem Block.pmuEv_clk (b : Block) (ev : BitVec 8) (unit n : Nat) : (b.pmuEv ev unit n).clk = b.clk := (congrArg Block.clk (Block.pmuEv_notes b ev unit n).rest).trans rfl
@[simp] theorem Block.pmuEv_pwr (b : Block) (ev : BitVec 8) (unit n : Nat) : (b.pmuEv ev unit n).pwr = b.pwr := (congrArg Block.pwr (Block.pmuEv_notes b ev unit n).rest).trans rfl
@[simp] theorem Block.pmuEv_ras (b : Block) (ev : BitVec 8) (unit n : Nat) : (b.pmuEv ev unit n).ras = b.ras := (congrArg Block.ras (Block.pmuEv_notes b ev unit n).rest).trans rfl
@[simp] theorem Block.pmuEv_pmu (b : Block) (ev : BitVec 8) (unit n : Nat) : (b.pmuEv ev unit n).pmu = b.pmu := (congrArg Block.pmu (Block.pmuEv_notes b ev unit n).rest).trans rfl

@[simp] theorem Block.cnt_prm (b : Block) (pg off n : Nat) : (b.cnt pg off n).prm = b.prm := rfl
@[simp] theorem Block.cnt_stn (b : Block) (pg off n : Nat) : (b.cnt pg off n).stn = b.stn := rfl
@[simp] theorem Block.cnt_col (b : Block) (pg off n : Nat) : (b.cnt pg off n).col = b.col := rfl
@[simp] theorem Block.cnt_pend (b : Block) (pg off n : Nat) : (b.cnt pg off n).pend = b.pend := rfl
@[simp] theorem Block.cnt_pays (b : Block) (pg off n : Nat) : (b.cnt pg off n).pays = b.pays := rfl
@[simp] theorem Block.cnt_eng (b : Block) (pg off n : Nat) : (b.cnt pg off n).eng = b.eng := rfl
@[simp] theorem Block.cnt_cb (b : Block) (pg off n : Nat) : (b.cnt pg off n).cb = b.cb := rfl
@[simp] theorem Block.cnt_ctx (b : Block) (pg off n : Nat) : (b.cnt pg off n).ctx = b.ctx := rfl
@[simp] theorem Block.cnt_ages (b : Block) (pg off n : Nat) : (b.cnt pg off n).ages = b.ages := rfl
@[simp] theorem Block.cnt_leave (b : Block) (pg off n : Nat) : (b.cnt pg off n).leave = b.leave := rfl
@[simp] theorem Block.cnt_hold (b : Block) (pg off n : Nat) : (b.cnt pg off n).hold = b.hold := rfl
@[simp] theorem Block.cnt_loads (b : Block) (pg off n : Nat) : (b.cnt pg off n).loads = b.loads := rfl
@[simp] theorem Block.cnt_csg (b : Block) (pg off n : Nat) : (b.cnt pg off n).csg = b.csg := rfl
@[simp] theorem Block.cnt_seat (b : Block) (pg off n : Nat) : (b.cnt pg off n).seat = b.seat := rfl
@[simp] theorem Block.cnt_thr (b : Block) (pg off n : Nat) : (b.cnt pg off n).thr = b.thr := rfl
@[simp] theorem Block.cnt_up (b : Block) (pg off n : Nat) : (b.cnt pg off n).up = b.up := rfl
@[simp] theorem Block.cnt_ring (b : Block) (pg off n : Nat) : (b.cnt pg off n).ring = b.ring := rfl
@[simp] theorem Block.cnt_wr (b : Block) (pg off n : Nat) : (b.cnt pg off n).wr = b.wr := rfl
@[simp] theorem Block.cnt_idxFly (b : Block) (pg off n : Nat) : (b.cnt pg off n).idxFly = b.idxFly := rfl
@[simp] theorem Block.cnt_last (b : Block) (pg off n : Nat) : (b.cnt pg off n).last = b.last := rfl
@[simp] theorem Block.cnt_tu (b : Block) (pg off n : Nat) : (b.cnt pg off n).tu = b.tu := rfl
@[simp] theorem Block.cnt_car (b : Block) (pg off n : Nat) : (b.cnt pg off n).car = b.car := rfl
@[simp] theorem Block.cnt_vif (b : Block) (pg off n : Nat) : (b.cnt pg off n).vif = b.vif := rfl
@[simp] theorem Block.cnt_vm (b : Block) (pg off n : Nat) : (b.cnt pg off n).vm = b.vm := rfl
@[simp] theorem Block.cnt_xl (b : Block) (pg off n : Nat) : (b.cnt pg off n).xl = b.xl := rfl
@[simp] theorem Block.cnt_jp (b : Block) (pg off n : Nat) : (b.cnt pg off n).jp = b.jp := rfl
@[simp] theorem Block.cnt_otherFills (b : Block) (pg off n : Nat) : (b.cnt pg off n).otherFills = b.otherFills := rfl
@[simp] theorem Block.cnt_tok (b : Block) (pg off n : Nat) : (b.cnt pg off n).tok = b.tok := rfl
@[simp] theorem Block.cnt_clk (b : Block) (pg off n : Nat) : (b.cnt pg off n).clk = b.clk := rfl
@[simp] theorem Block.cnt_pwr (b : Block) (pg off n : Nat) : (b.cnt pg off n).pwr = b.pwr := rfl
@[simp] theorem Block.cnt_ras (b : Block) (pg off n : Nat) : (b.cnt pg off n).ras = b.ras := rfl
@[simp] theorem Block.cnt_pmu (b : Block) (pg off n : Nat) : (b.cnt pg off n).pmu = b.pmu := rfl
@[simp] theorem Block.cnt_rm (b : Block) (pg off n : Nat) : (b.cnt pg off n).rm = b.rm := rfl

@[simp] theorem Block.cntHalf_prm (b : Block) (pg off : Nat) (hi : Bool) (n : Nat) : (b.cntHalf pg off hi n).prm = b.prm := rfl
@[simp] theorem Block.cntHalf_stn (b : Block) (pg off : Nat) (hi : Bool) (n : Nat) : (b.cntHalf pg off hi n).stn = b.stn := rfl
@[simp] theorem Block.cntHalf_col (b : Block) (pg off : Nat) (hi : Bool) (n : Nat) : (b.cntHalf pg off hi n).col = b.col := rfl
@[simp] theorem Block.cntHalf_pend (b : Block) (pg off : Nat) (hi : Bool) (n : Nat) : (b.cntHalf pg off hi n).pend = b.pend := rfl
@[simp] theorem Block.cntHalf_pays (b : Block) (pg off : Nat) (hi : Bool) (n : Nat) : (b.cntHalf pg off hi n).pays = b.pays := rfl
@[simp] theorem Block.cntHalf_eng (b : Block) (pg off : Nat) (hi : Bool) (n : Nat) : (b.cntHalf pg off hi n).eng = b.eng := rfl
@[simp] theorem Block.cntHalf_cb (b : Block) (pg off : Nat) (hi : Bool) (n : Nat) : (b.cntHalf pg off hi n).cb = b.cb := rfl
@[simp] theorem Block.cntHalf_ctx (b : Block) (pg off : Nat) (hi : Bool) (n : Nat) : (b.cntHalf pg off hi n).ctx = b.ctx := rfl
@[simp] theorem Block.cntHalf_ages (b : Block) (pg off : Nat) (hi : Bool) (n : Nat) : (b.cntHalf pg off hi n).ages = b.ages := rfl
@[simp] theorem Block.cntHalf_leave (b : Block) (pg off : Nat) (hi : Bool) (n : Nat) : (b.cntHalf pg off hi n).leave = b.leave := rfl
@[simp] theorem Block.cntHalf_hold (b : Block) (pg off : Nat) (hi : Bool) (n : Nat) : (b.cntHalf pg off hi n).hold = b.hold := rfl
@[simp] theorem Block.cntHalf_loads (b : Block) (pg off : Nat) (hi : Bool) (n : Nat) : (b.cntHalf pg off hi n).loads = b.loads := rfl
@[simp] theorem Block.cntHalf_csg (b : Block) (pg off : Nat) (hi : Bool) (n : Nat) : (b.cntHalf pg off hi n).csg = b.csg := rfl
@[simp] theorem Block.cntHalf_seat (b : Block) (pg off : Nat) (hi : Bool) (n : Nat) : (b.cntHalf pg off hi n).seat = b.seat := rfl
@[simp] theorem Block.cntHalf_thr (b : Block) (pg off : Nat) (hi : Bool) (n : Nat) : (b.cntHalf pg off hi n).thr = b.thr := rfl
@[simp] theorem Block.cntHalf_up (b : Block) (pg off : Nat) (hi : Bool) (n : Nat) : (b.cntHalf pg off hi n).up = b.up := rfl
@[simp] theorem Block.cntHalf_ring (b : Block) (pg off : Nat) (hi : Bool) (n : Nat) : (b.cntHalf pg off hi n).ring = b.ring := rfl
@[simp] theorem Block.cntHalf_wr (b : Block) (pg off : Nat) (hi : Bool) (n : Nat) : (b.cntHalf pg off hi n).wr = b.wr := rfl
@[simp] theorem Block.cntHalf_idxFly (b : Block) (pg off : Nat) (hi : Bool) (n : Nat) : (b.cntHalf pg off hi n).idxFly = b.idxFly := rfl
@[simp] theorem Block.cntHalf_last (b : Block) (pg off : Nat) (hi : Bool) (n : Nat) : (b.cntHalf pg off hi n).last = b.last := rfl
@[simp] theorem Block.cntHalf_tu (b : Block) (pg off : Nat) (hi : Bool) (n : Nat) : (b.cntHalf pg off hi n).tu = b.tu := rfl
@[simp] theorem Block.cntHalf_car (b : Block) (pg off : Nat) (hi : Bool) (n : Nat) : (b.cntHalf pg off hi n).car = b.car := rfl
@[simp] theorem Block.cntHalf_vif (b : Block) (pg off : Nat) (hi : Bool) (n : Nat) : (b.cntHalf pg off hi n).vif = b.vif := rfl
@[simp] theorem Block.cntHalf_vm (b : Block) (pg off : Nat) (hi : Bool) (n : Nat) : (b.cntHalf pg off hi n).vm = b.vm := rfl
@[simp] theorem Block.cntHalf_xl (b : Block) (pg off : Nat) (hi : Bool) (n : Nat) : (b.cntHalf pg off hi n).xl = b.xl := rfl
@[simp] theorem Block.cntHalf_jp (b : Block) (pg off : Nat) (hi : Bool) (n : Nat) : (b.cntHalf pg off hi n).jp = b.jp := rfl
@[simp] theorem Block.cntHalf_otherFills (b : Block) (pg off : Nat) (hi : Bool) (n : Nat) : (b.cntHalf pg off hi n).otherFills = b.otherFills := rfl
@[simp] theorem Block.cntHalf_tok (b : Block) (pg off : Nat) (hi : Bool) (n : Nat) : (b.cntHalf pg off hi n).tok = b.tok := rfl
@[simp] theorem Block.cntHalf_clk (b : Block) (pg off : Nat) (hi : Bool) (n : Nat) : (b.cntHalf pg off hi n).clk = b.clk := rfl
@[simp] theorem Block.cntHalf_pwr (b : Block) (pg off : Nat) (hi : Bool) (n : Nat) : (b.cntHalf pg off hi n).pwr = b.pwr := rfl
@[simp] theorem Block.cntHalf_ras (b : Block) (pg off : Nat) (hi : Bool) (n : Nat) : (b.cntHalf pg off hi n).ras = b.ras := rfl
@[simp] theorem Block.cntHalf_pmu (b : Block) (pg off : Nat) (hi : Bool) (n : Nat) : (b.cntHalf pg off hi n).pmu = b.pmu := rfl
@[simp] theorem Block.cntHalf_rm (b : Block) (pg off : Nat) (hi : Bool) (n : Nat) : (b.cntHalf pg off hi n).rm = b.rm := rfl

@[simp] theorem Block.cnt48_prm (b : Block) (pg lo hi n : Nat) : (b.cnt48 pg lo hi n).prm = b.prm := rfl
@[simp] theorem Block.cnt48_stn (b : Block) (pg lo hi n : Nat) : (b.cnt48 pg lo hi n).stn = b.stn := rfl
@[simp] theorem Block.cnt48_col (b : Block) (pg lo hi n : Nat) : (b.cnt48 pg lo hi n).col = b.col := rfl
@[simp] theorem Block.cnt48_pend (b : Block) (pg lo hi n : Nat) : (b.cnt48 pg lo hi n).pend = b.pend := rfl
@[simp] theorem Block.cnt48_pays (b : Block) (pg lo hi n : Nat) : (b.cnt48 pg lo hi n).pays = b.pays := rfl
@[simp] theorem Block.cnt48_eng (b : Block) (pg lo hi n : Nat) : (b.cnt48 pg lo hi n).eng = b.eng := rfl
@[simp] theorem Block.cnt48_cb (b : Block) (pg lo hi n : Nat) : (b.cnt48 pg lo hi n).cb = b.cb := rfl
@[simp] theorem Block.cnt48_ctx (b : Block) (pg lo hi n : Nat) : (b.cnt48 pg lo hi n).ctx = b.ctx := rfl
@[simp] theorem Block.cnt48_ages (b : Block) (pg lo hi n : Nat) : (b.cnt48 pg lo hi n).ages = b.ages := rfl
@[simp] theorem Block.cnt48_leave (b : Block) (pg lo hi n : Nat) : (b.cnt48 pg lo hi n).leave = b.leave := rfl
@[simp] theorem Block.cnt48_hold (b : Block) (pg lo hi n : Nat) : (b.cnt48 pg lo hi n).hold = b.hold := rfl
@[simp] theorem Block.cnt48_loads (b : Block) (pg lo hi n : Nat) : (b.cnt48 pg lo hi n).loads = b.loads := rfl
@[simp] theorem Block.cnt48_csg (b : Block) (pg lo hi n : Nat) : (b.cnt48 pg lo hi n).csg = b.csg := rfl
@[simp] theorem Block.cnt48_seat (b : Block) (pg lo hi n : Nat) : (b.cnt48 pg lo hi n).seat = b.seat := rfl
@[simp] theorem Block.cnt48_thr (b : Block) (pg lo hi n : Nat) : (b.cnt48 pg lo hi n).thr = b.thr := rfl
@[simp] theorem Block.cnt48_up (b : Block) (pg lo hi n : Nat) : (b.cnt48 pg lo hi n).up = b.up := rfl
@[simp] theorem Block.cnt48_ring (b : Block) (pg lo hi n : Nat) : (b.cnt48 pg lo hi n).ring = b.ring := rfl
@[simp] theorem Block.cnt48_wr (b : Block) (pg lo hi n : Nat) : (b.cnt48 pg lo hi n).wr = b.wr := rfl
@[simp] theorem Block.cnt48_idxFly (b : Block) (pg lo hi n : Nat) : (b.cnt48 pg lo hi n).idxFly = b.idxFly := rfl
@[simp] theorem Block.cnt48_last (b : Block) (pg lo hi n : Nat) : (b.cnt48 pg lo hi n).last = b.last := rfl
@[simp] theorem Block.cnt48_tu (b : Block) (pg lo hi n : Nat) : (b.cnt48 pg lo hi n).tu = b.tu := rfl
@[simp] theorem Block.cnt48_car (b : Block) (pg lo hi n : Nat) : (b.cnt48 pg lo hi n).car = b.car := rfl
@[simp] theorem Block.cnt48_vif (b : Block) (pg lo hi n : Nat) : (b.cnt48 pg lo hi n).vif = b.vif := rfl
@[simp] theorem Block.cnt48_vm (b : Block) (pg lo hi n : Nat) : (b.cnt48 pg lo hi n).vm = b.vm := rfl
@[simp] theorem Block.cnt48_xl (b : Block) (pg lo hi n : Nat) : (b.cnt48 pg lo hi n).xl = b.xl := rfl
@[simp] theorem Block.cnt48_jp (b : Block) (pg lo hi n : Nat) : (b.cnt48 pg lo hi n).jp = b.jp := rfl
@[simp] theorem Block.cnt48_otherFills (b : Block) (pg lo hi n : Nat) : (b.cnt48 pg lo hi n).otherFills = b.otherFills := rfl
@[simp] theorem Block.cnt48_tok (b : Block) (pg lo hi n : Nat) : (b.cnt48 pg lo hi n).tok = b.tok := rfl
@[simp] theorem Block.cnt48_clk (b : Block) (pg lo hi n : Nat) : (b.cnt48 pg lo hi n).clk = b.clk := rfl
@[simp] theorem Block.cnt48_pwr (b : Block) (pg lo hi n : Nat) : (b.cnt48 pg lo hi n).pwr = b.pwr := rfl
@[simp] theorem Block.cnt48_ras (b : Block) (pg lo hi n : Nat) : (b.cnt48 pg lo hi n).ras = b.ras := rfl
@[simp] theorem Block.cnt48_pmu (b : Block) (pg lo hi n : Nat) : (b.cnt48 pg lo hi n).pmu = b.pmu := rfl
@[simp] theorem Block.cnt48_rm (b : Block) (pg lo hi n : Nat) : (b.cnt48 pg lo hi n).rm = b.rm := rfl

/-! ### The numbered parts after counting, reporting and register writes -/

@[simp] theorem Block.station_rmLog (b : Block) (cls code : BitVec 8) (src : BitVec 16) (data : BitVec 128) (x_ : Nat) : (b.rmLog cls code src data).station x_ = b.station x_ := by simp [Block.station]
@[simp] theorem Block.station_even (b : Block) (pg : Nat) (m : BitVec 24) (x_ : Nat) : (b.even pg m).station x_ = b.station x_ := by simp [Block.station]
@[simp] theorem Block.station_raise (b : Block) (pg : Nat) (m : BitVec 8) (x_ : Nat) : (b.raise pg m).station x_ = b.station x_ := by simp [Block.station]
@[simp] theorem Block.station_flag (b : Block) (pg i : Nat) (x_ : Nat) : (b.flag pg i).station x_ = b.station x_ := by simp [Block.station]
@[simp] theorem Block.station_pgErr (b : Block) (pg : Nat) (e : PgErr) (id : BitVec 5) (off : BitVec 14) (wr : Bool) (x_ : Nat) : (b.pgErr pg e id off wr).station x_ = b.station x_ := by simp [Block.station]
@[simp] theorem Block.station_pmuEv (b : Block) (ev : BitVec 8) (unit n : Nat) (x_ : Nat) : (b.pmuEv ev unit n).station x_ = b.station x_ := by simp [Block.station]
@[simp] theorem Block.station_cnt (b : Block) (pg off n : Nat) (x_ : Nat) : (b.cnt pg off n).station x_ = b.station x_ := by simp [Block.station]
@[simp] theorem Block.station_cntHalf (b : Block) (pg off : Nat) (hi : Bool) (n : Nat) (x_ : Nat) : (b.cntHalf pg off hi n).station x_ = b.station x_ := by simp [Block.station]
@[simp] theorem Block.station_cnt48 (b : Block) (pg lo hi n : Nat) (x_ : Nat) : (b.cnt48 pg lo hi n).station x_ = b.station x_ := by simp [Block.station]
@[simp] theorem Block.station_setReg (b : Block) (pg off : Nat) (v : Word) (x_ : Nat) : (b.setReg pg off v).station x_ = b.station x_ := by simp [Block.station]
@[simp] theorem Block.station_setHdr (b : Block) (pg : Nat) (h : PageHdr) (x_ : Nat) : (b.setHdr pg h).station x_ = b.station x_ := by simp [Block.station]
@[simp] theorem Block.station_answer (b : Block) (err : Bool) (data : BitVec 64) (x_ : Nat) : (b.answer err data).station x_ = b.station x_ := by simp [Block.station]

@[simp] theorem Block.coll_rmLog (b : Block) (cls code : BitVec 8) (src : BitVec 16) (data : BitVec 128) (x_ : Nat) : (b.rmLog cls code src data).coll x_ = b.coll x_ := by simp [Block.coll]
@[simp] theorem Block.coll_even (b : Block) (pg : Nat) (m : BitVec 24) (x_ : Nat) : (b.even pg m).coll x_ = b.coll x_ := by simp [Block.coll]
@[simp] theorem Block.coll_raise (b : Block) (pg : Nat) (m : BitVec 8) (x_ : Nat) : (b.raise pg m).coll x_ = b.coll x_ := by simp [Block.coll]
@[simp] theorem Block.coll_flag (b : Block) (pg i : Nat) (x_ : Nat) : (b.flag pg i).coll x_ = b.coll x_ := by simp [Block.coll]
@[simp] theorem Block.coll_pgErr (b : Block) (pg : Nat) (e : PgErr) (id : BitVec 5) (off : BitVec 14) (wr : Bool) (x_ : Nat) : (b.pgErr pg e id off wr).coll x_ = b.coll x_ := by simp [Block.coll]
@[simp] theorem Block.coll_pmuEv (b : Block) (ev : BitVec 8) (unit n : Nat) (x_ : Nat) : (b.pmuEv ev unit n).coll x_ = b.coll x_ := by simp [Block.coll]
@[simp] theorem Block.coll_cnt (b : Block) (pg off n : Nat) (x_ : Nat) : (b.cnt pg off n).coll x_ = b.coll x_ := by simp [Block.coll]
@[simp] theorem Block.coll_cntHalf (b : Block) (pg off : Nat) (hi : Bool) (n : Nat) (x_ : Nat) : (b.cntHalf pg off hi n).coll x_ = b.coll x_ := by simp [Block.coll]
@[simp] theorem Block.coll_cnt48 (b : Block) (pg lo hi n : Nat) (x_ : Nat) : (b.cnt48 pg lo hi n).coll x_ = b.coll x_ := by simp [Block.coll]
@[simp] theorem Block.coll_setReg (b : Block) (pg off : Nat) (v : Word) (x_ : Nat) : (b.setReg pg off v).coll x_ = b.coll x_ := by simp [Block.coll]
@[simp] theorem Block.coll_setHdr (b : Block) (pg : Nat) (h : PageHdr) (x_ : Nat) : (b.setHdr pg h).coll x_ = b.coll x_ := by simp [Block.coll]
@[simp] theorem Block.coll_answer (b : Block) (err : Bool) (data : BitVec 64) (x_ : Nat) : (b.answer err data).coll x_ = b.coll x_ := by simp [Block.coll]

@[simp] theorem Block.pendOf_rmLog (b : Block) (cls code : BitVec 8) (src : BitVec 16) (data : BitVec 128) (x_ : Event) : (b.rmLog cls code src data).pendOf x_ = b.pendOf x_ := by simp [Block.pendOf]
@[simp] theorem Block.pendOf_even (b : Block) (pg : Nat) (m : BitVec 24) (x_ : Event) : (b.even pg m).pendOf x_ = b.pendOf x_ := by simp [Block.pendOf]
@[simp] theorem Block.pendOf_raise (b : Block) (pg : Nat) (m : BitVec 8) (x_ : Event) : (b.raise pg m).pendOf x_ = b.pendOf x_ := by simp [Block.pendOf]
@[simp] theorem Block.pendOf_flag (b : Block) (pg i : Nat) (x_ : Event) : (b.flag pg i).pendOf x_ = b.pendOf x_ := by simp [Block.pendOf]
@[simp] theorem Block.pendOf_pgErr (b : Block) (pg : Nat) (e : PgErr) (id : BitVec 5) (off : BitVec 14) (wr : Bool) (x_ : Event) : (b.pgErr pg e id off wr).pendOf x_ = b.pendOf x_ := by simp [Block.pendOf]
@[simp] theorem Block.pendOf_pmuEv (b : Block) (ev : BitVec 8) (unit n : Nat) (x_ : Event) : (b.pmuEv ev unit n).pendOf x_ = b.pendOf x_ := by simp [Block.pendOf]
@[simp] theorem Block.pendOf_cnt (b : Block) (pg off n : Nat) (x_ : Event) : (b.cnt pg off n).pendOf x_ = b.pendOf x_ := by simp [Block.pendOf]
@[simp] theorem Block.pendOf_cntHalf (b : Block) (pg off : Nat) (hi : Bool) (n : Nat) (x_ : Event) : (b.cntHalf pg off hi n).pendOf x_ = b.pendOf x_ := by simp [Block.pendOf]
@[simp] theorem Block.pendOf_cnt48 (b : Block) (pg lo hi n : Nat) (x_ : Event) : (b.cnt48 pg lo hi n).pendOf x_ = b.pendOf x_ := by simp [Block.pendOf]
@[simp] theorem Block.pendOf_setReg (b : Block) (pg off : Nat) (v : Word) (x_ : Event) : (b.setReg pg off v).pendOf x_ = b.pendOf x_ := by simp [Block.pendOf]
@[simp] theorem Block.pendOf_setHdr (b : Block) (pg : Nat) (h : PageHdr) (x_ : Event) : (b.setHdr pg h).pendOf x_ = b.pendOf x_ := by simp [Block.pendOf]
@[simp] theorem Block.pendOf_answer (b : Block) (err : Bool) (data : BitVec 64) (x_ : Event) : (b.answer err data).pendOf x_ = b.pendOf x_ := by simp [Block.pendOf]

@[simp] theorem Block.engine_rmLog (b : Block) (cls code : BitVec 8) (src : BitVec 16) (data : BitVec 128) (x_ : Nat) : (b.rmLog cls code src data).engine x_ = b.engine x_ := by simp [Block.engine]
@[simp] theorem Block.engine_even (b : Block) (pg : Nat) (m : BitVec 24) (x_ : Nat) : (b.even pg m).engine x_ = b.engine x_ := by simp [Block.engine]
@[simp] theorem Block.engine_raise (b : Block) (pg : Nat) (m : BitVec 8) (x_ : Nat) : (b.raise pg m).engine x_ = b.engine x_ := by simp [Block.engine]
@[simp] theorem Block.engine_flag (b : Block) (pg i : Nat) (x_ : Nat) : (b.flag pg i).engine x_ = b.engine x_ := by simp [Block.engine]
@[simp] theorem Block.engine_pgErr (b : Block) (pg : Nat) (e : PgErr) (id : BitVec 5) (off : BitVec 14) (wr : Bool) (x_ : Nat) : (b.pgErr pg e id off wr).engine x_ = b.engine x_ := by simp [Block.engine]
@[simp] theorem Block.engine_pmuEv (b : Block) (ev : BitVec 8) (unit n : Nat) (x_ : Nat) : (b.pmuEv ev unit n).engine x_ = b.engine x_ := by simp [Block.engine]
@[simp] theorem Block.engine_cnt (b : Block) (pg off n : Nat) (x_ : Nat) : (b.cnt pg off n).engine x_ = b.engine x_ := by simp [Block.engine]
@[simp] theorem Block.engine_cntHalf (b : Block) (pg off : Nat) (hi : Bool) (n : Nat) (x_ : Nat) : (b.cntHalf pg off hi n).engine x_ = b.engine x_ := by simp [Block.engine]
@[simp] theorem Block.engine_cnt48 (b : Block) (pg lo hi n : Nat) (x_ : Nat) : (b.cnt48 pg lo hi n).engine x_ = b.engine x_ := by simp [Block.engine]
@[simp] theorem Block.engine_setReg (b : Block) (pg off : Nat) (v : Word) (x_ : Nat) : (b.setReg pg off v).engine x_ = b.engine x_ := by simp [Block.engine]
@[simp] theorem Block.engine_setHdr (b : Block) (pg : Nat) (h : PageHdr) (x_ : Nat) : (b.setHdr pg h).engine x_ = b.engine x_ := by simp [Block.engine]
@[simp] theorem Block.engine_answer (b : Block) (err : Bool) (data : BitVec 64) (x_ : Nat) : (b.answer err data).engine x_ = b.engine x_ := by simp [Block.engine]

@[simp] theorem Block.bank_rmLog (b : Block) (cls code : BitVec 8) (src : BitVec 16) (data : BitVec 128) (x_ : Nat) : (b.rmLog cls code src data).bank x_ = b.bank x_ := by simp [Block.bank]
@[simp] theorem Block.bank_even (b : Block) (pg : Nat) (m : BitVec 24) (x_ : Nat) : (b.even pg m).bank x_ = b.bank x_ := by simp [Block.bank]
@[simp] theorem Block.bank_raise (b : Block) (pg : Nat) (m : BitVec 8) (x_ : Nat) : (b.raise pg m).bank x_ = b.bank x_ := by simp [Block.bank]
@[simp] theorem Block.bank_flag (b : Block) (pg i : Nat) (x_ : Nat) : (b.flag pg i).bank x_ = b.bank x_ := by simp [Block.bank]
@[simp] theorem Block.bank_pgErr (b : Block) (pg : Nat) (e : PgErr) (id : BitVec 5) (off : BitVec 14) (wr : Bool) (x_ : Nat) : (b.pgErr pg e id off wr).bank x_ = b.bank x_ := by simp [Block.bank]
@[simp] theorem Block.bank_pmuEv (b : Block) (ev : BitVec 8) (unit n : Nat) (x_ : Nat) : (b.pmuEv ev unit n).bank x_ = b.bank x_ := by simp [Block.bank]
@[simp] theorem Block.bank_cnt (b : Block) (pg off n : Nat) (x_ : Nat) : (b.cnt pg off n).bank x_ = b.bank x_ := by simp [Block.bank]
@[simp] theorem Block.bank_cntHalf (b : Block) (pg off : Nat) (hi : Bool) (n : Nat) (x_ : Nat) : (b.cntHalf pg off hi n).bank x_ = b.bank x_ := by simp [Block.bank]
@[simp] theorem Block.bank_cnt48 (b : Block) (pg lo hi n : Nat) (x_ : Nat) : (b.cnt48 pg lo hi n).bank x_ = b.bank x_ := by simp [Block.bank]
@[simp] theorem Block.bank_setReg (b : Block) (pg off : Nat) (v : Word) (x_ : Nat) : (b.setReg pg off v).bank x_ = b.bank x_ := by simp [Block.bank]
@[simp] theorem Block.bank_setHdr (b : Block) (pg : Nat) (h : PageHdr) (x_ : Nat) : (b.setHdr pg h).bank x_ = b.bank x_ := by simp [Block.bank]
@[simp] theorem Block.bank_answer (b : Block) (err : Bool) (data : BitVec 64) (x_ : Nat) : (b.answer err data).bank x_ = b.bank x_ := by simp [Block.bank]

@[simp] theorem Block.rec?_rmLog (b : Block) (cls code : BitVec 8) (src : BitVec 16) (data : BitVec 128) (x_ : CtxNo) : (b.rmLog cls code src data).rec? x_ = b.rec? x_ := by simp [Block.rec?]
@[simp] theorem Block.rec?_even (b : Block) (pg : Nat) (m : BitVec 24) (x_ : CtxNo) : (b.even pg m).rec? x_ = b.rec? x_ := by simp [Block.rec?]
@[simp] theorem Block.rec?_raise (b : Block) (pg : Nat) (m : BitVec 8) (x_ : CtxNo) : (b.raise pg m).rec? x_ = b.rec? x_ := by simp [Block.rec?]
@[simp] theorem Block.rec?_flag (b : Block) (pg i : Nat) (x_ : CtxNo) : (b.flag pg i).rec? x_ = b.rec? x_ := by simp [Block.rec?]
@[simp] theorem Block.rec?_pgErr (b : Block) (pg : Nat) (e : PgErr) (id : BitVec 5) (off : BitVec 14) (wr : Bool) (x_ : CtxNo) : (b.pgErr pg e id off wr).rec? x_ = b.rec? x_ := by simp [Block.rec?]
@[simp] theorem Block.rec?_pmuEv (b : Block) (ev : BitVec 8) (unit n : Nat) (x_ : CtxNo) : (b.pmuEv ev unit n).rec? x_ = b.rec? x_ := by simp [Block.rec?]
@[simp] theorem Block.rec?_cnt (b : Block) (pg off n : Nat) (x_ : CtxNo) : (b.cnt pg off n).rec? x_ = b.rec? x_ := by simp [Block.rec?]
@[simp] theorem Block.rec?_cntHalf (b : Block) (pg off : Nat) (hi : Bool) (n : Nat) (x_ : CtxNo) : (b.cntHalf pg off hi n).rec? x_ = b.rec? x_ := by simp [Block.rec?]
@[simp] theorem Block.rec?_cnt48 (b : Block) (pg lo hi n : Nat) (x_ : CtxNo) : (b.cnt48 pg lo hi n).rec? x_ = b.rec? x_ := by simp [Block.rec?]
@[simp] theorem Block.rec?_setReg (b : Block) (pg off : Nat) (v : Word) (x_ : CtxNo) : (b.setReg pg off v).rec? x_ = b.rec? x_ := by simp [Block.rec?]
@[simp] theorem Block.rec?_setHdr (b : Block) (pg : Nat) (h : PageHdr) (x_ : CtxNo) : (b.setHdr pg h).rec? x_ = b.rec? x_ := by simp [Block.rec?]
@[simp] theorem Block.rec?_answer (b : Block) (err : Bool) (data : BitVec 64) (x_ : CtxNo) : (b.answer err data).rec? x_ = b.rec? x_ := by simp [Block.rec?]

@[simp] theorem Block.seatOf_rmLog (b : Block) (cls code : BitVec 8) (src : BitVec 16) (data : BitVec 128) (x_ : Nat) : (b.rmLog cls code src data).seatOf x_ = b.seatOf x_ := by simp [Block.seatOf]
@[simp] theorem Block.seatOf_even (b : Block) (pg : Nat) (m : BitVec 24) (x_ : Nat) : (b.even pg m).seatOf x_ = b.seatOf x_ := by simp [Block.seatOf]
@[simp] theorem Block.seatOf_raise (b : Block) (pg : Nat) (m : BitVec 8) (x_ : Nat) : (b.raise pg m).seatOf x_ = b.seatOf x_ := by simp [Block.seatOf]
@[simp] theorem Block.seatOf_flag (b : Block) (pg i : Nat) (x_ : Nat) : (b.flag pg i).seatOf x_ = b.seatOf x_ := by simp [Block.seatOf]
@[simp] theorem Block.seatOf_pgErr (b : Block) (pg : Nat) (e : PgErr) (id : BitVec 5) (off : BitVec 14) (wr : Bool) (x_ : Nat) : (b.pgErr pg e id off wr).seatOf x_ = b.seatOf x_ := by simp [Block.seatOf]
@[simp] theorem Block.seatOf_pmuEv (b : Block) (ev : BitVec 8) (unit n : Nat) (x_ : Nat) : (b.pmuEv ev unit n).seatOf x_ = b.seatOf x_ := by simp [Block.seatOf]
@[simp] theorem Block.seatOf_cnt (b : Block) (pg off n : Nat) (x_ : Nat) : (b.cnt pg off n).seatOf x_ = b.seatOf x_ := by simp [Block.seatOf]
@[simp] theorem Block.seatOf_cntHalf (b : Block) (pg off : Nat) (hi : Bool) (n : Nat) (x_ : Nat) : (b.cntHalf pg off hi n).seatOf x_ = b.seatOf x_ := by simp [Block.seatOf]
@[simp] theorem Block.seatOf_cnt48 (b : Block) (pg lo hi n : Nat) (x_ : Nat) : (b.cnt48 pg lo hi n).seatOf x_ = b.seatOf x_ := by simp [Block.seatOf]
@[simp] theorem Block.seatOf_setReg (b : Block) (pg off : Nat) (v : Word) (x_ : Nat) : (b.setReg pg off v).seatOf x_ = b.seatOf x_ := by simp [Block.seatOf]
@[simp] theorem Block.seatOf_setHdr (b : Block) (pg : Nat) (h : PageHdr) (x_ : Nat) : (b.setHdr pg h).seatOf x_ = b.seatOf x_ := by simp [Block.seatOf]
@[simp] theorem Block.seatOf_answer (b : Block) (err : Bool) (data : BitVec 64) (x_ : Nat) : (b.answer err data).seatOf x_ = b.seatOf x_ := by simp [Block.seatOf]

@[simp] theorem Block.thread_rmLog (b : Block) (cls code : BitVec 8) (src : BitVec 16) (data : BitVec 128) (x_ : Nat) : (b.rmLog cls code src data).thread x_ = b.thread x_ := by simp [Block.thread]
@[simp] theorem Block.thread_even (b : Block) (pg : Nat) (m : BitVec 24) (x_ : Nat) : (b.even pg m).thread x_ = b.thread x_ := by simp [Block.thread]
@[simp] theorem Block.thread_raise (b : Block) (pg : Nat) (m : BitVec 8) (x_ : Nat) : (b.raise pg m).thread x_ = b.thread x_ := by simp [Block.thread]
@[simp] theorem Block.thread_flag (b : Block) (pg i : Nat) (x_ : Nat) : (b.flag pg i).thread x_ = b.thread x_ := by simp [Block.thread]
@[simp] theorem Block.thread_pgErr (b : Block) (pg : Nat) (e : PgErr) (id : BitVec 5) (off : BitVec 14) (wr : Bool) (x_ : Nat) : (b.pgErr pg e id off wr).thread x_ = b.thread x_ := by simp [Block.thread]
@[simp] theorem Block.thread_pmuEv (b : Block) (ev : BitVec 8) (unit n : Nat) (x_ : Nat) : (b.pmuEv ev unit n).thread x_ = b.thread x_ := by simp [Block.thread]
@[simp] theorem Block.thread_cnt (b : Block) (pg off n : Nat) (x_ : Nat) : (b.cnt pg off n).thread x_ = b.thread x_ := by simp [Block.thread]
@[simp] theorem Block.thread_cntHalf (b : Block) (pg off : Nat) (hi : Bool) (n : Nat) (x_ : Nat) : (b.cntHalf pg off hi n).thread x_ = b.thread x_ := by simp [Block.thread]
@[simp] theorem Block.thread_cnt48 (b : Block) (pg lo hi n : Nat) (x_ : Nat) : (b.cnt48 pg lo hi n).thread x_ = b.thread x_ := by simp [Block.thread]
@[simp] theorem Block.thread_setReg (b : Block) (pg off : Nat) (v : Word) (x_ : Nat) : (b.setReg pg off v).thread x_ = b.thread x_ := by simp [Block.thread]
@[simp] theorem Block.thread_setHdr (b : Block) (pg : Nat) (h : PageHdr) (x_ : Nat) : (b.setHdr pg h).thread x_ = b.thread x_ := by simp [Block.thread]
@[simp] theorem Block.thread_answer (b : Block) (err : Bool) (data : BitVec 64) (x_ : Nat) : (b.answer err data).thread x_ = b.thread x_ := by simp [Block.thread]

@[simp] theorem Block.cmd_rmLog (b : Block) (cls code : BitVec 8) (src : BitVec 16) (data : BitVec 128) (x_ : Nat) : (b.rmLog cls code src data).cmd x_ = b.cmd x_ := by simp [Block.cmd]
@[simp] theorem Block.cmd_even (b : Block) (pg : Nat) (m : BitVec 24) (x_ : Nat) : (b.even pg m).cmd x_ = b.cmd x_ := by simp [Block.cmd]
@[simp] theorem Block.cmd_raise (b : Block) (pg : Nat) (m : BitVec 8) (x_ : Nat) : (b.raise pg m).cmd x_ = b.cmd x_ := by simp [Block.cmd]
@[simp] theorem Block.cmd_flag (b : Block) (pg i : Nat) (x_ : Nat) : (b.flag pg i).cmd x_ = b.cmd x_ := by simp [Block.cmd]
@[simp] theorem Block.cmd_pgErr (b : Block) (pg : Nat) (e : PgErr) (id : BitVec 5) (off : BitVec 14) (wr : Bool) (x_ : Nat) : (b.pgErr pg e id off wr).cmd x_ = b.cmd x_ := by simp [Block.cmd]
@[simp] theorem Block.cmd_pmuEv (b : Block) (ev : BitVec 8) (unit n : Nat) (x_ : Nat) : (b.pmuEv ev unit n).cmd x_ = b.cmd x_ := by simp [Block.cmd]
@[simp] theorem Block.cmd_cnt (b : Block) (pg off n : Nat) (x_ : Nat) : (b.cnt pg off n).cmd x_ = b.cmd x_ := by simp [Block.cmd]
@[simp] theorem Block.cmd_cntHalf (b : Block) (pg off : Nat) (hi : Bool) (n : Nat) (x_ : Nat) : (b.cntHalf pg off hi n).cmd x_ = b.cmd x_ := by simp [Block.cmd]
@[simp] theorem Block.cmd_cnt48 (b : Block) (pg lo hi n : Nat) (x_ : Nat) : (b.cnt48 pg lo hi n).cmd x_ = b.cmd x_ := by simp [Block.cmd]
@[simp] theorem Block.cmd_setReg (b : Block) (pg off : Nat) (v : Word) (x_ : Nat) : (b.setReg pg off v).cmd x_ = b.cmd x_ := by simp [Block.cmd]
@[simp] theorem Block.cmd_setHdr (b : Block) (pg : Nat) (h : PageHdr) (x_ : Nat) : (b.setHdr pg h).cmd x_ = b.cmd x_ := by simp [Block.cmd]
@[simp] theorem Block.cmd_answer (b : Block) (err : Bool) (data : BitVec 64) (x_ : Nat) : (b.answer err data).cmd x_ = b.cmd x_ := by simp [Block.cmd]

@[simp] theorem Block.ringOf_rmLog (b : Block) (cls code : BitVec 8) (src : BitVec 16) (data : BitVec 128) (x_ : RingNo) : (b.rmLog cls code src data).ringOf x_ = b.ringOf x_ := by simp [Block.ringOf]
@[simp] theorem Block.ringOf_even (b : Block) (pg : Nat) (m : BitVec 24) (x_ : RingNo) : (b.even pg m).ringOf x_ = b.ringOf x_ := by simp [Block.ringOf]
@[simp] theorem Block.ringOf_raise (b : Block) (pg : Nat) (m : BitVec 8) (x_ : RingNo) : (b.raise pg m).ringOf x_ = b.ringOf x_ := by simp [Block.ringOf]
@[simp] theorem Block.ringOf_flag (b : Block) (pg i : Nat) (x_ : RingNo) : (b.flag pg i).ringOf x_ = b.ringOf x_ := by simp [Block.ringOf]
@[simp] theorem Block.ringOf_pgErr (b : Block) (pg : Nat) (e : PgErr) (id : BitVec 5) (off : BitVec 14) (wr : Bool) (x_ : RingNo) : (b.pgErr pg e id off wr).ringOf x_ = b.ringOf x_ := by simp [Block.ringOf]
@[simp] theorem Block.ringOf_pmuEv (b : Block) (ev : BitVec 8) (unit n : Nat) (x_ : RingNo) : (b.pmuEv ev unit n).ringOf x_ = b.ringOf x_ := by simp [Block.ringOf]
@[simp] theorem Block.ringOf_cnt (b : Block) (pg off n : Nat) (x_ : RingNo) : (b.cnt pg off n).ringOf x_ = b.ringOf x_ := by simp [Block.ringOf]
@[simp] theorem Block.ringOf_cntHalf (b : Block) (pg off : Nat) (hi : Bool) (n : Nat) (x_ : RingNo) : (b.cntHalf pg off hi n).ringOf x_ = b.ringOf x_ := by simp [Block.ringOf]
@[simp] theorem Block.ringOf_cnt48 (b : Block) (pg lo hi n : Nat) (x_ : RingNo) : (b.cnt48 pg lo hi n).ringOf x_ = b.ringOf x_ := by simp [Block.ringOf]
@[simp] theorem Block.ringOf_setReg (b : Block) (pg off : Nat) (v : Word) (x_ : RingNo) : (b.setReg pg off v).ringOf x_ = b.ringOf x_ := by simp [Block.ringOf]
@[simp] theorem Block.ringOf_setHdr (b : Block) (pg : Nat) (h : PageHdr) (x_ : RingNo) : (b.setHdr pg h).ringOf x_ = b.ringOf x_ := by simp [Block.ringOf]
@[simp] theorem Block.ringOf_answer (b : Block) (err : Bool) (data : BitVec 64) (x_ : RingNo) : (b.answer err data).ringOf x_ = b.ringOf x_ := by simp [Block.ringOf]

@[simp] theorem Block.writer_rmLog (b : Block) (cls code : BitVec 8) (src : BitVec 16) (data : BitVec 128) (x_ : Nat) : (b.rmLog cls code src data).writer x_ = b.writer x_ := by simp [Block.writer]
@[simp] theorem Block.writer_even (b : Block) (pg : Nat) (m : BitVec 24) (x_ : Nat) : (b.even pg m).writer x_ = b.writer x_ := by simp [Block.writer]
@[simp] theorem Block.writer_raise (b : Block) (pg : Nat) (m : BitVec 8) (x_ : Nat) : (b.raise pg m).writer x_ = b.writer x_ := by simp [Block.writer]
@[simp] theorem Block.writer_flag (b : Block) (pg i : Nat) (x_ : Nat) : (b.flag pg i).writer x_ = b.writer x_ := by simp [Block.writer]
@[simp] theorem Block.writer_pgErr (b : Block) (pg : Nat) (e : PgErr) (id : BitVec 5) (off : BitVec 14) (wr : Bool) (x_ : Nat) : (b.pgErr pg e id off wr).writer x_ = b.writer x_ := by simp [Block.writer]
@[simp] theorem Block.writer_pmuEv (b : Block) (ev : BitVec 8) (unit n : Nat) (x_ : Nat) : (b.pmuEv ev unit n).writer x_ = b.writer x_ := by simp [Block.writer]
@[simp] theorem Block.writer_cnt (b : Block) (pg off n : Nat) (x_ : Nat) : (b.cnt pg off n).writer x_ = b.writer x_ := by simp [Block.writer]
@[simp] theorem Block.writer_cntHalf (b : Block) (pg off : Nat) (hi : Bool) (n : Nat) (x_ : Nat) : (b.cntHalf pg off hi n).writer x_ = b.writer x_ := by simp [Block.writer]
@[simp] theorem Block.writer_cnt48 (b : Block) (pg lo hi n : Nat) (x_ : Nat) : (b.cnt48 pg lo hi n).writer x_ = b.writer x_ := by simp [Block.writer]
@[simp] theorem Block.writer_setReg (b : Block) (pg off : Nat) (v : Word) (x_ : Nat) : (b.setReg pg off v).writer x_ = b.writer x_ := by simp [Block.writer]
@[simp] theorem Block.writer_setHdr (b : Block) (pg : Nat) (h : PageHdr) (x_ : Nat) : (b.setHdr pg h).writer x_ = b.writer x_ := by simp [Block.writer]
@[simp] theorem Block.writer_answer (b : Block) (err : Bool) (data : BitVec 64) (x_ : Nat) : (b.answer err data).writer x_ = b.writer x_ := by simp [Block.writer]

@[simp] theorem Block.vifOf_rmLog (b : Block) (cls code : BitVec 8) (src : BitVec 16) (data : BitVec 128) (x_ : Nat) : (b.rmLog cls code src data).vifOf x_ = b.vifOf x_ := by simp [Block.vifOf]
@[simp] theorem Block.vifOf_even (b : Block) (pg : Nat) (m : BitVec 24) (x_ : Nat) : (b.even pg m).vifOf x_ = b.vifOf x_ := by simp [Block.vifOf]
@[simp] theorem Block.vifOf_raise (b : Block) (pg : Nat) (m : BitVec 8) (x_ : Nat) : (b.raise pg m).vifOf x_ = b.vifOf x_ := by simp [Block.vifOf]
@[simp] theorem Block.vifOf_flag (b : Block) (pg i : Nat) (x_ : Nat) : (b.flag pg i).vifOf x_ = b.vifOf x_ := by simp [Block.vifOf]
@[simp] theorem Block.vifOf_pgErr (b : Block) (pg : Nat) (e : PgErr) (id : BitVec 5) (off : BitVec 14) (wr : Bool) (x_ : Nat) : (b.pgErr pg e id off wr).vifOf x_ = b.vifOf x_ := by simp [Block.vifOf]
@[simp] theorem Block.vifOf_pmuEv (b : Block) (ev : BitVec 8) (unit n : Nat) (x_ : Nat) : (b.pmuEv ev unit n).vifOf x_ = b.vifOf x_ := by simp [Block.vifOf]
@[simp] theorem Block.vifOf_cnt (b : Block) (pg off n : Nat) (x_ : Nat) : (b.cnt pg off n).vifOf x_ = b.vifOf x_ := by simp [Block.vifOf]
@[simp] theorem Block.vifOf_cntHalf (b : Block) (pg off : Nat) (hi : Bool) (n : Nat) (x_ : Nat) : (b.cntHalf pg off hi n).vifOf x_ = b.vifOf x_ := by simp [Block.vifOf]
@[simp] theorem Block.vifOf_cnt48 (b : Block) (pg lo hi n : Nat) (x_ : Nat) : (b.cnt48 pg lo hi n).vifOf x_ = b.vifOf x_ := by simp [Block.vifOf]
@[simp] theorem Block.vifOf_setReg (b : Block) (pg off : Nat) (v : Word) (x_ : Nat) : (b.setReg pg off v).vifOf x_ = b.vifOf x_ := by simp [Block.vifOf]
@[simp] theorem Block.vifOf_setHdr (b : Block) (pg : Nat) (h : PageHdr) (x_ : Nat) : (b.setHdr pg h).vifOf x_ = b.vifOf x_ := by simp [Block.vifOf]
@[simp] theorem Block.vifOf_answer (b : Block) (err : Bool) (data : BitVec 64) (x_ : Nat) : (b.answer err data).vifOf x_ = b.vifOf x_ := by simp [Block.vifOf]

@[simp] theorem Block.dlCh_rmLog (b : Block) (cls code : BitVec 8) (src : BitVec 16) (data : BitVec 128) (x_ : Nat) : (b.rmLog cls code src data).dlCh x_ = b.dlCh x_ := by simp [Block.dlCh]
@[simp] theorem Block.dlCh_even (b : Block) (pg : Nat) (m : BitVec 24) (x_ : Nat) : (b.even pg m).dlCh x_ = b.dlCh x_ := by simp [Block.dlCh]
@[simp] theorem Block.dlCh_raise (b : Block) (pg : Nat) (m : BitVec 8) (x_ : Nat) : (b.raise pg m).dlCh x_ = b.dlCh x_ := by simp [Block.dlCh]
@[simp] theorem Block.dlCh_flag (b : Block) (pg i : Nat) (x_ : Nat) : (b.flag pg i).dlCh x_ = b.dlCh x_ := by simp [Block.dlCh]
@[simp] theorem Block.dlCh_pgErr (b : Block) (pg : Nat) (e : PgErr) (id : BitVec 5) (off : BitVec 14) (wr : Bool) (x_ : Nat) : (b.pgErr pg e id off wr).dlCh x_ = b.dlCh x_ := by simp [Block.dlCh]
@[simp] theorem Block.dlCh_pmuEv (b : Block) (ev : BitVec 8) (unit n : Nat) (x_ : Nat) : (b.pmuEv ev unit n).dlCh x_ = b.dlCh x_ := by simp [Block.dlCh]
@[simp] theorem Block.dlCh_cnt (b : Block) (pg off n : Nat) (x_ : Nat) : (b.cnt pg off n).dlCh x_ = b.dlCh x_ := by simp [Block.dlCh]
@[simp] theorem Block.dlCh_cntHalf (b : Block) (pg off : Nat) (hi : Bool) (n : Nat) (x_ : Nat) : (b.cntHalf pg off hi n).dlCh x_ = b.dlCh x_ := by simp [Block.dlCh]
@[simp] theorem Block.dlCh_cnt48 (b : Block) (pg lo hi n : Nat) (x_ : Nat) : (b.cnt48 pg lo hi n).dlCh x_ = b.dlCh x_ := by simp [Block.dlCh]
@[simp] theorem Block.dlCh_setReg (b : Block) (pg off : Nat) (v : Word) (x_ : Nat) : (b.setReg pg off v).dlCh x_ = b.dlCh x_ := by simp [Block.dlCh]
@[simp] theorem Block.dlCh_setHdr (b : Block) (pg : Nat) (h : PageHdr) (x_ : Nat) : (b.setHdr pg h).dlCh x_ = b.dlCh x_ := by simp [Block.dlCh]
@[simp] theorem Block.dlCh_answer (b : Block) (err : Bool) (data : BitVec 64) (x_ : Nat) : (b.answer err data).dlCh x_ = b.dlCh x_ := by simp [Block.dlCh]

@[simp] theorem Block.port_rmLog (b : Block) (cls code : BitVec 8) (src : BitVec 16) (data : BitVec 128) (x_ : Nat) : (b.rmLog cls code src data).port x_ = b.port x_ := by simp [Block.port]
@[simp] theorem Block.port_even (b : Block) (pg : Nat) (m : BitVec 24) (x_ : Nat) : (b.even pg m).port x_ = b.port x_ := by simp [Block.port]
@[simp] theorem Block.port_raise (b : Block) (pg : Nat) (m : BitVec 8) (x_ : Nat) : (b.raise pg m).port x_ = b.port x_ := by simp [Block.port]
@[simp] theorem Block.port_flag (b : Block) (pg i : Nat) (x_ : Nat) : (b.flag pg i).port x_ = b.port x_ := by simp [Block.port]
@[simp] theorem Block.port_pgErr (b : Block) (pg : Nat) (e : PgErr) (id : BitVec 5) (off : BitVec 14) (wr : Bool) (x_ : Nat) : (b.pgErr pg e id off wr).port x_ = b.port x_ := by simp [Block.port]
@[simp] theorem Block.port_pmuEv (b : Block) (ev : BitVec 8) (unit n : Nat) (x_ : Nat) : (b.pmuEv ev unit n).port x_ = b.port x_ := by simp [Block.port]
@[simp] theorem Block.port_cnt (b : Block) (pg off n : Nat) (x_ : Nat) : (b.cnt pg off n).port x_ = b.port x_ := by simp [Block.port]
@[simp] theorem Block.port_cntHalf (b : Block) (pg off : Nat) (hi : Bool) (n : Nat) (x_ : Nat) : (b.cntHalf pg off hi n).port x_ = b.port x_ := by simp [Block.port]
@[simp] theorem Block.port_cnt48 (b : Block) (pg lo hi n : Nat) (x_ : Nat) : (b.cnt48 pg lo hi n).port x_ = b.port x_ := by simp [Block.port]
@[simp] theorem Block.port_setReg (b : Block) (pg off : Nat) (v : Word) (x_ : Nat) : (b.setReg pg off v).port x_ = b.port x_ := by simp [Block.port]
@[simp] theorem Block.port_setHdr (b : Block) (pg : Nat) (h : PageHdr) (x_ : Nat) : (b.setHdr pg h).port x_ = b.port x_ := by simp [Block.port]
@[simp] theorem Block.port_answer (b : Block) (err : Bool) (data : BitVec 64) (x_ : Nat) : (b.answer err data).port x_ = b.port x_ := by simp [Block.port]

/-! ### The relation under an update of another part -/

/-- An update that neither reads nor writes registers, headers and the log queue keeps the relation. -/
theorem Block.Notes.map {pgs : List Nat} {b b' : Block} (h : Block.Notes pgs b b') (g : Block → Block)
    (hg : ∀ (b : Block) r d q v, g { b with fab := { b.fab with regs := r, hdr := d }, rm := { b.rm with logq := q, evHeld := v } } =
      { g b with fab := { (g b).fab with regs := r, hdr := d }, rm := { (g b).rm with logq := q, evHeld := v } })
    (hr : ∀ b : Block, (g b).fab.regs = b.fab.regs ∧ (g b).fab.hdr = b.fab.hdr) : Block.Notes pgs (g b) (g b') := by
  refine ⟨?_, fun pg off n o => ?_, fun pg n => ?_⟩
  · have e : g b' = _ := (congrArg g h.rest).trans (hg _ _ _ _ _)
    rw [(hr b').1, (hr b').2]
    have hl : (g b').rm.logq = b'.rm.logq := by rw [e]
    have hv : (g b').rm.evHeld = b'.rm.evHeld := by rw [e]
    rw [hl, hv]; exact e
  · have := h.reg pg off n o
    simp only [Block.reg, (hr b').1, (hr b).1] at this ⊢; exact this
  · have := h.hdr pg n
    simp only [Block.hdr, (hr b').2, (hr b).2] at this ⊢; exact this

end Sys2Proof.Machine
end

