-- ==== Sys2Proof/Laws/Port.lean ====
section
/-! SUPPORT. What a register write makes of the block when Table 12-3 has no objection to it. -/

namespace Sys2Proof.Machine

/-! ### The pages of the numbered units -/

theorem pgClass_stn (k : Fin 8) : pgClass (pgSTN k) = some .stn := by revert k; decide
theorem pgClass_lc (c : Fin 16) : pgClass (pgLC c) = some .lc := by revert c; decide
theorem pgClass_re (n : Fin 16) : pgClass (pgRE n) = some .re := by revert n; decide
theorem pgClass_csg (g : Fin 32) : pgClass (pgCSG g) = some .csg := by revert g; decide

@[simp] theorem blend_ones (x y : Word) : blend 0xFFFFFFFF x y = y := by
  have h : (0xFFFFFFFF : Word) = BitVec.allOnes 32 := by decide
  have h0 : x &&& ~~~(BitVec.allOnes 32) = 0#32 := by rw [BitVec.not_allOnes]; exact BitVec.and_zero
  simp only [blend, h, h0, BitVec.and_allOnes, BitVec.zero_or]

/-- A page that holds no write: discarding its held copies changes nothing. -/
theorem Block.unhold_of_not_held (b : Block) (pg off sub : Nat) (h : b.isHeld pg = false) : b.unhold pg off sub = b := by
  have hn : ∀ x ∈ b.fab.held, (x.pg == pg) = false := by
    intro x hx
    by_contra hc
    have : b.fab.held.any (fun y => y.pg == pg) = true := List.any_eq_true.mpr ⟨x, hx, by simpa using hc⟩
    simp [Block.isHeld, this] at h
  have : b.fab.held.filter (fun h : Held => !(h.pg == pg && h.off == off && (h.sub == sub || !(pg == pgERW && off == 0x06C)))) =
      b.fab.held := List.filter_eq_self.mpr fun x hx => by simp [hn x hx]
  unfold Block.unhold
  simp only [this]

@[simp] theorem blend_zero (x y : Word) : blend 0 x y = x := by
  have : (~~~(0 : Word)) = BitVec.allOnes 32 := by decide
  have h0 : y &&& (0 : Word) = 0#32 := BitVec.and_zero
  simp only [blend, this, BitVec.and_allOnes, h0, BitVec.or_zero]

@[simp] theorem Block.isHeld_relock (b : Block) (q pg : Nat) : (b.relock q).isHeld pg = b.isHeld pg := rfl
@[simp] theorem Block.subOf_relock (b : Block) (q pg off : Nat) : (b.relock q).subOf pg off = b.subOf pg off := rfl
@[simp] theorem Block.reg_relock (b : Block) (q pg off : Nat) : (b.relock q).reg pg off = b.reg pg off := rfl

/-- The selection's check, when it finds nothing wrong, changes nothing. -/
theorem Block.selBad_ok (b : Block) (pg off : Nat) (h : (b.selBad pg off).2 = false) : b.selBad pg off = (b, false) := by
  unfold Block.selBad at h ⊢
  split at h <;> simp_all
  all_goals (split at h <;> simp_all)

theorem Block.waiting_none (b : Block) (pg off : Nat) (h : b.isHeld pg = false) (hp : (b.fab.posted.find? pg).isNone = true) :
    b.waiting pg off = none := by
  have hn : b.fab.held.find? (fun h => h.pg == pg && h.off == off && h.sub == b.subOf pg off) = none := by
    rw [List.find?_eq_none]
    intro x hx
    have : ¬ (x.pg == pg) = true := by
      intro hc
      have : b.fab.held.any (fun y => y.pg == pg) = true := List.any_eq_true.mpr ⟨x, hx, hc⟩
      simp [Block.isHeld, this] at h
    simp_all
  unfold Block.waiting
  simp only [hn]
  rw [Option.isNone_iff_eq_none] at hp
  simp [hp]

/-- Waking units changes nothing but their gates. -/
theorem Block.wakeUnits_clk (b : Block) (pg off : Nat) :
    ∃ g m, b.wakeUnits pg off = { b with clk := { b.clk with gated := g, busyAt := m } } := by
  unfold Block.wakeUnits
  generalize pageUnits pg off = l
  induction l generalizing b with
  | nil => exact ⟨b.clk.gated, b.clk.busyAt, rfl⟩
  | cons u r ih =>
    obtain ⟨g, m, h⟩ := ih (b.ungate u.1 u.2)
    exact ⟨g, m, by simpa [Block.ungate] using h⟩

/-- Rows 6 to 8 of Table 12-3 with nothing to object: the value is committed. -/
theorem Block.writeFields_ok (c : Block) (pg off : Nat) (w : RegAcc) (cl : PgClass) (locked : Bool) (hc : pgClass pg = some cl)
    (h40 : 0x40 ≤ off) (hen : (c.hdr pg).enable = true) (hkey : (defOf cl off).key = true → locked = false)
    (honce : (defOf cl off).wonce = true → c.fab.instSet = false) (hheld : c.isHeld pg = false)
    (hpost : (c.fab.posted.find? pg).isNone = true) (hex : c.expertOf w.rid pg cl (defOf cl off) = 0)
    (hals : if w.als = .base then (defOf cl off).rw ||| (defOf cl off).wo ≠ 0
      else (defOf cl off).rw ≠ 0 ∧ w.data &&& ~~~(defOf cl off).rw = 0)
    (hsel : (c.selBad pg off).2 = false) (hpwr : ¬ (cl = .pwr ∧ off = 0x070 ∧ c.rm.grant.isNone = true))
    (hcpc : ¬ (cl = .cpc ∧ off = 0x040 ∧ (!(c.clk.xchk (bit (c.wval pg off w) 0)).checked) = true)) :
    c.writeFields w.rid pg cl w.als off w.data locked = c.commitWrite w.rid pg cl w.als off (defOf cl off) (c.wval pg off w) := by
  have hlt : ¬ off < 0x40 := by omega
  have hw : c.waiting pg off = none := Block.waiting_none _ _ _ hheld hpost
  have hv : aliasVal w.als (c.readReg w.rid pg cl off &&& (defOf cl off).rw) (defOf cl off).rw (defOf cl off).wo w.data =
      c.wval pg off w := by simp [Block.wval, hc]
  have hruled : c.ruledWrite w.rid pg cl w.als off (defOf cl off) (c.readReg w.rid pg cl off &&& (defOf cl off).rw)
      (c.wval pg off w) = c.commitWrite w.rid pg cl w.als off (defOf cl off) (c.wval pg off w) := by
    unfold Block.ruledWrite
    simp only [hpwr, if_false, Block.selBad_ok _ _ _ hsel, Bool.false_eq_true, hcpc]
  have hal : ¬ (w.als ≠ .base ∧ w.data &&& ~~~(defOf cl off).rw ≠ 0) := by
    rintro ⟨h1, h2⟩
    rw [if_neg h1] at hals
    exact h2 hals.2
  have hk : ¬ ((defOf cl off).key = true ∧ locked = true) := by
    rintro ⟨h1, h2⟩
    simp [hkey h1] at h2
  have ho : ¬ ((defOf cl off).wonce = true ∧ w.als = .base ∧ c.fab.instSet = true) := by
    rintro ⟨h1, _, h2⟩
    simp [honce h1] at h2
  have hr : ¬ ((defOf cl off).rw = 0 ∧ (w.als ≠ .base ∨ (defOf cl off).wo = 0)) := by
    rintro ⟨h1, h2⟩
    by_cases hb : w.als = .base
    · rw [if_pos hb] at hals
      rcases h2 with h2 | h2
      · exact h2 hb
      · simp [h1, h2] at hals
    · rw [if_neg hb] at hals
      exact hals.1 h1
  unfold Block.writeFields
  simp only [hal, if_false, hen, Bool.not_true, Bool.false_eq_true, and_false, hk, ho, hr, hlt, hw, hv, hex, blend_zero]
  simp [hruled]

/-- A base-part write gives the register its RW and WO bits of the data. -/
theorem Block.wval_base (b : Block) (pg off : Nat) (w : RegAcc) (cl : PgClass) (hc : pgClass pg = some cl) (ha : w.als = .base) :
    b.wval pg off w = w.data &&& ((defOf cl off).rw ||| (defOf cl off).wo) := by
  simp [Block.wval, hc, ha, aliasVal]

/-- A value committed in immediate mode, with nothing held, takes effect as it is stored. -/
theorem Block.commitWrite_now (c : Block) (id : BitVec 5) (pg : Nat) (cl : PgClass) (al : Alias) (off : Nat) (v : Word)
    (hp : (defOf cl off).pst = false) (ha : (c.hdr pg).apply = false) (hh : c.isHeld pg = false) :
    c.commitWrite id pg cl al off (defOf cl off) v = c.applyReg id pg cl al off (c.subOf pg off) (storedVal cl off v) false := by
  unfold Block.commitWrite
  simp only [hp, ha, Bool.false_eq_true, if_false, Bool.false_and]
  rw [Block.unhold_of_not_held _ _ _ _ hh]

/-- A value committed to a register marked PST, in immediate mode, is posted. -/
theorem Block.commitWrite_posted (c : Block) (id : BitVec 5) (pg : Nat) (cl : PgClass) (al : Alias) (off : Nat) (v : Word)
    (hp : (defOf cl off).pst = true) (ha : (c.hdr pg).apply = false) :
    c.commitWrite id pg cl al off (defOf cl off) v =
      c.post pg { id, off, al, val := storedVal cl off v, defer := false, old := false } := by
  unfold Block.commitWrite
  simp [hp, ha, Block.post]

/-- A posted write lands: it takes effect, and the page is free. -/
theorem effPostedLand_now (b : Block) (pg : Nat) (p : Posted) (cl : PgClass) (hc : pgClass pg = some cl)
    (hm : ¬ (pg = pgRM ∧ b.rmFrozen = true))
    (hp : b.fab.posted.find? pg = some p) (hd : p.defer = false) (hh : b.isHeld pg = false) :
    effPostedLand b pg = b.oneSeq ((b.unpost pg).applyReg p.id pg cl p.al p.off (b.subOf pg p.off) p.val false) := by
  unfold effPostedLand
  simp only [hp, hc, hd, hm, Bool.false_eq_true, if_false]
  rw [Block.unhold_of_not_held _ _ _ _ (by simpa [Block.isHeld] using hh)]
  rfl

end Sys2Proof.Machine
end

