-- ==== Sys2Proof/Tests/Slice0.lean ====
section
/-! SUPPORT. Tests: the checks of well-formedness, the spec's worked examples, and for each statement with hypotheses a theorem
that applies it at concrete states and operands which meet them, clause by clause. -/

set_option maxRecDepth 100000

open Sys2Proof Sys2Proof.Machine

namespace Sys2Proof.Tests

/-! ### Well-formedness: one term that each check refuses, and terms it accepts -/

theorem test_wf_doorbell : (Instr.shortDoorbell 0 0 []).wf = false ∧ (Instr.longDoorbell 0 0 []).wf = false := by decide
theorem test_wf_fills : (Instr.fillResponse 0 ⟨0, 0⟩ (.ok [1])).wf = false ∧ (Instr.refreshResponse 0 ⟨0, 0⟩ (.ok [1])).wf = false := by decide
theorem test_wf_multicast : (Instr.mcsSetReadDone 0 (.ok [])).wf = false := by decide
theorem test_wf_context_reads : (Instr.ctxtEntryRead 0 (.ok [1])).wf = false ∧ (Instr.spillPush 0 (.ok [1])).wf = false := by decide
theorem test_wf_refill : (Instr.refillDone 0 [{ prio := 3, resp := .ok [1] }]).wf = false := by decide
theorem test_wf_load_entry : (Instr.ctxLoadComplete 0 (.ok [1]) []).wf = false := by decide
theorem test_wf_load_descs : (Instr.ctxLoadComplete 0 MemResp.err [.ok [1]]).wf = false := by decide
theorem test_wf_image_offsets : (Instr.loadPass1Done ⟨[(3, 1), (3, 2)], none⟩).wf = false := by decide
theorem test_wf_image_stop : (Instr.loadPass2Done ⟨[], some (2 ^ 26)⟩).wf = false := by decide
theorem test_wf_event_frame : (Instr.eventFrame 0 0 [0, 0, 0, 0, 0, 0]).wf = false := by decide
theorem test_wf_control_frame : (Instr.creditFrame 0 []).wf = false ∧ (Instr.hello 0 []).wf = false := by decide
theorem test_wf_reserved_page :
    (Instr.reservedPageAccess { space := .regs, addr := 0, size := 2, data := 0, rid := 1 } true).wf = false := by decide
theorem test_wf_ready : (Instr.ready { copy0 := [], copy1 := List.replicate 64 0, verA := 1, verB := 0 }).wf = false := by decide
theorem test_wf_rings_range : (Instr.ringsRestored [(8192, MemResp.err)]).wf = false := by decide
theorem test_wf_rings_length : (Instr.ringsRestored [(5, .ok [1])]).wf = false := by decide
theorem test_wf_reloaded : (Instr.reloaded [(5120, MemResp.err)]).wf = false := by decide
theorem test_wf_sensors : (Instr.sensorSample [] []).wf = false := by decide
theorem test_wf_counter : (Instr.counterWrap true 16).wf = false := by decide
theorem test_wf_accepts : (Instr.counterWrap true 15).wf = true ∧ (Instr.wakeCause 3).wf = true ∧ (Instr.dpReady).wf = true := by decide

/-! ### The spec's worked examples -/

/-- The block after one command on a running block. -/
def after (c : Instr) (b : Block) : Option Block :=
  match exec c { blk := b } with
  | .next t => some t.blk
  | _ => none

/-- "Ingress": tag 0x01_3C02 and DEVEVT 0x2A41 hash to bucket 0xB274 with SRC_ORDER 16; "The Last": its slot names 0x0_5D31. -/
theorem test_source_key :
    (srcHash 0x013C02 0x2A41).toNat % 2 ^ 16 = 0xB274 ∧
    srcFind (leBytes 8 0x05D3102A41013C02) 0x013C02 0x2A41 = some 0x5D31 := by decide

/-- "The Last": the EVA entry of wired event 0x0_02A5. -/
theorem test_eva_entry : evaOf 0x0000002C014002A5 = { vevent := 0x2A5, prio := 20, type := 0, cls := 44, owner := 0 } := by decide

/-- "The Last": class 44. -/
theorem test_class_44 :
    rteOf (0x01230011 ||| 0x00284032 <<< 128 ||| 0x4408 <<< 160) =
      { kind := 1, dclass := 1, target := 0x123, ring := 50, ringValid := true, coalWindow := 40, coalCount := 8, bypPrio := 4,
        bypEn := true } := by decide

/-- R140: BASIC_LC3 with THREAD 40 and SPAN_M1 3 sends lines 6, 7 and 8 to threads 42, 43 and 40. -/
theorem test_basic_threads :
    [6, 7, 8].map (basicThread { lc := [0, 0, 0, 0x3028] } 1024 3) = [42, 43, 40] := by decide

/-- "The Carousel": GT 6,999,999,300 ns lies in position 3,837 of revolution 6,835. -/
theorem test_position : slotOf 250 6999999300 = 6835 * 4096 + 3837 := by decide

/-- "Federation": the frame's header and word 1. -/
theorem test_event_frame_header :
    (eventBeats { vc := false, pin := false, dest := 0xA07, origin := 0xA02, oeng := 1, hops := 1, revent := 0x3C40, merge := 0,
                  plen := 20, trunc := false, bytes := List.replicate 20 7 }).map (fun x => x.toNat % 2 ^ 128) =
      [0x0000000140003C400000110A020A0741, 0x07070707070707070707070707070707, 0x07070707] := by decide

/-- "Federation": 0x0A07 hears 0x0A02 on port 1; theta is 22 and delay 99. -/
def hears : Block :=
  { pwr := { stage := .run, intermission := false }, tu := { ns := 53248133 }, jp := ⟨[(1, { up := true })]⟩
    fab := { instSet := true, regs := ⟨[(regKey pgJL 0xA0, 1)]⟩ } }

theorem test_time_frame :
    (after (.timeFrame 1 [0x3 ||| 1 <<< 5 ||| 3 <<< 8 ||| 0xA02 <<< 16 ||| 53248012 <<< 64, 52224020 ||| 52224097 <<< 64]) hears).map
      (fun b => ((b.port 1).theta, (b.port 1).delay)) = some (22, 99) := by decide +kernel

/-- The Turnstile of the example of "Registers": regions 5 and 6 let in identity 2 to STN_INV and STN_INV_ARG. -/
def hostInv : Block :=
  { pwr := { stage := .run, intermission := false }
    fab := { rgn := ⟨[(0, { count := 16384, whi := 1023, rmask := 0xB, wmask := 0xB }),
                      (5, { first := 0x10, count := 8, wlo := 0x11, whi := 0x12, rmask := 4, wmask := 4 }),
                      (6, { first := 0x10, count := 8, wlo := 0x13, whi := 0x13, rmask := 4 })]⟩ } }

/-- The host's 64-bit write: STN_CTL keeps its reset value, DENY is noted for page 0x13 word 0x010, the invalidation starts, the
access gets an error. -/
theorem test_turnstile_example :
    (after (.registerWrite { space := .regs, addr := 0x4C040, size := 3, data := 0x0000000400000000, rid := 2 }) hostInv).map
      (fun b => ([(b.fab.log.get {} 0).tpn.toNat, (b.fab.log.get {} 0).word.toNat, (b.fab.log.get {} 0).cause.toNat],
        [b.reg 0x13 0x040 == resetOf 0x13 0x040, (b.station 3).inv.isSome, (b.fab.rsp.map PortRsp.err) == some true])) =
      some ([0x13, 0x10, 1], [true, true, true]) := by decide +kernel

/-- "Registers": the first part of a 64-bit write uses the key, the second finds the page locked. -/
theorem test_key_example :
    (after (.registerWrite { space := .regs, addr := 0x18070, size := 3, data := 0x1234567800000001, rid := 1 })
      { pwr := { stage := .run, intermission := false }
        fab := { hdr := ⟨[(6, { unlocked := true, seq := 0x41 })]⟩ } }).map
      (fun b => (b.reg 6 0x070, b.reg 6 0x074, b.readReg 1 6 .last 0x00C, b.readReg 1 6 .last 0x01C, b.fab.rsp.map PortRsp.err)) =
      some (1, 0, 0x42000400, 0x40740104, some false) := by decide +kernel

/-- "Start-up": the log entry of a context store error of VIF 5 in slot 3. -/
theorem test_ras_example :
    (after .rasReport
      { ras := { reports := [{ sev := 1, source := 2, owner := 6, index := 0x405 }], next := 3 }
        fab := { regs := ⟨[(regKey pgRAS 0x054, 3)]⟩ } }).map
      (fun b => (b.readReg 1 pgRAS .ras 0x060, b.readReg 1 pgRAS .ras 0x064, b.ras.next)) = some (0x309, 0x405, 4) := by decide +kernel

/-- "The Ringmaster": activating slot B, VERSION 0x0003_0002 below MIN_VER 0x0003_0004, without a grant gives NO_PRESENCE. -/
theorem test_downgrade_refused :
    (({ rm := { ready := true, heldBy := true, owner := 1, fwA := 0x30004, fwB := 0x30002, fwMin := 0x30004, data := ⟨[(0, 1)]⟩ } } : Block).mbxCmd
      1 5).rm.result = mbNoPresence := by decide +kernel

/-- "Ingress": the event word 0x0380_2C10 has DEVEVT 0x0_2C10 and LEN 56. -/
theorem test_event_word : (fld (0x03802C10 : Word) 19 0, (fld (0x03802C10 : Word) 25 20).toNat) = ((0x2C10 : Event), 56) := by decide

/-! ### An image that every check passes -/

/-- Bytes of a little-endian number at an offset. -/
def bytesAt (off n v : Nat) : List (Nat × Byte) := (leBytes n v).zipIdx.map fun p => (off + p.2, p.1)

/-- The header and directory of an image of instance 0 (Tables 4-1 and 4-2): seven sections one after the other, every byte of
them 0. -/
def zHdr : List (Nat × Byte) :=
  bytesAt 0 4 0x5453414C ++ bytesAt 4 2 1 ++ bytesAt 0x10 8 0x10A8340 ++ bytesAt 0x18 1 7 ++ bytesAt 0x28 1 8 ++
    bytesAt 0x40 1 1 ++ bytesAt 0x44 4 16384 ++ bytesAt 0x48 8 0x100 ++
    bytesAt 0x50 1 2 ++ bytesAt 0x54 4 16777216 ++ bytesAt 0x58 8 0x4100 ++
    bytesAt 0x60 1 3 ++ bytesAt 0x64 4 131072 ++ bytesAt 0x68 8 0x1004100 ++
    bytesAt 0x70 1 4 ++ bytesAt 0x74 4 262144 ++ bytesAt 0x78 8 0x1024100 ++
    bytesAt 0x80 1 5 ++ bytesAt 0x84 4 16384 ++ bytesAt 0x88 8 0x1064100 ++
    bytesAt 0x90 1 6 ++ bytesAt 0x94 4 576 ++ bytesAt 0x98 8 0x1068100 ++
    bytesAt 0xA0 1 7 ++ bytesAt 0xA4 4 262144 ++ bytesAt 0xA8 8 0x1068340

/-- The image with a CRC. -/
def zList (c : Word) : List (Nat × Byte) :=
  (0x1C, fld c 7 0) :: (0x1D, fld c 15 8) :: (0x1E, fld c 23 16) :: (0x1F, fld c 31 24) :: zHdr

def zImg (c : Word) : Img := imgOf (zList c)

theorem look_none (l : List (Nat × Byte)) (i : Nat) (h : ∀ p ∈ l, p.1 ≠ i) : Map.look l i = none := by
  induction l with
  | nil => rfl
  | cons x r ih =>
    obtain ⟨j, v⟩ := x
    simp only [Map.look, if_neg (h (j, v) (by simp))]
    exact ih fun p hp => h p (by simp [hp])

theorem zHdr_low : ∀ p ∈ zHdr, p.1 < 0x100 := by decide +kernel

theorem zImg_zero (c : Word) (i : Nat) (h : 0x100 ≤ i) : zImg c i = 0 := by
  have h0 : Map.look zHdr i = none := look_none _ _ fun p hp e => by have := zHdr_low p hp; omega
  simp [zImg, imgOf, zList, Map.look, h0, show ¬ 28 = i by omega, show ¬ 29 = i by omega, show ¬ 30 = i by omega, show ¬ 31 = i by omega]

theorem zImg_other (c d : Word) (i : Nat) (h : i < 0x1C ∨ 0x20 ≤ i) : zImg c i = zImg d i := by
  simp [zImg, imgOf, zList, Map.look, show ¬ 28 = i by omega, show ¬ 29 = i by omega, show ¬ 30 = i by omega, show ¬ 31 = i by omega]

theorem zImg_bytes (c d : Word) (off n : Nat) (h : off + n ≤ 0x1C ∨ 0x20 ≤ off) : (zImg c).bytes off n = (zImg d).bytes off n :=
  List.map_congr_left fun i hi => zImg_other c d _ (by have := List.mem_range.1 hi; omega)

theorem zImg_num (c d : Word) (off n : Nat) (h : off + n ≤ 0x1C ∨ 0x20 ≤ off) : (zImg c).num off n = (zImg d).num off n :=
  congrArg leNat (zImg_bytes c d off n h)

theorem zImg_total (c d : Word) : (zImg c).total = (zImg d).total := zImg_num c d _ _ (by decide)
theorem zImg_dirCount (c d : Word) : (zImg c).dirCount = (zImg d).dirCount := congrArg (· % 16) (zImg_num c d _ _ (by decide))
theorem zImg_inst (c d : Word) : (zImg c).inst = (zImg d).inst := congrArg (BitVec.ofNat 16) (zImg_num c d _ _ (by decide))
theorem zImg_srcOrder (c d : Word) : (zImg c).srcOrder = (zImg d).srcOrder := congrArg (· % 32) (zImg_num c d _ _ (by decide))

theorem zImg_dir (c d : Word) : (zImg c).dir = (zImg d).dir := by
  unfold Img.dir
  rw [zImg_dirCount c d]
  refine List.map_congr_left fun i _ => ?_
  rw [zImg_num c d _ 1 (by omega), zImg_num c d _ 4 (by omega), zImg_num c d _ 8 (by omega)]

theorem zImg_badSect (c d : Word) : (zImg c).badSect = (zImg d).badSect := by
  funext e
  unfold Img.badSect sectLen
  rw [zImg_total c d, zImg_dirCount c d, zImg_srcOrder c d]

theorem zImg_headErr (c : Word) : (zImg c).headErr 0 = none := by
  have h : (zImg 0).headErr 0 = none := by decide +kernel
  unfold Img.headErr at h ⊢
  rw [zImg_total c 0, zImg_dirCount c 0, zImg_srcOrder c 0, zImg_inst c 0,
    zImg_num c 0 0 4 (by decide), zImg_num c 0 4 2 (by decide), zImg_num c 0 0xC 1 (by decide), zImg_num c 0 0x24 2 (by decide)]
  exact h

theorem zImg_dirErr (c : Word) : (zImg c).dirErr = none := by
  have h : (zImg 0).dirErr = none := by decide +kernel
  unfold Img.dirErr at h ⊢
  rw [zImg_dir c 0, zImg_badSect c 0]
  exact h

theorem zImg_sect (c : Word) (i : Nat) (hi : i = 3 ∨ i = 4 ∨ i = 5 ∨ i = 6 ∨ i = 7) : 0x100 ≤ (zImg c).sect i := by
  have e : (zImg c).sect i = (zImg 0).sect i := by unfold Img.sect; rw [zImg_dir c 0]
  rw [e]
  rcases hi with rfl | rfl | rfl | rfl | rfl <;> decide +kernel

theorem zImg_zeros (c : Word) (off n : Nat) (h : 0x100 ≤ off) : (zImg c).bytes off n = List.replicate n 0 := by
  unfold Img.bytes
  rw [List.eq_replicate_iff]
  refine ⟨by simp, fun b hb => ?_⟩
  obtain ⟨i, -, rfl⟩ := List.mem_map.1 hb
  exact zImg_zero c _ (by omega)

theorem zImg_rte (c : Word) (k : Nat) : (zImg c).rte k = {} := by
  unfold Img.rte
  rw [zImg_zeros c _ _ (by have := zImg_sect c 3 (by simp); omega)]
  decide +kernel

theorem zImg_ring (c : Word) (r : Nat) : (zImg c).ring r = {} := by
  unfold Img.ring
  rw [zImg_zeros c _ _ (by have := zImg_sect c 7 (by simp); omega)]
  decide +kernel

theorem zImg_setCount (c : Word) (s : Nat) : (zImg c).setCount s = 0 := by
  unfold Img.setCount
  rw [zImg_zero c _ (by have := zImg_sect c 4 (by simp); omega)]; rfl

theorem zImg_inr (c : Word) (i : Nat) : ((zImg c).inr i).valid = false := by
  unfold Img.inr
  rw [zImg_zero c _ (by have := zImg_sect c 6 (by simp); omega)]; decide

theorem filterMap_none {α : Type} (l : List Nat) (f : Nat → Option α) (h : ∀ i, f i = none) : l.filterMap f = [] := by
  induction l <;> simp [*]

theorem zImg_fieldErr (c : Word) : (zImg c).fieldErr = none := by
  unfold Img.fieldErr
  rw [filterMap_none _ _ fun k => ?_, filterMap_none _ _ fun k => ?_, filterMap_none _ _ fun k => ?_, filterMap_none _ _ fun k => ?_]
  · rfl
  · simp only [Img.inrErr, zImg_inr]; rfl
  · simp only [Img.ringErr, zImg_ring]; rfl
  · simp only [Img.mcsErr, zImg_setCount]; rfl
  · simp [Img.rteErr, zImg_rte]

theorem zImg_coalBad (c : Word) (r : Nat) : (zImg c).coalBad r = false := by
  unfold Img.coalBad
  simp [zImg_rte, zImg_ring]

theorem zImg_crossErr (c : Word) : (zImg c).crossErr = none := by
  unfold Img.crossErr
  simp [zImg_rte, zImg_coalBad]

theorem zImg_crc (c d : Word) : (zImg c).crc = (zImg d).crc := by
  unfold Img.crc
  rw [zImg_total c d]
  refine congrArg crc32c (List.map_congr_left fun i _ => ?_)
  by_cases h : 0x1C ≤ i ∧ i < 0x20
  · rw [if_pos h, if_pos h]
  · rw [if_neg h, if_neg h]; exact zImg_other c d i (by omega)

theorem zImg_crcField (c : Word) : (BitVec.ofNat 32 ((zImg c).num 0x1C 4) : Word) = c := by
  have h : (zImg c).num 0x1C 4 = (fld c 7 0).toNat + 256 * ((fld c 15 8).toNat + 256 * ((fld c 23 16).toNat + 256 * ((fld c 31 24).toNat + 256 * 0))) := rfl
  rw [h]
  apply BitVec.eq_of_toNat_eq
  simp [fld, BitVec.extractLsb'_toNat, Nat.shiftRight_eq_div_pow]
  have := c.isLt
  omega

/-- The CRC of the image. -/
def zCrc : Word := (zImg 0).crc

theorem zImg_early (c : Word) : (zImg c).early 0 = none := by
  unfold Img.early
  rw [zImg_headErr, zImg_dirErr, zImg_fieldErr]
  rfl

theorem lines1_none (g : Img) (inst : BitVec 16) (h : g.early inst = none) : g.lines1 inst = g.total / 64 := by
  unfold Img.lines1; rw [h]

theorem zImg_lines1 (c : Word) : (zImg c).lines1 0 = 272909 := by
  have h : (zImg 0).total / 64 = 272909 := by decide +kernel
  rw [lines1_none _ _ (zImg_early c), zImg_total c 0, h]

theorem zImg_valid : (zImg zCrc).check 0 none = none := by
  unfold Img.check
  simp only [zImg_early, zImg_crossErr, zImg_crcField]
  rw [zImg_crc zCrc 0]
  simp [zCrc]
/-! ### Witnesses: what a statement asks is met by these states and operands -/

/-- A running data plane with nothing in it. -/
def runB : Block := { pwr := { stage := .run, intermission := false } }
/-- A running block. -/
def run0 : State := { blk := runB }
/-- A state with a block. -/
def ofBlk (b : Block) : State := { blk := b }
/-- A register write under identity 1. -/
def wr (d : Word) : RegAcc := { rid := 1, als := .base, data := d }
/-- A context of the PMF with nothing in it. -/
def ctx0 : Ctx := {}
def ent (ev : Event) (p : Prio) : Entry := { pevent := ev, prio := p, cls := 0, vevent := ev }
def win0 : Window := { window := 5, count := 0, bypPrio := 0, bypEn := false, deadline := 700, key := 3, far := false, n := 1, best := 9 }
def rec0 : Rec := { vevent := 0x42003, prio := 9, type := 1, gt := 5 }
def goodK : XCheck := { checked := true, passes := 4, prev := some 8192, cref := 8192 }
def lc0 : Block := { runB with fab := { regs := ⟨[(regKey 0x18 0x40, 0xFF), (regKey 0x18 0x50, 0xF0)]⟩ } }
def lcS : State := ofBlk { lc0 with col := ⟨[(0, { sync := 0x21, sample := [5], raise := 0x3, scan := 1 })]⟩ }
def pdS : State := ofBlk { runB with pwr := { stage := .asleep }, col := ⟨[(2, { pd0En := 0xF, latchOn := true })]⟩ }
def pdT : State := ofBlk { lc0 with pwr := { stage := .opening, cause := 1 }, col := ⟨[(0, { pd0En := 0xF, pd0 := 0x2, latchOn := true, woke := true })]⟩ }
def lcK : State := ofBlk (lcS.blk.setHdr 0x18 { unlocked := true })
def beat0 : Beat := { addr := 0, be := 0x0F, data := 0x42003, tag := 7 }
def beatL : Beat := { addr := 0x40, be := 0xFF, data := 0x11223344_00242003, tag := 7 }
def rspS : State := ofBlk { runB with stn := ⟨[(2, { rsps := [⟨1, 4, 1, none⟩, ⟨2, 5, 2, some 1⟩, ⟨3, 5, 1, none⟩] })]⟩ }
def darkS : State := ofBlk { runB with pwr := { stage := .fio } }
def msg0 : Item := { kind := .message, src := .tag 7, tag := 7, devevt := 0x42003, beats := 1, tok := 4 }
def wire0 : Item := { kind := .wired, src := .line 0x81, pevent := 0x81 }
def lookS : State := ofBlk { runB with stn := ⟨[(2, { intake := [msg0], wired := some wire0, rsps := [⟨4, 5, 1, none⟩] })]⟩, last := { a := { basic := some { ctl := 3 } } } }
def stnK (inv : Option InvOp) : State := ofBlk { runB with fab := { regs := ⟨[(regKey 0x10 0x48, 9)]⟩, hdr := ⟨[(0x10, { unlocked := true })]⟩ }, stn := ⟨[(0, { inv, sets := ⟨[(3, { ways := ⟨[(0, (.src 7 0x42003, .src 5))]⟩ })]⟩ })]⟩ }
def inv0 : InvOp := { scope := 3, arg := 0 }
def addr0 : SegAddr := { seg := 2, off := 0x40 }
def fill0 : Fill := { addr := addr0, phase := .issued 0x1040 false false }
def fillS : State := ofBlk { runB with fab := { regs := ⟨[(regKey 0x12 0x40, 0)]⟩ }, stn := ⟨[(2, { fills := [fill0], parked := [{ item := wire0, on := .fill addr0 }] })]⟩, tu := { ns := 4000 }, clk := { gt := 4000 } }
def refS : State := ofBlk { runB with stn := ⟨[(2, { refreshes := [fill0] })]⟩ }
def arr0 : EvaAttr := { vevent := 0x42003, prio := 9, type := 1, cls := 5, owner := 0 }
def it0 : Item := { kind := .message, src := .tag 7, tag := 7, devevt := 0x42003, pevent := 0x42003, beats := 1, tok := 4 }
def admB (p : Pend) : State := ofBlk { runB with stn := ⟨[(2, { outq := ⟨[(3, [(it0, arr0)])]⟩ })]⟩, pend := if p = {} then ⟨[]⟩ else ⟨[(0x42003, p)]⟩ }
def avl0 : Arrival := { ev := 0x42003, attr := arr0, src := .tag 7, gt := 100 }
def rtB (r : Rte) : State := ofBlk { runB with eng := ⟨[(3, { inq := [avl0, avl0] })]⟩, pend := ⟨[(0x42003, { p := true, fl := some { merge := 3 } })]⟩, last := { a := { rte := if r = {} then ⟨[]⟩ else ⟨[(5, r)]⟩, inst := 1, inrGroup := ⟨[(1, { port := 2, valid := true })]⟩ } }, jp := ⟨[(2, { up := true })]⟩ }
def mci0 : McItem := { arr := avl0, rte := { kind := 2, set := 1 }, phase := some (.issued 0 true true), got := 1, need := 2 }
def setBytes : List Byte := [2] ++ List.replicate 0x3F 0 ++ [0x23, 0x01, 0x24, 0x01]
def mcB : State := ofBlk { runB with eng := ⟨[(3, { mcq := [mci0] })]⟩, pend := ⟨[(0x42003, { p := true, fl := some { merge := 3 } })]⟩, otherFills := 1 }
def insB : State := ofBlk { runB with cb := ⟨[(3, { in16 := [.ins { ctx := 0x123, entry := ent 5 9 }] })]⟩, ctx := ⟨[(0x123, { shortlist := [ent 1 3, ent 2 9, ent 3 10] })]⟩ }
def insM : State := ofBlk { runB with cb := ⟨[(3, { in16 := [.ins { ctx := 0x123, entry := ent 2 9 }] })]⟩, ctx := ⟨[(0x123, { shortlist := [ent 1 3, ent 2 9, ent 3 10] })]⟩ }
def spl0 : Spill := { ctx := 0x123, entry := ent 2 9, ins := some { ctx := 0x123, entry := ent 2 9, wakes := false }, ph := .entryRead (.issued 0 true true) }
def splB : State := ofBlk { runB with cb := ⟨[(3, { spills := [spl0] })]⟩, otherFills := 1, wr := ⟨[(3, { out := [{ kind := .spill 0x123, pa := 0, bytes := [], dev := false, tag := {} }] })]⟩ }
def tabBytes : List Byte := List.replicate 7 0 ++ [0x80] ++ List.replicate 8 0
def spl1 : Spill := { ctx := 0x123, entry := ent 2 9, known := some (1, 0x10, 0), ph := .descRead (.issued 0 true true) }
def pushB : State := ofBlk { runB with cb := ⟨[(3, { spills := [spl1] })]⟩, otherFills := 1, xl := { segs := ⟨[(1, { valid := true, limit := 0x100 })]⟩, tlb := ⟨[(0x11, [{ seg := 1, vpn := 0x10, ppn := 0x55, r := true, w := true, u := false, s := true, dev := false }])]⟩ } }
def rfl0 : Ctx := { shortlist := [ent 1 3], spillMap := 0x200, spillSeg := 1, spillPage := 0x10, refill := some { prio := 9, phase := .issued 0 true true, tag := {} } }
def refB : State := ofBlk { pushB.blk with cb := .empty, otherFills := 4, ctx := ⟨[(0x123, rfl0)]⟩ }
def bktBytes : List Byte := descBytes 14 2 ++ leBytes 16 (entryBits (ent 7 9)).toNat ++ List.replicate (13 * 16) 0 ++ leBytes 16 (entryBits (ent 6 9)).toNat
def reS : State := ofBlk { runB with fab := { regs := ⟨[(regKey 0x2B 0x50, 0x42003)]⟩, hdr := ⟨[(0x2B, { unlocked := true })]⟩ }, ctx := ⟨[(0x123, ctx0)]⟩, cb := ⟨[(3, { filter := ⟨[(1, 2)]⟩ })]⟩ }
def reH : State := ofBlk { reS.blk with pend := ⟨[(0x42003, { p := true, m := true })]⟩ }
def reF : State := ofBlk { reS.blk with stn := ⟨[(3, { reentry := List.replicate 16 { kind := .reentry, src := .self 0x42003, pevent := 0x42003 } })]⟩ }
def reG : State := ofBlk { reS.blk with last := { paused := true } }
def act1 : Act := { pevent := 0x42003, vevent := 0x42003, prio := 8, banked := false }
def act2 : Act := { pevent := 0x800, vevent := 0x800, prio := 20, banked := true, dropped := true }
def cxD : Ctx := { shortlist := [ent 0x42005 3, ent 2 9], dirty := true, seat := some 10, lastSent := some 0, stack := [act2, act1], runp := 8, tdlHi := 1 }
def thS (z : Seat) (x : Ctx) : State := ofBlk { runB with up := [1], ctx := ⟨[(0x123, x)]⟩, seat := ⟨[(10, z)]⟩, cb := ⟨[(3, { notes := if z.req.isSome then [10] else [] })]⟩, tu := { ns := 2000000 }, clk := { gt := 2000000 } }
def seat0 : Seat := { ctx := some 0x123, nnum := 15 }
def cxE : Ctx := { cxD with shortlist := [], stack := [] }
def seatO : Seat := { seat0 with out := true }
def seatR (r : SeatReq) : Seat := { seatO with req := some (r, 15) }
def slS (m : List SliceMsg) (z : Seat) : State := ofBlk { runB with up := [1], seat := ⟨[(10, z)]⟩, thr := ⟨[(5, { trk := true, notifCh := m, up := [.confirm false 3 false], sent := some (.notify false .H 3 9) })]⟩ }
def rsp0 : Resp := { tag := 0, data := 0x42003, ack := some (false, some 3) }
def ackS : State := ofBlk { runB with up := [1], seat := ⟨[(10, { covered := 1, line := some (.H, 3) })]⟩, thr := ⟨[(5, { respCh := [rsp0], acks := [false] })]⟩ }
def cfS : State := ofBlk { (slS [] seat0).blk with ctx := ⟨[(0x123, { ctx0 with seat := some 10 })]⟩ }
def opA : TifOp := { thread := 5, win := .host, via := .absolute 1 }
def opH : TifOp := { thread := 5, win := .host, via := .self 2 }
def ackC : Ctx := { cxD with shortlist := [ent 0x42005 3, ent 2 9], stack := [act2] }
def ackX (x : Ctx) : State := thS seatO x
def spC : Ctx := { cxD with joined := false }
def bkC : Ctx := { cxD with stack := [{ act2 with dropped := false }] }
def utC : Ctx := { cxD with shortlist := [ent 1 3, { ent 2 9 with cls := 2 }] }
def ipC : Ctx := { cxD with owner := 3, seat := some 11 }
def ipS : State := ofBlk { runB with up := [1], ctx := ⟨[(0x123, ipC)]⟩, seat := ⟨[(11, seat0)]⟩, vif := ⟨[(2, { ctxBase := 0x100, ctxCount := 0x24 })]⟩ }
def opG : TifOp := { thread := 5, win := .guest, via := .self 1 }
def csgB : Block := { runB with fab := { regs := ⟨[(regKey 0x40 0x40, 0x123)]⟩, hdr := ⟨[(0x40, { unlocked := true })]⟩ } }
def pinC : Ctx := { ctx0 with pinned := true }
def seatS : State := ofBlk { csgB with ctx := ⟨[(0x123, pinC)]⟩ }
def unseatC : Ctx := { pinC with seat := some 10 }
def unseatS : State := ofBlk { csgB with ctx := ⟨[(0x123, unseatC)]⟩, seat := ⟨[(10, { ctx := some 0x123, out := true, nnum := 3 })]⟩ }
def handS : State := ofBlk { csgB with ctx := ⟨[(0x123, { pinC with moving := true, tarm := true, tdl := 5000 })]⟩, csg := ⟨[(1, { busy := true, target := some 15, ctx := 0x123 })]⟩ }
def loadB : Block := { csgB with fab := { regs := ⟨[(regKey 0x2B 0x40, 0x101), (regKey 0x40 0x40, 0x123)]⟩, hdr := ⟨[(0x40, { unlocked := true })]⟩ }, xl := { segs := ⟨[(1, { valid := true, limit := 0x100 })]⟩, tlb := ⟨[(0x0, [{ seg := 1, vpn := 0x1, ppn := 0x55, r := true, w := true, u := false, s := true, dev := false }]), (0x1, [{ seg := 1, vpn := 0x0, ppn := 0x55, r := true, w := true, u := false, s := true, dev := false }])]⟩ } }
def loadW : State := ofBlk { loadB with wr := ⟨[(3, { out := [{ kind := .wb 0x123, pa := 0, bytes := [], dev := false, tag := {} }] })]⟩ }
def ldE : LoadOp := { page := 0, seat := none, ph := .entry (.issued 0 true true) }
def ldD : LoadOp := { page := 0, seat := none, ph := .descs, entry := List.replicate 0x47 0 ++ [0x80] ++ List.replicate 8 0, slot := 7, next := 64, descs := [(63, .issued 0 true true)], got := (List.range 63).map fun j => (j, .ok []) }
def ldS (l : LoadOp) : State := ofBlk { loadB with loads := ⟨[(0x123, l)]⟩, csg := ⟨[(0, { busy := true, ctx := 0x123 })]⟩, otherFills := 2, cb := ⟨[(3, { filter := ⟨[(0x12, 0)]⟩ })]⟩ }
def unlS : State := ofBlk { loadB with ctx := ⟨[(0x123, ctx0)]⟩ }
def accS : State := ofBlk { runB with wr := ⟨[(3, { out := [{ kind := .spill 0x123, pa := 0, bytes := [], dev := false, tag := {} }] })]⟩, cb := ⟨[(3, { spills := [{ ctx := 0x123, entry := ent 1 2, ph := .written 1 }] })]⟩ }
def accW : Spill := { ctx := 0x123, entry := ent 1 2, ph := .written 1 }
def accM : MemWrite := { kind := .spill 0x123, pa := 0, bytes := [], dev := false, tag := {} }
def accL : State := ofBlk { loadB with wr := ⟨[(3, { out := [accM] })]⟩, cb := ⟨[(3, { spills := [accW] })]⟩, leave := ⟨[(0x123, { x := ctx0, why := .unload 0 })]⟩, csg := ⟨[(0, { busy := true, ctx := 0x123 })]⟩ }
def tmS (x : Ctx) (t : Gt) : State := ofBlk { runB with ctx := ⟨[(0x123, x)]⟩, tu := { ns := t }, clk := { mhz := 1600, gt := t } }
def bdS : State := ofBlk { runB with tu := { ns := 260 }, clk := { gt := 260 }, fab := { regs := ⟨[(regKey 5 0x50, 7)]⟩ }, car := { slots := ⟨[(1, 0x80090123)]⟩ } }
def bdX : State := ofBlk { bdS.blk with car := { slots := ⟨[(1, 0x80890123)]⟩ } }
def rvS : State := ofBlk { bdS.blk with tu := { ns := 1024000 }, clk := { gt := 1024000 }, car := { shadow := ⟨[(1, 0x80090123)]⟩, incomplete := true }, last := { activity := .commitPend, inactive := .staged } }
def ptS : State := ofBlk { bdS.blk with fab := { regs := ⟨[(regKey 5 0x40, 100)]⟩ }, tu := { ns := 409600 }, clk := { gt := 409600 }, car := { pend := true, takeAt := 409600 } }
def carS : State := ofBlk { runB with tu := { ns := 5 }, fab := { regs := ⟨[(regKey 5 0x48, 0x10FFF)]⟩, hdr := ⟨[(5, { unlocked := true, level := true })]⟩ }, ras := { badSlots := [3, 0xFFF] } }
def carW : State := ofBlk { carS.blk with car := { windows := ⟨[(5, win0), (9, win0)]⟩ } }
def tuS : State := ofBlk { runB with tu := { ns := 5, gtStopped := true, runs := true }, clk := { lockT := true }, fab := { regs := ⟨[(regKey 4 0x58, 0x20), (regKey 4 0x60, 0xFFFF)]⟩, hdr := ⟨[(4, { unlocked := true })]⟩ } }
def tkS : State := ofBlk { runB with tu := { ns := 1000000001, runs := true, valid := true, badRevs := 8 }, fab := { regs := ⟨[(regKey 4 0x40, 2), (regKey 4 0x80, 0x7C01)]⟩ } }
def bkS : State := ofBlk { tkS.blk with tu := { tkS.blk.tu with onBkp := true } }
def lastR (r : Rte) : Last := { a := { rte := ⟨[(5, r)]⟩, ring := ⟨[(6, { base := 0x10, order := 4, seg := 1, link := 5 })]⟩ } }
def lk0 : Rte := { kind := 1, coalWindow := 3 }
def ringB : Block := { runB with last := lastR lk0, fab := { regs := ⟨[(regKey 5 0x50, 3), (regKey 8 0x48, 6)]⟩, hdr := ⟨[(8, { unlocked := true })]⟩ } }
def riS : State := ofBlk { ringB with eng := ⟨[(3, { recq := ⟨[(2, [{ ring := 6, rcd := rec0, tok := some 4 }])]⟩ })]⟩ }
def stg0 : Staged := { ring := 6, owner := 0, rcd := rec0 }
def stgQ : Staged := { ring := 2, owner := 0, rcd := rec0 }
def stgX : Staged := { ring := 2, owner := 0, rcd := rec0, ph := .staged }
def raS (co : Bool) (g : Ring) : State := ofBlk { ringB with fab := { regs := if co then ⟨[(regKey 8 0x48, 6)]⟩ else ringB.fab.regs }, wr := ⟨[(2, { recs := [stgX, stg0, stg0] })]⟩, ring := ⟨[(6, g)]⟩ }
def stgR : Staged := { stg0 with idx := 3, ph := .ready 0x1000 false }
def rwS : State := ofBlk { ringB with wr := ⟨[(2, { recs := [stgQ, stgR] })]⟩, ring := ⟨[(6, { pi := 4 })]⟩ }
def mw0 : MemWrite := { kind := .records 6 1, pa := 0x1000, bytes := [], dev := false, tag := {} }
def waS : State := ofBlk { ringB with wr := ⟨[(2, { recs := [stgX, { stg0 with ph := .issued }], out := [mw0] })]⟩ }
def ixS : State := ofBlk { ringB with ring := ⟨[(6, { pi := 4, pub := 1, tgtPend := true, tgtDelta := 3, tgtGt := 9 })]⟩, xl := { segs := ⟨[(1, { valid := true, limit := 0x100 })]⟩, tlb := ⟨[(0x11, [{ seg := 1, vpn := 0x10, ppn := 0x55, r := true, w := true, u := false, s := true, dev := false }])]⟩ } }
def mwI : MemWrite := { kind := .index 6 4, pa := 0x1000, bytes := [], dev := false, tag := {} }
def iaS : State := ofBlk { ixS.blk with idxFly := ⟨[(6, mwI)]⟩ }
def ciS : State := ofBlk { ringB with ring := ⟨[(6, { pi := 24, pub := 21, ci := 10, faulted := true })]⟩ }
def rwU : State := ofBlk { rwS.blk with fab := ringB.fab }
def wxS : State := ofBlk { ringB with last := lastR { kind := 0 }, car := { n := 3, windows := ⟨[(6, win0)]⟩ }, ring := ⟨[(6, { pi := 24, pub := 21 })]⟩ }
def vmF (v : Word) (a : List (Nat × Word)) : Fabric := { regs := ⟨(regKey 9 0x40, v) :: a⟩, hdr := ⟨[(9, { unlocked := true })]⟩ }
def vmS (x : Vif) (a0 a1 a2 : Word) : State := ofBlk { runB with fab := vmF 2 [(regKey 9 0x44, a0), (regKey 9 0x48, a1), (regKey 9 0x4C, a2)], vif := ⟨[(2, x)]⟩, last := { a := { ring := ⟨[(6, { order := 4, owner := 3 }), (7, { order := 4, owner := 3 })]⟩ } } }
def vifA : Vif := { state := .active, gen := 5, ringBase := 6, ringCount := 2 }
def vpS : State := ofBlk { (vmS vifA 0 0 0).blk with ctx := ⟨[(0x123, { owner := 3 }), (0x124, {}), (0x125, { owner := 3, seat := some 11 })]⟩, seat := ⟨[(11, { ctx := some 0x125 })]⟩, wr := ⟨[(2, { recs := [{ ring := 6, owner := 3, rcd := rec0 }, { ring := 6, owner := 3, rcd := rec0, ph := .issued }, { ring := 6, owner := 0, rcd := rec0 }] })]⟩ }
def vqS (x : Vif) : State := ofBlk { (vmS x 0 0 0).blk with vm := { busy := true, vif := 2 }, ring := ⟨[(6, { pi := 5 })]⟩, car := { windows := ⟨[(6, win0)]⟩ } }
def vdS : State := ofBlk { (vmS { vifA with dlEn := true, dlCh := 4 } 0 0 0).blk with vm := { ch := ⟨[(4, { inUse := true, vif := 2, pi := 7 })]⟩, filter := ⟨[(3, [(2, 1, 5), (9, 1, 5)])]⟩ }, ring := ⟨[(6, { pi := 5 })]⟩, car := { windows := ⟨[(6, win0)]⟩ } }
def vd2 : State := ofBlk { vdS.blk with vif := ⟨[(2, { vifA with draining := true, drainRings := [(6, 5)] })]⟩, ring := ⟨[(6, { pub := 5 })]⟩, vm := { ch := ⟨[(4, { inUse := true, vif := 2, harvest := true })]⟩ } }
def dsS : State := ofBlk { (vmS vifA 4 0 0).blk with vm := { ch := ⟨[(4, { cfg := 0xA03, baseLo := 0x5000, threshReg := 9 })]⟩ } }
def chS : State := ofBlk { runB with vm := { ch := ⟨[(4, { inUse := true, vif := 2, stopping := true, pi := 9, ci := 3 })]⟩ }, fab := { regs := ⟨[(regKey 9 0x80, 4)]⟩ } }
def vgS : State := ofBlk { (vmS { vifA with noteEn := true, noteCtx := 0x123 } 0 0 0).blk with ring := ⟨[(7, { pub := 9, ci := 5 })]⟩ }
def lastF (level : Bool) : Fabric := { regs := ⟨[(regKey 6 0x44, 3), (regKey 6 0x48, 0x5000), (regKey 6 0x100, 2), (regKey 6 0x104, 5)]⟩, hdr := ⟨[(6, { unlocked := true, level })]⟩ }
def lastS (level : Bool) (l : Last) : State := ofBlk { runB with fab := lastF level, last := l, rm := { ready := true } }
def loadX (tlb : Map (List TlbEnt)) (v : Bool) : State := ofBlk { (lastS true {}).blk with xl := { segs := ⟨[(3, { valid := v, limit := 0x100 })]⟩, tlb } }
def loadT : Map (List TlbEnt) := ⟨[(6, [{ seg := 3, vpn := 5, ppn := 0x55, r := true, w := false, u := false, s := true, dev := false }])]⟩
def p1S (n : Nat) : State := ofBlk { (lastS true { activity := .pass1, load := { pos := n, phase := some (.issued 0 false true) } }).blk with otherFills := 1 }
def p2S (c : Word) (n : Nat) : State := ofBlk { (lastS true { activity := .pass2, load := { partCrc := c, pos := n, phase := some (.issued 0 false true) } }).blk with otherFills := 1 }
def zPart : Word := (imgOf []).partCrc (imgOf [])
theorem zDie : (imgOf []).onDie = [(0, 131072), (0, 16384), (0, 576), (0, 262144)] := by
  unfold Img.onDie
  exact List.mergeSort_of_pairwise (by decide +kernel)
theorem p2_bad : Block.badLine { (p2S 1 0).blk with last := { (p2S 1 0).blk.last with load := { (p2S 1 0).blk.last.load with data := some ⟨[], some 0⟩ } } } ⟨[], some 0⟩ = some 0 := by
  have h : lineOf2 (imgOf []).onDie 0 = 0 := by rw [zDie]; rfl
  show Option.filter (fun s => decide (lineOf2 (imgOf []).onDie 0 ≤ s) && decide (s < lineOf2 (imgOf []).onDie 0 + 1)) (some 0) = some 0
  rw [h]; rfl
def bldS : State := lastS false { activity := .pass2, load := { build := true }, b := { basic := some { ctl := 2, msg := 5 } } }
def flipS : State := lastS true { activity := .commitPend, inactive := .staged, paused := true, refValid := true }
def setlS (m : Map RingCfg) : State := lastS true { changed := m, settled := false }
def setlW : State := ofBlk { (setlS ⟨[(6, {})]⟩).blk with car := { windows := ⟨[(6, win0)]⟩ } }
def p1R : ImgRead := ⟨zList zCrc, none⟩
def p1B : Block := { (p1S 272908).blk with last := { (p1S 272908).blk.last with load := { (p1S 272908).blk.last.load with data := some p1R } } }
theorem p1S_inst : (p1S 272908).blk.inst = 0 := by decide +kernel
theorem p1B_inst : p1B.inst = 0 := by decide +kernel
theorem pass1_lines (b : Block) (h : b.last.activity = .pass1) (d : b.last.load.data.isSome = true) : b.loadLines = b.loadImg.lines1 b.inst := by unfold Block.loadLines; rw [if_pos h, if_pos d]
theorem p1B_lines : p1B.loadLines = 272909 := (pass1_lines p1B rfl rfl).trans (by rw [p1B_inst]; exact zImg_lines1 zCrc)
theorem p1B_bad : p1B.badLine p1R = none := rfl
def tlb0 : TlbEnt := { seg := 1, vpn := 0x1, ppn := 0x55, r := true, w := true, u := false, s := true, dev := false }
def tlb1 : TlbEnt := { tlb0 with seg := 2, unused := true }
def xuB (x : Xlate) : State := ofBlk { runB with fab := { regs := ⟨[(regKey 7 0x54, 2), (regKey 7 0x5C, 1), (regKey 7 0x68, 0x100), (regKey 7 0x70, 0x77)]⟩, hdr := ⟨[(7, { unlocked := true })]⟩ }, xl := { x with tlb := ⟨[(0, [tlb0, tlb1]), (3, [tlb1])]⟩ } }
def wlk : Walker := { seg := 5, va := 0x123456789000, level := 2, table := 0x44, dev := false, waiting := [{ seg := 5, off := 0x56789000, op := 3, cont := .loader }] }
def xuS : State := xuB { walkers := ⟨[(4, wlk)]⟩, segs := ⟨[(2, { valid := true, base := 0x9, limit := 4, root := 0x88 }), (5, { valid := true, limit := 0xFFFFFFFFF, root := 0x99 })]⟩ }
def xuBusy : State := xuB { inv := some { walks := [], held := {} } }
def req0 : XReq := { seg := 5, off := 0x3000, op := 0, cont := .fill 1 ⟨5, 0x3000⟩ }
def wsS : State := xuB { xuS.blk.xl with waitq := [req0, { req0 with off := 0x4000 }, { req0 with off := 0x3040 }] }
def xuDev : State := ofBlk (xuS.blk.setReg 7 0xA0 0xABC040)
def leafS (q : List XReq) (n : Bool) : State := xuB { xuS.blk.xl with walkers := ⟨[(4, { wlk with level := 1, waiting := q, noInstall := n })]⟩ }
def rep0 : Report := { gt := 5, seg := 2, off := 0x1000, cause := 3, op := 4, owner := 3, level := 2, obj := 7 }
def repS : State := ofBlk { (xuB { reports := [rep0, rep0], flogNext := 63 }).blk with vif := ⟨[(2, { state := .active })]⟩, fab := { regs := ⟨[(regKey 7 0x78, 0x8006), (regKey 7 0x7C, 0x451234)]⟩ }, last := { a := { ring := ⟨[(6, { order := 4 })]⟩ } } }
def repQ : State := ofBlk { repS.blk with fab := { regs := ⟨[(regKey 7 0x78, 0x8006)]⟩ } }
def repW : State := ofBlk { repS.blk with ctx := ⟨[(0x124, ctx0)]⟩, cb := ⟨[(4, { car17 := [.ins { ctx := 0x124, entry := ent 1 2 }] })]⟩, ages := ⟨[(2321, 5)]⟩ }
def frm0 : Frame := { dest := 0xA02, origin := 0xA07, oeng := 3, hops := 1, revent := 0x42003, merge := 4 }
def jlB (j : JPort) : Block := { runB with fab := { instSet := true, regs := ⟨[(regKey 0 0x48, 0xA02), (regKey 11 0x40, 0x80800), (regKey 10 0xA0, 1), (regKey 10 0x40, 0x80100)]⟩, hdr := ⟨[(10, { unlocked := true })]⟩ }, jp := ⟨[(1, j), (2, { up := true, cred0 := 3 })]⟩, clk := { dclk := 5000 }, last := { a := { inrMember := ⟨[(7, { port := 2, valid := true })]⟩ } } }
def jlS (j : JPort) : State := ofBlk (jlB j)
def jUp : JPort := { up := true, helloSent := true, helloGot := true }
def heldS : State := ofBlk { jlB { jUp with rx1 := [frm0] } with pend := ⟨[(0x42003, { m := true })]⟩ }
def frmT : Frame := { frm0 with dest := 0xA07 }
def timeF : List (BitVec 128) := [3 ||| at' (1 : BitVec 2) 5 ||| at' (3 : BitVec 2) 8 ||| at' (200 : Gt) 64, at' (100 : Gt) 0 ||| at' (150 : Gt) 64]
def timeJ : State := ofBlk { jlB jUp with fab := { (jlB jUp).fab with regs := ⟨[(regKey 0 0x48, 0xA02), (regKey 4 0x40, 0xA), (regKey 10 0xA0, 1)]⟩ }, tu := { ns := 300 }, car := { cur := 250 } }
def ctlF (op : BitVec 4) : List (BitVec 128) := [4 ||| at' op 8]
def helloF (n : BitVec 16) : List (BitVec 128) := [4 ||| at' (1 : BitVec 4) 8 ||| at' n 16 ||| at' (192 : BitVec 8) 32 ||| at' (64 : BitVec 7) 40]
def txB (l : Lanes) (j : JPort) : Block := { jlB j with eng := ⟨[(3, { lanes := ⟨[(1, l)]⟩ })]⟩ }
def txL : Lanes := { vc0 := [{ fr := frmT, since := 20 }, { fr := frmT, since := 50 }], pin := [{ fr := { frmT with pin := true }, since := 9 }], vc1 := [{ fr := { frmT with vc := true }, since := 10 }] }
def txS : State := ofBlk (txB txL { jUp with cred0 := 4, cred1 := 2 })
def txE : State := ofBlk { txB { vc0 := [{ fr := frmT, since := 20, escaped := true }] } { jUp with cred1 := 2 } with pend := ⟨[]⟩ }
def txO : State := ofBlk { txB { vc1 := [{ fr := frmT, since := 20, local? := some 0x42003 }] } { jUp with cred1 := 2 } with pend := ⟨[(0x42003, { p := true, fl := some { merge := 9 } })]⟩ }
def escL : Lanes := { vc0 := [{ fr := frmT, since := 20, dry := 256 }, { fr := frmT, since := 50 }] }
def escS : State := ofBlk (txB escL jUp)
def wakS : State := ofBlk { txB txL { jUp with cred0 := 4, peerAsleep := true, lastWake := 1000 } with tu := { ns := 17000 }, clk := { gt := 17000 } }
def dnS : State := ofBlk { txB { txL with vc0 := [{ fr := frmT, local? := some 0x42003 }] } { jUp with rx0 := [frm0], cred0 := 3, theta := 5, peer := 0xA07 } with pend := ⟨[(0x42003, { p := true, fl := some {} })]⟩ }
def acc (addr : BitVec 24) (size : BitVec 2) (data : BitVec 64) (rid : BitVec 5) : Access := { space := .regs, addr, size, data, rid }
def fabS (f : Fabric) : State := ofBlk { runB with fab := f }
def postS : State := fabS { posted := ⟨[(2, { id := 1, al := .base, off := 0x4C, val := 800, defer := false, old := false })]⟩, hdr := ⟨[(2, { unlocked := true })]⟩ }
def disS : State := fabS { hdr := ⟨[(6, { enable := false })]⟩ }
def defS : State := fabS { hdr := ⟨[(6, { apply := true }), (4, { apply := true, unlocked := true })]⟩ }
def slpS : State := ofBlk { pwr := { stage := .asleep } }
def seqS : State := fabS { hdr := ⟨[(6, { flags := 0x13, seq := 5, err := true, errBits := 4, even := 0x200 })]⟩ }
def postD : State := fabS { posted := ⟨[(4, { id := 1, al := .base, off := 0x4C, val := 800, defer := true, old := false })]⟩ }
def trnS (ap : Bool) : State := fabS { hdr := ⟨[(1, { unlocked := true, apply := ap })]⟩, regs := ⟨[(regKey 1 0x40, 5), (regKey 1 0x48, 0x80010), (regKey 1 0x4C, 0x120011), (regKey 1 0x50, 4), (regKey 1 0x54, 4)]⟩, posted := ⟨[(4, { id := 1, al := .base, off := 0x4C, val := 800, defer := true, old := false })]⟩ }
def glbS : State := fabS { hdr := ⟨[(0, { unlocked := true })]⟩, stopped := true }
def ckB (st : Stage) (c : Clk) : State := ofBlk { pwr := { stage := st }, clk := c, fab := { hdr := ⟨[(2, { unlocked := true, level := true })]⟩ } }
def lastK : Clk := { xb := { passes := 3, prev := some 8192 } }
def bothK : Clk := { lastK with tripped := true, coast := true }
def dpK : Clk := { lockD := true, mhz := 1600, present := 0x70 }
def coK : Clk := { locking := true, coast := true, lockM := true, noref := true, mhz := 400 }
def lockS : State := ofBlk { pwr := { stage := .lock, dpGood := true }, clk := { tLocking := true, lockD := true, lockM := true } }
def norefS : State := ofBlk { pwr := { stage := .check, dpGood := true }, clk := { ns := 1000000000 } }
def thrS : State := ofBlk { (ckB .run { lockD := true }).blk with rm := { throttled := true } }
def srcK : Clk := { present := 0x7F, xa := goodK, xb := goodK, lockD := true, mhz := 1600 }
def hngK : Clk := { srcK with present := 0x2F, mclkUsed := false }
def pwB (p : Pwr) (regs : List (Nat × Word)) : Block := { pwr := p, clk := { present := 0x7F, xa := goodK, mhz := 1600, ns := 1 }, fab := { regs := ⟨regs⟩, hdr := ⟨[(3, { unlocked := true })]⟩ } }
def pwS (p : Pwr) (regs : List (Nat × Word)) : State := ofBlk (pwB p regs)
def pwRun : Pwr := { stage := .run, intermission := false }
def pwOk : List (Nat × Word) := [(regKey 3 0x48, 0x105), (regKey 3 0x54, 3)]
def pwW : State := ofBlk { pwB pwRun pwOk with col := ⟨[(2, { pd0 := 4 })]⟩ }
def pwQ : State := pwS { pwRun with wakeReq := true } pwOk
def pwN : State := ofBlk { pwB pwRun pwOk with last := { activity := .pass1 } }
def enS (p : Pwr) (x : Ctx) : State := ofBlk { pwB { p with stage := .entry, busy := true, sleepGt := 100 } pwOk with ctx := ⟨[(0x123, x)]⟩, tu := { ns := 5000 }, col := ⟨[(2, { raise := 5 })]⟩ }
def doneP : Pwr := { wrote := true, saveRing := ⟨(List.range 4).map fun w => (w, 4096)⟩ }
def doneS : State := ofBlk { (enS doneP ctx0).blk with ctx := .empty }
def svw : SaveWrite := { kind := .saveCtx 0, off := 0x80000, bytes := [] }
def badP : Pwr := { wrote := true, saveq := ⟨[(0, [svw])]⟩, ret := true, ringsLeft := false, latched := 2 }
def asleepS : State := pwS { stage := .asleep, snap := some ⟨⟨[(regKey 6 0x48, 77)]⟩, .empty, [], ⟨[(2, {})]⟩, ⟨[(3, {})]⟩⟩ } [(regKey 3 0x54, 2)]
def wkS (st : Stage) (t : Nat) : State := ofBlk { asleepS.blk with pwr := { asleepS.blk.pwr with stage := st, causeNs := 1000, causeGt := 1000, asleepAcc := true }, tu := { ns := BitVec.ofNat 64 t }, clk := { xa := goodK, ns := t } }
def rrS : State := pwS { pwRun with ringsLeft := true, ringNext := 8192, back := ⟨[(5, .issued 0x1000 false false), (6, .issued 0x1040 false true)]⟩ } []
def rrT : State := pwS { pwRun with ringsLeft := true, ringNext := 8192, ringsRestored := true } []
def snS : State := ofBlk { pwB { pwRun with snap := asleepS.blk.pwr.snap } [(regKey 3 0x70, 0), (regKey 4 0x40, 5), (regKey 6 0x48, 7)] with tu := { ns := 77, frac := 3, valid := true }, rm := { grant := some 3, log := ⟨[(3, {})]⟩ }, last := { active := true } }
def bkupS : State := pwS { stage := .backup, onBkp := true, aonGood := false } []
def rmB (r : Rm) (regs : List (Nat × Word)) : Block := { runB with rm := r, fab := { regs := ⟨regs⟩ }, clk := { ns := 20000000, xa := goodK } }
def rmS (r : Rm) : State := ofBlk (rmB r [])
def rmOwn : Rm := { ready := true, heldBy := true, owner := 1, idleAt := 5, fwA := 0x30004, fwB := 0x30002, fwMin := 0x30004, data := ⟨[(0, 5), (1, 0x200040), (3, 7)]⟩, logSeq := 9, log := ⟨[(4, {})]⟩ }
def rmArg (a : Word) : Rm := { rmOwn with data := ⟨[(0, a)]⟩ }
def cmdW (op : Word) : RegAcc := withOp (wr 0) 0xFF op
def rmDown : Rm := { rmOwn with ready := false }
def fwS : State := ofBlk { rmB rmOwn [] with xl := { segs := ⟨[(5, { valid := true, limit := 0xFFFFF })]⟩ } }
def rmX (a : Activity) : State := ofBlk { rmB rmOwn [] with last := { activity := a }, fab := { hdr := ⟨[(6, { level := true })]⟩ } }
def rmY : State := ofBlk { rmB rmOwn [] with fab := { hdr := ⟨[(6, { level := true })]⟩, rgn := ⟨[(0, { count := 128, whi := 1023, wmask := 2, rmask := 0xFFFFFFFF })]⟩ } }
def rmGr : Rm := { rmOwn with grant := some 77000000 }
def rmF : State := ofBlk { rmB rmGr [] with last := { activity := .commitPend, paused := true } }
def rmSl : Rm := { rmOwn with sealBroken := true }
def rmA (a : Word) : Rm := { rmArg a with grant := some 77000000, awlEn := true }
def opE (op : BitVec 8) (args : List Word) : Rm := { rmOwn with busy := some ⟨op, 1, args⟩ }
def fwR : FwRead := { addr := { seg := 5, off := 64 }, phase := some (.issued 0x1000 false true) }
def opF : Rm := { opE 4 [5] with fw := some fwR }
def endE (bytes : List Byte) (stop : Option Nat) (ok : Bool) : MbxEnd := { bytes, stop, storeOk := ok }
def luE : State := ofBlk { rmB (opE 6 [1]) [] with last := { activity := .pass2 } }
def luF : State := ofBlk { rmB (opE 6 [1, 2]) [] with last := { reason := 21 } }
def luS : State := ofBlk { rmB (opE 6 [1, 2]) [] with last := { inactive := .staged, load := { rm := true, pass1 := [(0, 1)] } } }
def fwE : FwBoot := { copy0 := hdrBytes true 3 8, copy1 := [], verA := 3, verB := 4 }
def rmDue : Rm := { rmOwn with due := true }
def rmT : State := ofBlk (rmB rmDue [(regKey 12 0x6C, 0x6E5F)])
def rmV : Rm := { rmDue with volt := ⟨[(0, 0x30005)]⟩ }
def rmL : Rm := { logq := [{ cls := 3 }, { cls := 4 }], logNext := 2047, logSeq := 5, logCount := 2048 }
def rmG : Rm := { rmOwn with grant := some 20000000, awlEn := true }
def bkG : State := ofBlk { rmB { rmG with grant := none } [] with pwr := { stage := .backup, onBkp := true } }
def rmW : Rm := { rmG with awl := { armed := true, word := 3 } }
def rmD (o : Option Word) : Rm := { rmG with awl := { op := some o, word := 0xC010 } }
def rmE : State := ofBlk { rmB (rmD none) [] with pwr := { stage := .asleep } }
def rsKey : Map PageHdr := ⟨[(13, { unlocked := true })]⟩
def rsLog : Rm := { log := ⟨[(3, {})]⟩, logNext := 4, logCount := 1, logSeq := 9, sealBroken := true, grant := some 5, awlEn := true }
def rsB (p : Pwr) : Block := { pwr := p, rm := rsLog, tu := { ns := 777, frac := 5 }, fab := { regs := ⟨[(regKey 3 0x40, 1), (regKey 4 0x48, 9), (regKey 5 0x40, 3)]⟩, hdr := rsKey }, pend := ⟨[(0x10, { p := true, fl := some {} }), (0x11, { p := true, m := true }), (0x12, { fl := some {} })]⟩, stn := ⟨[(0, { intake := [{ kind := .reentry, src := .self 3 }], rsps := [{ tok := 3, id := 4, beats := 1, code := none }] })]⟩, col := ⟨[(2, { raise := 5, sync := 3 })]⟩, clk := { dclk := 9000, ns := 400000 } }
def rsS (p : Pwr) : State := ofBlk (rsB p)
def rsRun : Pwr := { stage := .run, intermission := false }
def arS : State := ofBlk { rsB { stage := .arrays, at_ := 1 } with clk := { dclk := 9000, ns := 40000000, mhz := 1600 } }
def lkS : State := ofBlk { rsB { stage := .lock, dpGood := false } with clk := { lockD := true, lockM := true, lockT := true, xa := goodK, present := 0x7F } }
def drE : State := ofBlk { pwr := { stage := .drain, at_ := 10 ^ 9 }, ras := { cause := 4 } }
def rsE (c : BitVec 3) : State := ofBlk { rsB { stage := .restart, at_ := 100 } with ras := { cause := c }, pend := ⟨[(0x10, { p := true }), (0x11, { p := true, m := true })]⟩ }
def rsC : State := ofBlk { rsB rsRun with ras := { scan := ⟨[(0, [0x10, 0x11])]⟩ }, pend := ⟨[(0x10, { p := true })]⟩, stn := .empty }
def rsN : State := ofBlk { rsB rsRun with ras := { scan := ⟨[(0, [0x20])]⟩ }, stn := .empty }
def ecS (s : BitVec 5) (d : Bool) (ce : Word) : State := ofBlk { rsB rsRun with ras := { inject := some (s, d) }, fab := { regs := ⟨[(regKey 13 0x40, ce)]⟩, hdr := rsKey } }
def ecC : State := ofBlk { (ecS 1 true 0x640002).blk with ctx := ⟨[(0x123, { ctx0 with seat := some 4 })]⟩, seat := ⟨[(4, { ctx := some 0x123 })]⟩ }
def rpS (v : BitVec 2) (o : OwnerNo) (x : Word) : State := ofBlk { rsB rsRun with ras := { reports := [{ gt := 9, sev := v, source := 2, owner := o, index := 0x405, synd := 1 }], next := 3 }, fab := { regs := ⟨[(regKey 13 0x48, x), (regKey 13 0x4C, 0x420010), (regKey 2 0x54, 1)]⟩ } }
def scS : State := ofBlk { rsB rsRun with ras := { revs := 16, passes := 0xFFFF } }
def cwS (c : Word) : State := ofBlk { rsB rsRun with fab := { regs := ⟨[(regKey pgPMU 0x40, c), (regKey pgPMU 0x48, 8), (regKey pgPMU 0x318, 0xFFFFFFFF), (regKey pgPMU 0x31C, 0xFFFF), (regKey pgPMU 0x408, 0xFFFFFFFF), (regKey pgPMU 0x40C, 0xFFFF)]⟩ } }
/-- Front, Idle. -/
theorem witness_StepRunsTheFrontCommand (h : Obligations.StepRunsTheFrontCommand) :
    (∃ q : Prop, q) ∧
    (∃ q : Prop, q) :=
  ⟨⟨_, h.1 { run0 with pending := [.dpReady, .woke] } .dpReady [.woke] rfl⟩,
   ⟨_, h.2 run0 rfl⟩⟩

/-- Turnstile_reset, Turnstile_cold. -/
theorem witness_TheTurnstileAfterColdReset (h : Obligations.TheTurnstileAfterColdReset) :
    (∃ q : Prop, q) ∧
    (∃ q : Prop, q) :=
  ⟨⟨_, (h State.reset.blk (.inl rfl)).2.2 31 16383 1023 true (by decide) (by decide)⟩,
   ⟨_, (h _ (.inr ⟨run0, true, _, rfl, rfl⟩)).2.1 31 (by decide)⟩⟩

/-- Last_reset, Last_cold. -/
theorem witness_TheLastAfterColdReset (h : Obligations.TheLastAfterColdReset) :
    (∃ q : Prop, q) ∧
    (∃ q : Prop, q) :=
  ⟨⟨_, (h State.reset.blk (.inl rfl)).2.2.1 0x17C (by decide) (by decide)⟩,
   ⟨_, (h _ (.inr ⟨run0, false, _, rfl, rfl⟩)).2.2.1 0x100 (by decide) (by decide)⟩⟩

/-- Guards_reset, Guards_open. -/
theorem witness_EveryStepKeepsThePresenceGuards (h : Obligations.EveryStepKeepsThePresenceGuards) :
    (∃ q : Prop, q) ∧
    (∃ q : Prop, q) :=
  ⟨⟨_, h State.reset _ ⟨fun k => absurd k (by decide), fun k => absurd k (by decide)⟩ rfl⟩,
   ⟨_, h { ofBlk { runB with rm := { awlEn := true, grant := some 9 } } with pending := [.sealBreak] } _ ⟨fun _ => rfl, fun _ => rfl⟩ rfl⟩⟩

/-- LinesAreSampled, LinesAreSampled_assert, LevelSample, CollectorOffer. -/
theorem witness_LinesAreSampledAndOffered (h : Obligations.LinesAreSampledAndOffered) :
    (∃ b, Makes lcS (.lineEdge 0 0x33) b) ∧
    (∃ b, Makes lcS (.lineAssert 0 0x33) b) ∧
    (∃ b, Makes lcS (.levelSample 0) b) ∧
    (∃ p, Gives lcS (.collectorOffer 0) p) :=
  ⟨⟨_, ((h.1) lcS 0 0x33 (by decide)).1⟩,
   ⟨_, ((h.1) lcS 0 0x33 (by decide)).2⟩,
   ⟨_, (h.2).1 lcS 0 5 [] (by decide) (by decide)⟩,
   ⟨_, (h.2).2 lcS 0 1 (by decide) (by decide) (by decide) (by decide) (by decide) (by decide) (by decide) ⟨by decide, .inl ⟨by decide, fun j h1 h2 => by have k : 1 ≤ j := h1; omega⟩⟩⟩⟩

/-- EdgeLatch_first, EdgeLatch_idle, LatchTransfer, LcEn, LcPol, LcInject, LcInject_off. -/
theorem witness_LineRegistersAndTheEdgeLatch (h : Obligations.LineRegistersAndTheEdgeLatch) :
    (∃ b, Makes pdS (.edgeLatchCapture 2 0x5) b) ∧
    (∃ b, Makes pdS (.edgeLatchCapture 2 0) b) ∧
    (∃ b, Makes pdT (.latchTransfer 0 0x40) b) ∧
    (∃ b, Makes lcS (.lcEn 0 0 (wr 0xF1)) b) ∧
    (∃ b, Makes lcS (.lcPol 0 0 (wr 0xF1)) b) ∧
    (∃ b, Makes lcK (.lcInject 0 (wr 1)) b) ∧
    (∃ b, Makes lcK (.lcInject 0 (wr 9)) b) :=
  ⟨⟨_, ((h.2).1 pdS 2 0x5 (by decide)).1 (by decide)⟩,
   ⟨_, ((h.2).1 pdS 2 0 (by decide)).2 (by decide)⟩,
   ⟨_, (h.2).2 pdT 0 0x40 (by decide) (by decide)⟩,
   ⟨_, (h.1).1 lcS 0 0 (.lcEn 0 0 (wr 0xF1)) 0x40 (wr 0xF1) (.inl ⟨rfl, rfl⟩) (by decide)⟩,
   ⟨_, (h.1).1 lcS 0 0 (.lcPol 0 0 (wr 0xF1)) 0x60 (wr 0xF1) (.inr (.inr ⟨rfl, rfl⟩)) (by decide)⟩,
   ⟨_, ((h.1).2 lcK 0 (wr 1) rfl (by decide)).1 (by decide)⟩,
   ⟨_, ((h.1).2 lcK 0 (wr 9) rfl (by decide)).2 (by decide)⟩⟩

/-- ShortDoorbell, LongDoorbell, DoorbellRead, DoorbellRead_dark, DoorbellRead_asleep, StationResponse, StnCtl_on, StnCtl_off, StnInv, StnInv_ignored, StnInvDone. -/
theorem witness_DoorbellWritesAreTaken (h : Obligations.DoorbellWritesAreTaken) :
    (∃ p, Gives run0 (.shortDoorbell 1 3 [beat0]) p) ∧
    (∃ p, Gives run0 (.longDoorbell 1 3 [beatL]) p) ∧
    (∃ b, Makes run0 (.doorbellRead 1 3 0 2) b) ∧
    (∃ b, Makes darkS (.doorbellRead 1 3 0 2) b) ∧
    (∃ b, Makes pdS (.doorbellRead 1 3 0 2) b) ∧
    (∃ b, Makes rspS (.stationResponse 2 5) b) ∧
    (∃ b, Makes (stnK none) (.stnCtl 0 (wr 1)) b) ∧
    (∃ b, Makes (stnK none) (.stnCtl 0 (wr 0)) b) ∧
    (∃ b, Makes (stnK none) (.stnInv 0 (wr 1)) b) ∧
    (∃ b, Makes (stnK (some inv0)) (.stnInv 0 (wr 1)) b) ∧
    (∃ b, Makes (stnK (some inv0)) (.stnInvDone 0) b) :=
  ⟨⟨_, h.1.1 run0 1 3 [beat0] beat0 _ (by decide) (by decide) rfl rfl (by decide)⟩,
   ⟨_, h.1.2 run0 1 3 [beatL] beatL _ _ (by decide) (by decide) rfl rfl (by decide) (by decide) (by decide)⟩,
   ⟨_, ((h.2.1).1 run0 1 3 0 2).1 rfl (by decide)⟩,
   ⟨_, ((h.2.1).1 darkS 1 3 0 2).2.2 (by decide)⟩,
   ⟨_, ((h.2.1).1 pdS 1 3 0 2).2.1 (by decide)⟩,
   ⟨_, (h.2.1).2 rspS 2 5 [⟨1, 4, 1, none⟩] [⟨3, 5, 1, none⟩] ⟨2, 5, 2, some 1⟩ 1 (by decide) (by decide) rfl rfl⟩,
   ⟨_, h.2.2.1 (stnK none) 0 (wr 1) (by decide)⟩,
   ⟨_, h.2.2.1 (stnK none) 0 (wr 0) (by decide)⟩,
   ⟨_, (h.2.2.2.1 (stnK none) 0 (wr 1) rfl (by decide)).1 (by decide)⟩,
   ⟨_, (h.2.2.2.1 (stnK (some inv0)) 0 (wr 1) rfl (by decide)).2 (by decide)⟩,
   ⟨_, h.2.2.2.2 (stnK (some inv0)) 0 inv0 (by decide)⟩⟩

/-- StationLookup_message, StationLookup_wired, FillResponse, RefreshSweep, RefreshResponse. -/
theorem witness_StationLookupHandsOver (h : Obligations.StationLookupHandsOver) :
    (∃ p, Gives lookS (.stationLookup 2 .message) p) ∧
    (∃ p, Gives lookS (.stationLookup 2 .wired) p) ∧
    (∃ b, Makes fillS (.fillResponse 2 addr0 (.ok (List.replicate 16 1))) b) ∧
    (∃ b, Makes fillS (.refreshSweep 2) b) ∧
    (∃ b, Makes refS (.refreshResponse 2 addr0 .err) b) :=
  ⟨⟨_, (h.1 lookS 2 { ctl := 3 } (by decide) (by decide)).1 msg0 [] (by decide) (by decide) rfl rfl rfl (by decide) (by decide) (by decide)⟩,
   ⟨_, (h.1 lookS 2 { ctl := 3 } (by decide) (by decide)).2 wire0 (by decide) (by decide) (by decide) rfl rfl (by decide) (by decide)⟩,
   ⟨_, h.2.1 fillS 2 addr0 fill0 0x1040 false false { item := wire0, on := .fill addr0 } (List.replicate 16 1) (by decide) rfl rfl rfl (by decide) rfl rfl rfl (by decide) (by decide)⟩,
   ⟨_, h.2.2.1 fillS 2 (by decide) (by decide) (by decide)⟩,
   ⟨_, h.2.2.2 refS 2 addr0 fill0 0x1040 false false .err (by decide) rfl rfl rfl (by decide)⟩⟩

/-- AdmissionSets, AdmissionHolds, AdmissionMerges, AdmissionMergesHeld. -/
theorem witness_AdmissionSetsHoldsOrMerges (h : Obligations.AdmissionSetsHoldsOrMerges) :
    (∃ b, Makes (admB {}) (.arrivalAdmit 3 2) b) ∧
    (∃ p, Gives (admB { m := true }) (.arrivalAdmit 3 2) p) ∧
    (∃ p, Gives (admB { p := true, fl := some {} }) (.arrivalAdmit 3 2) p) ∧
    (∃ p, Gives (admB { p := true, m := true }) (.arrivalAdmit 3 2) p) :=
  ⟨⟨_, (h (admB {}) 3 2 it0 arr0 [] (by decide) (by decide) (by decide)).1 (by decide) (by decide)⟩,
   ⟨_, (h (admB { m := true }) 3 2 it0 arr0 [] (by decide) (by decide) (by decide)).2.1 (by decide) (by decide) rfl⟩,
   ⟨_, (h (admB { p := true, fl := some {} }) 3 2 it0 arr0 [] (by decide) (by decide) (by decide)).2.2.1 {} (by decide) (by decide) rfl rfl⟩,
   ⟨_, (h (admB { p := true, m := true }) 3 2 it0 arr0 [] (by decide) (by decide) (by decide)).2.2.2 (by decide) (by decide) rfl⟩⟩

/-- RouteDiscard, RouteSingle, RouteRemote. -/
theorem witness_RoutingFollowsTheClass (h : Obligations.RoutingFollowsTheClass) :
    (∃ p, Gives (rtB {}) (.routeArrival 3) p) ∧
    (∃ p, Gives (rtB { kind := 1, target := 0x123 }) (.routeArrival 3) p) ∧
    (∃ p, Gives (rtB { kind := 4, inst := 0x100 }) (.routeArrival 3) p) :=
  ⟨⟨_, (h (rtB {}) 3 avl0 [avl0] { merge := 3 } (by decide) (by decide) (by decide) (by decide) (by decide) (by decide) (by decide) (by decide) (by decide) (by decide) (by decide)).1 (by decide)⟩,
   ⟨_, (h (rtB { kind := 1, target := 0x123 }) 3 avl0 [avl0] { merge := 3 } (by decide) (by decide) (by decide) (by decide) (by decide) (by decide) (by decide) (by decide) (by decide) (by decide) (by decide)).2.1 (by decide)⟩,
   ⟨_, (h (rtB { kind := 4, inst := 0x100 }) 3 avl0 [avl0] { merge := 3 } (by decide) (by decide) (by decide) (by decide) (by decide) (by decide) (by decide) (by decide) (by decide) (by decide) (by decide)).2.2 2 (by decide) (by decide) (by decide)⟩⟩

/-- McsSet, McsSet_err. -/
theorem witness_MulticastReadIssuesItsMembers (h : Obligations.MulticastReadIssuesItsMembers) :
    (∃ b, Makes mcB (.mcsSetReadDone 3 (.ok setBytes)) b) ∧
    (∃ b, Makes mcB (.mcsSetReadDone 3 .err) b) :=
  ⟨⟨_, (h mcB 3 mci0 0 true true { merge := 3 } (by decide) rfl rfl rfl (by decide) rfl (by decide) (by decide)).1 setBytes 0x123 [0x124] (by decide) (by decide) (by decide +kernel) (by decide +kernel) (by intro d hd; simp at hd; rcases hd with rfl | rfl <;> decide)⟩,
   ⟨_, (h mcB 3 mci0 0 true true { merge := 3 } (by decide) rfl rfl rfl (by decide) rfl (by decide) (by decide)).2 rfl⟩⟩

/-- RankInsert, RankInsert_merge. -/
theorem witness_InsertsRankInTheShortlist (h : Obligations.InsertsRankInTheShortlist) :
    (∃ p, Gives insB (.rankInsert 3 16) p) ∧
    (∃ p, Gives insM (.rankInsert 3 16) p) :=
  ⟨⟨_, (h insB 3 { ctx := 0x123, entry := ent 5 9 } [] { shortlist := [ent 1 3, ent 2 9, ent 3 10] } (by decide) (by decide) (by decide) (by decide) (by decide) (by decide) (by decide) (by decide) (by decide) (by decide) (by decide) (by decide)).2 [ent 1 3, ent 2 9] [ent 3 10] rfl rfl (by decide) (by decide) (by decide) (by decide)⟩,
   ⟨_, (h insM 3 { ctx := 0x123, entry := ent 2 9 } [] { shortlist := [ent 1 3, ent 2 9, ent 3 10] } (by decide) (by decide) (by decide) (by decide) (by decide) (by decide) (by decide) (by decide) (by decide) (by decide) (by decide) (by decide)).1 [ent 1 3] (ent 2 9) [ent 3 10] rfl (by decide) (by decide)⟩⟩

/-- EntryRead_err, EntryRead_invalid, EntryRead_valid. -/
theorem witness_AbsentContextsReadTheirEntry (h : Obligations.AbsentContextsReadTheirEntry) :
    (∃ b, Makes splB (.ctxtEntryRead 0x123 .err) b) ∧
    (∃ b, Makes splB (.ctxtEntryRead 0x123 (.ok [])) b) ∧
    (∃ b, Makes splB (.ctxtEntryRead 0x123 (.ok tabBytes)) b) :=
  ⟨⟨_, (h splB 0x123 spl0 0 true true (by decide) rfl rfl (by decide) (by decide) (by decide) (by decide) (by decide)).1⟩,
   ⟨_, (h splB 0x123 spl0 0 true true (by decide) rfl rfl (by decide) (by decide) (by decide) (by decide) (by decide)).2.1 [] (by decide)⟩,
   ⟨_, (h splB 0x123 spl0 0 true true (by decide) rfl rfl (by decide) (by decide) (by decide) (by decide) (by decide)).2.2 tabBytes _ rfl rfl rfl (by decide) (by decide) (by decide) (by decide) (by decide)⟩⟩

/-- SpillPush, SpillPush_full. -/
theorem witness_PushesWriteTheBucket (h : Obligations.PushesWriteTheBucket) :
    (∃ p, Gives pushB (.spillPush 0x123 (.ok (descBytes 14 3))) p) ∧
    (∃ b, Makes pushB (.spillPush 0x123 (.ok (descBytes 14 15))) b) :=
  ⟨⟨_, (h pushB 0x123 spl1 0 true true (descBytes 14 3) 14 3 1 0x10 0 (by decide) rfl rfl rfl rfl (by decide) (by decide) (by decide) (by decide) (by decide)).1 (by decide) rfl _ _ _ rfl (by decide) (by decide) (by decide) (by decide)⟩,
   ⟨_, (h pushB 0x123 spl1 0 true true (descBytes 14 15) 14 15 1 0x10 0 (by decide) rfl rfl rfl rfl (by decide) (by decide) (by decide) (by decide) (by decide)).2 rfl (by decide)⟩⟩

/-- Refill, Refill_err. -/
theorem witness_RefillsMoveEntriesBack (h : Obligations.RefillsMoveEntriesBack) :
    (∃ p, Gives refB (.refillDone 0x123 [⟨9, .ok bktBytes⟩]) p) ∧
    (∃ b, Makes refB (.refillDone 0x123 [⟨9, .err⟩]) b) :=
  ⟨⟨_, (h refB 0x123 rfl0 _ 0 true true (by decide) rfl rfl rfl (by decide) (by decide) (by decide) (by decide) (by decide)).1 bktBytes 14 2 (by decide) (by decide) (by decide) (by decide)⟩,
   ⟨_, (h refB 0x123 rfl0 _ 0 true true (by decide) rfl rfl rfl (by decide) (by decide) (by decide) (by decide) (by decide)).2⟩⟩

/-- MaskSet_waits, MaskClear_paused, MaskSet, MaskClear, MaskClear_held, RePin, RePin_away, ReUnpin, ReUnpin_away, FiltClr. -/
theorem witness_MaskAndPinRegisters (h : Obligations.MaskAndPinRegisters) :
    (∃ b, Makes reF (.maskSet 3 (wr 0)) b) ∧
    (∃ b, Makes reG (.maskClear 3 (wr 0)) b) ∧
    (∃ b, Makes reS (.maskSet 3 (wr 0)) b) ∧
    (∃ b, Makes reS (.maskClear 3 (wr 0)) b) ∧
    (∃ b, Makes reH (.maskClear 3 (wr 0)) b) ∧
    (∃ b, Makes reS (.rePin 3 (wr 0x123)) b) ∧
    (∃ b, Makes reS (.rePin 3 (wr 0x133)) b) ∧
    (∃ b, Makes reS (.reUnpin 3 (wr 0x123)) b) ∧
    (∃ b, Makes reS (.reUnpin 3 (wr 0x133)) b) ∧
    (∃ b, Makes reS (.filtClr 3 (wr 0x7)) b) :=
  ⟨⟨_, (h.2.1 reF 3 (wr 0) (by decide) (by decide) (by decide) (by decide) (by decide) (by decide) (by decide) (.inr (by decide))).1⟩,
   ⟨_, (h.2.1 reG 3 (wr 0) (by decide) (by decide) (by decide) (by decide) (by decide) (by decide) (by decide) (.inl rfl)).2⟩,
   ⟨_, h.1 reS 3 (wr 0) (by decide)⟩,
   ⟨_, (h.2.2.1 reS 3 (wr 0) (by decide)).1 (by decide)⟩,
   ⟨_, (h.2.2.1 reH 3 (wr 0) (by decide)).2 (by decide) (by decide)⟩,
   ⟨_, ((h.2.2.2.1 reS 3 (wr 0x123) ctx0 rfl).1 (by decide) (by decide)).1 rfl (by decide)⟩,
   ⟨_, ((h.2.2.2.1 reS 3 (wr 0x133) ctx0 rfl).1 (by decide) (by decide)).2 rfl⟩,
   ⟨_, ((h.2.2.2.1 reS 3 (wr 0x123) ctx0 rfl).2 (by decide) (by decide)).1 rfl⟩,
   ⟨_, ((h.2.2.2.1 reS 3 (wr 0x133) ctx0 rfl).2 (by decide) (by decide)).2 rfl⟩,
   ⟨_, h.2.2.2.2 reS 3 (wr 0x7) rfl (by decide)⟩⟩

/-- Reevaluate, Reevaluate_withdraw, Renotify. -/
theorem witness_ReevaluationAsksForTheLine (h : Obligations.ReevaluationAsksForTheLine) :
    (∃ b, Makes (thS seat0 cxD) (.reevaluate 0x123) b) ∧
    (∃ b, Makes (thS seatO cxE) (.reevaluate 0x123) b) ∧
    (∃ p, Gives (thS seatO cxD) (.renotifyCheck 0x123) p) :=
  ⟨⟨_, (h.1 (thS seat0 cxD) 0x123 cxD 10 (by decide) rfl rfl rfl rfl (by decide) rfl rfl).1 (ent 0x42005 3) [ent 2 9] rfl (by decide) rfl⟩,
   ⟨_, (h.1 (thS seatO cxE) 0x123 cxE 10 (by decide) rfl rfl rfl rfl (by decide) rfl rfl).2 (by intro e r he; cases he) rfl⟩,
   ⟨_, h.2 (thS seatO cxD) 0x123 cxD 10 0 (ent 0x42005 3) [ent 2 9] (by decide) (by decide) (by decide) (by decide) (by decide) (by decide) (by decide) (by decide) (by decide) (by decide) (by decide) (by decide) (by decide) (by decide) (by decide)⟩⟩

/-- Grant, Grant_withdraw. -/
theorem witness_DeliveryTakesTheTracker (h : Obligations.DeliveryTakesTheTracker) :
    (∃ p, Gives (thS (seatR (.notify .H 3 true)) cxD) (.deliveryGrant 5) p) ∧
    (∃ b, Makes (thS (seatR .withdraw) cxD) (.deliveryGrant 5) b) :=
  ⟨⟨_, (h (thS (seatR (.notify .H 3 true)) cxD) 5 false 3 (by decide) (by decide)).1 .H 3 true 15 0x123 cxD rfl rfl rfl⟩,
   ⟨_, (h (thS (seatR .withdraw) cxD) 5 false 3 (by decide) (by decide)).2 15 rfl⟩⟩

/-- Notify_drop, Notify, Notify_again, Withdraw, AckResponse. -/
theorem witness_SlicesAssertAndConfirm (h : Obligations.SlicesAssertAndConfirm) :
    (∃ b, Makes (slS [.notify false .H 15 3] { covered := 6 }) (.notify 5) b) ∧
    (∃ b, Makes (slS [.notify false .H 14 3] { covered := 6 }) (.notify 5) b) ∧
    (∃ b, Makes (slS [.notify false .H 14 3] { covered := 6, line := some (.H, 13) }) (.notify 5) b) ∧
    (∃ b, Makes (slS [.withdraw false 14] { covered := 6, line := some (.H, 14) }) (.withdraw 5) b) ∧
    (∃ b, Makes ackS (.ackResponse 5) b) :=
  ⟨⟨_, (h.1 (slS [.notify false .H 15 3] { covered := 6 }) 5 false .H 15 3 [] rfl).1 (by decide)⟩,
   ⟨_, (h.1 (slS [.notify false .H 14 3] { covered := 6 }) 5 false .H 14 3 [] rfl).2 (by decide)⟩,
   ⟨_, (h.1 (slS [.notify false .H 14 3] { covered := 6, line := some (.H, 13) }) 5 false .H 14 3 [] rfl).2 (by decide)⟩,
   ⟨_, h.2.1 (slS [.withdraw false 14] { covered := 6, line := some (.H, 14) }) 5 false 14 [] rfl⟩,
   ⟨_, h.2.2 ackS 5 rsp0 false 3 (by decide) (by decide) (by decide) (by decide) (by decide) (by decide) (by decide) (by decide)⟩⟩

/-- Confirm, LinkUp, LinkDown. -/
theorem witness_ConfirmsAndLinksRestartDelivery (h : Obligations.ConfirmsAndLinksRestartDelivery) :
    (∃ b, Makes cfS (.confirm 5) b) ∧
    (∃ p, Gives (ofBlk { cfS.blk with up := [] }) (.sliceLinkUp 1) p) ∧
    (∃ p, Gives cfS (.sliceLinkDown 1) p) :=
  ⟨⟨_, h.1 cfS 5 false false 3 (by decide) (by decide) (by decide) (by decide) (by decide) (by decide) (by decide) (by decide)⟩,
   ⟨_, h.2.1 (ofBlk { cfS.blk with up := [] }) 1 (by decide) (by decide) (by decide)⟩,
   ⟨_, h.2.2 cfS 1 (by decide)⟩⟩

/-- Ack, Ack_absolute, Ack_none, AckPeek, AckPeek_none. -/
theorem witness_AckTakesTheBestEntry (h : Obligations.AckTakesTheBestEntry) :
    (∃ p, Gives (ackX ackC) (.ack opH) p) ∧
    (∃ p, Gives (ackX ackC) (.ack opA) p) ∧
    (∃ p, Gives (ackX cxE) (.ack opA) p) ∧
    (∃ p, Gives (ackX ackC) (.ackPeek opH) p) ∧
    (∃ p, Gives (ackX cxE) (.ackPeek opA) p) :=
  ⟨⟨_, ((h (ackX ackC) opH 0x123 ackC ⟨rfl, rfl⟩).1 (by decide) rfl rfl).1 (ent 0x42005 3) [ent 2 9] rfl (by decide) (by decide) (by decide) (by decide) (by decide)⟩,
   ⟨_, ((h (ackX ackC) opA 0x123 ackC ⟨rfl, rfl⟩).1 (by decide) rfl rfl).1 (ent 0x42005 3) [ent 2 9] rfl (by decide) (by decide) (by decide) (by decide) (by decide)⟩,
   ⟨_, ((h (ackX cxE) opA 0x123 cxE ⟨rfl, rfl⟩).1 (by decide) rfl rfl).2 rfl⟩,
   ⟨_, ((h (ackX ackC) opH 0x123 ackC ⟨rfl, rfl⟩).2 (by decide)).1 (ent 0x42005 3) [ent 2 9] rfl (by decide) (by decide) (by decide)⟩,
   ⟨_, ((h (ackX cxE) opA 0x123 cxE ⟨rfl, rfl⟩).2 (by decide)).2 rfl⟩⟩

/-- Eoi_split, Eoi_joined, Eoi_banked, Eoi_mismatch, Eoi_empty, Deact_banked, Deact, Deact_none. -/
theorem witness_EoiAndDeactEndActivations (h : Obligations.EoiAndDeactEndActivations) :
    (∃ p, Gives (ackX spC) (.eoi opH 0x42003) p) ∧
    (∃ p, Gives (ackX cxD) (.eoi opH 0x42003) p) ∧
    (∃ p, Gives (ackX bkC) (.eoi opH 0x800) p) ∧
    (∃ p, Gives (ackX cxD) (.eoi opA 0x42004) p) ∧
    (∃ p, Gives (ackX cxE) (.eoi opA 0x42004) p) ∧
    (∃ p, Gives (ackX cxD) (.deact opH 0x800) p) ∧
    (∃ p, Gives (ackX cxD) (.deact opH 0x42003) p) ∧
    (∃ p, Gives (ackX cxD) (.deact opH 0x42004) p) :=
  ⟨⟨_, (((h (ackX spC) opH 0x42003 0x123 spC ⟨rfl, rfl⟩).1 (by decide)).1 [act2] act1 [] rfl (by decide) rfl).1 (by decide) rfl⟩,
   ⟨_, (((h (ackX cxD) opH 0x42003 0x123 cxD ⟨rfl, rfl⟩).1 (by decide)).1 [act2] act1 [] rfl (by decide) rfl).2.2.1 (by decide) rfl rfl (by decide)⟩,
   ⟨_, (((h (ackX bkC) opH 0x800 0x123 bkC ⟨rfl, rfl⟩).1 (by decide)).1 [] { act2 with dropped := false } [] rfl (by decide) rfl).2.1 (by decide) rfl rfl⟩,
   ⟨_, (((h (ackX cxD) opA 0x42004 0x123 cxD ⟨rfl, rfl⟩).1 (by decide)).1 [act2] act1 [] rfl (by decide) rfl).2.2.2 (by decide)⟩,
   ⟨_, ((h (ackX cxE) opA 0x42004 0x123 cxE ⟨rfl, rfl⟩).1 (by decide)).2 (by decide)⟩,
   ⟨_, (((h (ackX cxD) opH 0x800 0x123 cxD ⟨rfl, rfl⟩).2 (by decide)).1 [] act2 [act1] rfl (by decide) rfl).1 rfl⟩,
   ⟨_, (((h (ackX cxD) opH 0x42003 0x123 cxD ⟨rfl, rfl⟩).2 (by decide)).1 [act2] act1 [] rfl (by decide) rfl).2 rfl (by decide)⟩,
   ⟨_, ((h (ackX cxD) opH 0x42004 0x123 cxD ⟨rfl, rfl⟩).2 (by decide)).2 (by decide)⟩⟩

/-- Gate, Ctl, StatusClr, Utag, TdlLo, Timer, Ipi, Ipi_guest, Ipi_bad. -/
theorem witness_ThreadRegistersOfTheContext (h : Obligations.ThreadRegistersOfTheContext) :
    (∃ p, Gives (ackX cxD) (.gateWrite opH 0x7F) p) ∧
    (∃ p, Gives (ackX cxD) (.ctlWrite opH 0x12003) p) ∧
    (∃ p, Gives (ackX cxD) (.statusClr opA 0x3) p) ∧
    (∃ p, Gives (ackX utC) (.utagWrite opA 0x33) p) ∧
    (∃ p, Gives (ackX cxD) (.tdlLoWrite opA 0x33) p) ∧
    (∃ p, Gives (ackX cxD) (.timerWrite opA 0x10133) p) ∧
    (∃ p, Gives (ackX cxD) (.ipiSend opA 0x09070124) p) ∧
    (∃ p, Gives ipS (.ipiSend opG 0x09070023) p) ∧
    (∃ p, Gives ipS (.ipiSend opG 0x09070024) p) :=
  ⟨⟨_, (h.1 (ackX cxD) opH 0x7F 0x123 cxD (by decide) ⟨rfl, rfl⟩).1 (by decide)⟩,
   ⟨_, (h.1 (ackX cxD) opH 0x12003 0x123 cxD (by decide) ⟨rfl, rfl⟩).2.1 (by decide)⟩,
   ⟨_, (h.1 (ackX cxD) opA 0x3 0x123 cxD (by decide) ⟨rfl, rfl⟩).2.2.1 (by decide)⟩,
   ⟨_, (h.1 (ackX utC) opA 0x33 0x123 utC (by decide) ⟨rfl, rfl⟩).2.2.2.1 (by decide) (by decide)⟩,
   ⟨_, (h.1 (ackX cxD) opA 0x33 0x123 cxD (by decide) ⟨rfl, rfl⟩).2.2.2.2.1 (by decide)⟩,
   ⟨_, (h.1 (ackX cxD) opA 0x10133 0x123 cxD (by decide) ⟨rfl, rfl⟩).2.2.2.2.2 (by decide)⟩,
   ⟨_, (h.2 (ackX cxD) opA 0x09070124 0x123 cxD ⟨rfl, rfl⟩ (by decide)).1 rfl⟩,
   ⟨_, ((h.2 ipS opG 0x09070023 0x123 ipC ⟨rfl, rfl⟩ (by decide)).2 rfl (by decide)).1 (by decide)⟩,
   ⟨_, ((h.2 ipS opG 0x09070024 0x123 ipC ⟨rfl, rfl⟩ (by decide)).2 rfl (by decide)).2 (by decide)⟩⟩

/-- CtxSeat, CtxUnseat, CtxMove, HandoffEnd, CsgBadop. -/
theorem witness_SeatCommandsMoveContexts (h : Obligations.SeatCommandsMoveContexts) :
    (∃ b, Makes seatS (.ctxSeat 0 (wr 0x713)) b) ∧
    (∃ b, Makes unseatS (.ctxUnseat 0 (wr 0)) b) ∧
    (∃ b, Makes unseatS (.ctxMove 0 (wr 0x720)) b) ∧
    (∃ b, Makes handS (.handoffEnd 1) b) ∧
    (∃ b, Makes seatS (.csgBadop 0 (wr 0xC)) b) :=
  ⟨⟨_, (h.1 seatS 0 (wr 0x713) pinC false (by decide) (by decide) (by decide) (by decide) (by decide) (by decide) (by decide) (by decide)).1 (by decide) (by decide) (by decide) (by decide) (by decide) (by decide) (by decide)⟩,
   ⟨_, ((h.1 unseatS 0 (wr 0) unseatC false (by decide) (by decide) (by decide) (by decide) (by decide) (by decide) (by decide) (by decide)).2 10 rfl).1 (by decide)⟩,
   ⟨_, ((h.1 unseatS 0 (wr 0x720) unseatC true (by decide) (by decide) (by decide) (by decide) (by decide) (by decide) (by decide) (by decide)).2 10 rfl).2 (by decide) (by decide) (by decide) (by decide) (by decide) (by decide)⟩,
   ⟨_, h.2.1 handS 1 15 { pinC with moving := true, tarm := true, tdl := 5000 } rfl rfl rfl rfl rfl rfl⟩,
   ⟨_, h.2.2 seatS 0 (wr 0xC) rfl rfl (by decide)⟩⟩

/-- CtxLoad_waits, CtxLoad, LoadComplete_err, LoadComplete. -/
theorem witness_LoadsReadTheEntry (h : Obligations.LoadsReadTheEntry) :
    (∃ b, Makes loadW (.ctxLoad 0 (wr 0)) b) ∧
    (∃ b, Makes (ofBlk loadB) (.ctxLoad 0 (wr 0)) b) ∧
    (∃ b, Makes (ldS ldE) (.ctxLoadComplete 0x123 .err []) b) ∧
    (∃ b, Makes (ldS ldD) (.ctxLoadComplete 0x123 .err []) b) :=
  ⟨⟨_, (h.1 loadW 0 (wr 0) (by decide) (by decide) (by decide) (by decide) (by decide) (by decide) (by decide) (by decide) (by decide)).1 (by decide)⟩,
   ⟨_, (h.1 (ofBlk loadB) 0 (wr 0) (by decide) (by decide) (by decide) (by decide) (by decide) (by decide) (by decide) (by decide) (by decide)).2 (by decide) _ _ _ rfl (by decide)⟩,
   ⟨_, (h.2 (ldS ldE) 0x123 ldE (by decide) (by decide) (by decide) (by decide) (by decide)).1 0 true true [] rfl⟩,
   ⟨_, (h.2 (ldS ldD) 0x123 ldD (by decide) (by decide) (by decide) (by decide) (by decide)).2 .err 63 0 true true [] rfl rfl rfl rfl rfl (by decide) (by decide +kernel) (by decide) (by decide)⟩⟩

/-- CtxUnload, SpillWriteAccept, SpillWriteAccept_back. -/
theorem witness_UnloadsWriteTheContextBack (h : Obligations.UnloadsWriteTheContextBack) :
    (∃ b, Makes unlS (.ctxUnload 0 (wr 0)) b) ∧
    (∃ b, Makes accS (.spillWriteAccept 0x123) b) ∧
    (∃ p, Gives accL (.spillWriteAccept 0x123) p) :=
  ⟨⟨_, h.1 unlS 0 (wr 0) ctx0 (by decide) (by decide) (by decide) (by decide) (by decide) (by decide) (by decide) (by decide) (by decide) (by decide) (by decide)⟩,
   ⟨_, (h.2 accS 0x123 { kind := .spill 0x123, pa := 0, bytes := [], dev := false, tag := {} } { ctx := 0x123, entry := ent 1 2, ph := .written 1 } (by decide) (by decide) (by decide) (by decide) (by decide) (by decide) (by decide) (by decide)).1 rfl⟩,
   ⟨_, (h.2 accL 0x123 accM accW (by decide) (by decide) (by decide) (by decide) (by decide) (by decide) (by decide) (by decide)).2 ctx0 0 (by decide) rfl rfl (by decide) _ _ _ rfl (by decide)⟩⟩

/-- TimerFineLoad, TimerFire, TimerFire_late, PpsEdge, TickPulse, FollowHoldover, GtStopped. -/
theorem witness_TimersAndTimeUnitEvents (h : Obligations.TimersAndTimeUnitEvents) :
    (∃ p, Gives (tmS { ctx0 with tarm := true, tdl := 250, loc := .bucket 1 } 0) (.timerFineLoad 0x123) p) ∧
    (∃ b, Makes (tmS { ctx0 with tarm := true, tdl := 250, loc := .fine } 250) (.timerFire 0x123) b) ∧
    (∃ b, Makes (tmS { ctx0 with tarm := true, tdl := 250, loc := .fine } 350) (.timerFire 0x123) b) ∧
    (∃ b, Makes tuS .ppsEdge b) ∧
    (∃ b, Makes tkS .tickPulse b) ∧
    (∃ b, Makes tkS .followHoldover b) ∧
    (∃ b, Makes bkS .gtStopped b) :=
  ⟨⟨_, (h.1).1 (tmS { ctx0 with tarm := true, tdl := 250, loc := .bucket 1 } 0) 0x123 _ 1 (by decide) rfl rfl (by decide) (by decide) rfl⟩,
   ⟨_, (h.1).2 (tmS { ctx0 with tarm := true, tdl := 250, loc := .fine } 250) 0x123 _ (by decide) rfl rfl rfl (by decide) (by decide)⟩,
   ⟨_, (h.1).2 (tmS { ctx0 with tarm := true, tdl := 250, loc := .fine } 350) 0x123 _ (by decide) rfl rfl rfl (by decide) (by decide)⟩,
   ⟨_, (h.2).1 tuS (by decide)⟩,
   ⟨_, (h.2).2.1 tkS (by decide) (by decide) rfl (by decide)⟩,
   ⟨_, (h.2).2.2.1 tkS (by decide) (by decide) rfl⟩,
   ⟨_, (h.2).2.2.2 bkS rfl⟩⟩

/-- SlotBoundary, SlotBoundary_bad, SlotBoundary_empty, RevolutionBoundary, PeriodTaken. -/
theorem witness_BoundariesFollowGt (h : Obligations.BoundariesFollowGt) :
    (∃ b, Makes bdS .slotBoundary b) ∧
    (∃ b, Makes bdX .slotBoundary b) ∧
    (∃ b, Makes (ofBlk { bdS.blk with car := {} }) .slotBoundary b) ∧
    (∃ p, Gives rvS .revolutionBoundary p) ∧
    (∃ p, Gives ptS .periodTaken p) :=
  ⟨⟨_, (h.1 bdS (by decide) (by decide) (by decide) (by decide) rfl rfl (by decide)).2.1 (by decide) (by decide) (by decide) (by decide)⟩,
   ⟨_, (h.1 bdX (by decide) (by decide) (by decide) (by decide) rfl rfl (by decide)).2.2 (by decide) (by decide) (by decide) (by decide)⟩,
   ⟨_, (h.1 (ofBlk { bdS.blk with car := {} }) (by decide) (by decide) (by decide) (by decide) rfl rfl (by decide)).1 (.inl (by decide))⟩,
   ⟨_, h.2.1 rvS (by decide) (by decide) (by decide) rfl rfl rfl⟩,
   ⟨_, h.2.2 ptS (by decide) rfl (by decide) rfl rfl⟩⟩

/-- CarPeriod, CarSlotWrite, CarSlotRead, CarCtl, CarCtl_close. -/
theorem witness_CarouselRegisterWrites (h : Obligations.CarouselRegisterWrites) :
    (∃ b, Makes carS (.carPeriodWrite (wr 10)) b) ∧
    (∃ b, Makes carS (.carSlotDataWrite (wr 0x80090123)) b) ∧
    (∃ b, Makes carS (.carSlotDataRead 1) b) ∧
    (∃ b, Makes carS (.carCtlWrite (wr 7)) b) ∧
    (∃ p, Gives carW (.carCtlWrite (wr 3)) p) :=
  ⟨⟨_, h.1 carS (wr 10) rfl (by decide)⟩,
   ⟨_, h.2.1 carS (wr 0x80090123) (by decide)⟩,
   ⟨_, h.2.2.1 carS 1 (by decide) (by decide) rfl (by decide) (by decide)⟩,
   ⟨_, (h.2.2.2 carS (wr 7) rfl (by decide)).1 (by decide)⟩,
   ⟨_, (h.2.2.2 carW (wr 3) rfl (by decide)).2 (by decide) (by decide)⟩⟩

/-- FreqAdj, Step, Set, TuCtl. -/
theorem witness_TimeRegistersSteerGt (h : Obligations.TimeRegistersSteerGt) :
    (∃ b, Lands tuS (.tuFreqAdjLo (wr 5)) pgTU 0x054 (wr 5) b) ∧
    (∃ b, Lands tuS (.tuStepLo (wr 0xFFFF0000)) pgTU 0x05C (wr 0xFFFF0000) b) ∧
    (∃ b, Lands tuS (.tuSetLo (wr 0x100)) pgTU 0x064 (wr 0x100) b) ∧
    (∃ b, Lands tuS (.tuCtlWrite (wr 8)) pgTU 0x040 (wr 8) b) :=
  ⟨⟨_, h.1 tuS (wr 5) (by decide) (by decide)⟩,
   ⟨_, h.2.1 tuS (wr 0xFFFF0000) (by decide) (by decide)⟩,
   ⟨_, h.2.2.1 tuS (wr 0x100) (by decide) (by decide)⟩,
   ⟨_, h.2.2.2 tuS (wr 8) rfl (by decide) (by decide) (by decide) rfl rfl rfl⟩⟩

/-- RecordIntake, RecordAdmit, RecordAdmit_window, RecordAdmit_full. -/
theorem witness_RecordsAreStagedAndAdmitted (h : Obligations.RecordsAreStagedAndAdmitted) :
    (∃ b, Makes riS (.recordIntake 2 3) b) ∧
    (∃ p, Gives (raS false { pi := 20, pub := 10, ci := 5 }) (.recordAdmit 2 6) p) ∧
    (∃ p, Gives (raS true { pi := 20, pub := 10, ci := 5 }) (.recordAdmit 2 6) p) ∧
    (∃ p, Gives (raS true { pi := 20, pub := 10, ci := 5, ovfEp := true }) (.recordAdmit 2 6) p) :=
  ⟨⟨_, h.1 riS 2 3 { ring := 6, rcd := rec0, tok := some 4 } (by decide) rfl rfl (by decide) (by decide) (by decide)⟩,
   ⟨_, (h.2 (raS false { pi := 20, pub := 10, ci := 5 }) 6 [stgX] stg0 [stg0] (by decide) (by decide) (by decide) (by decide) (by decide) (by decide) (by decide) (by decide) (by decide) (by decide)).1 rfl (by decide) (by decide) (by decide)⟩,
   ⟨_, (h.2 (raS true { pi := 20, pub := 10, ci := 5 }) 6 [stgX] stg0 [stg0] (by decide) (by decide) (by decide) (by decide) (by decide) (by decide) (by decide) (by decide) (by decide) (by decide)).2.1 rfl (by decide) (by decide) rfl (by decide) (by decide) (by decide)⟩,
   ⟨_, (h.2 (raS true { pi := 20, pub := 10, ci := 5, ovfEp := true }) 6 [stgX] stg0 [stg0] (by decide) (by decide) (by decide) (by decide) (by decide) (by decide) (by decide) (by decide) (by decide) (by decide)).2.2 rfl (by decide) rfl rfl⟩⟩

/-- RingWriteIssue, RingWriteAccept, IndexWrite, IndexWriteAccept. -/
theorem witness_RingWritesAreIssuedAndPublished (h : Obligations.RingWritesAreIssuedAndPublished) :
    (∃ p, Gives rwS (.ringWriteIssue 6) p) ∧
    (∃ b, Makes waS (.ringWriteAccept 6) b) ∧
    (∃ p, Gives ixS (.indexWrite 6) p) ∧
    (∃ b, Makes iaS (.indexWriteAccept 6) b) :=
  ⟨⟨_, h.1 rwS 6 stgR 0x1000 false (by decide) (by decide) (by decide) (by decide) (by decide) (by decide) (by decide) (by decide)⟩,
   ⟨_, h.2.1 waS 6 mw0 [stgX] { stg0 with ph := .issued } [] rfl rfl rfl (by decide) rfl rfl⟩,
   ⟨_, h.2.2.1 ixS 6 _ _ _ (by decide) (by decide) (by decide) (by decide) (by decide) (fun q hq => absurd (show q ∈ [] from hq) List.not_mem_nil) (by decide) rfl (by decide +kernel)⟩,
   ⟨_, h.2.2.2 iaS 6 mwI 4 rfl rfl rfl⟩⟩

/-- RingCi, RingCi_bad, ClearFault, RingReset, RingReset_busy, VifShare, WindowExpiry. -/
theorem witness_RingRegistersAndWindows (h : Obligations.RingRegistersAndWindows) :
    (∃ b, Makes ciS (.erwRingCi (wr 21)) b) ∧
    (∃ b, Makes ciS (.erwRingCi (wr 22)) b) ∧
    (∃ b, Makes ciS (.clearFault (wr 0)) b) ∧
    (∃ b, Makes ciS (.ringReset (wr 0)) b) ∧
    (∃ b, Makes rwU (.ringReset (wr 0)) b) ∧
    (∃ b, Makes ciS (.erwVifShare (wr 0x05000000)) b) ∧
    (∃ p, Gives wxS (.windowExpiry 6) p) :=
  ⟨⟨_, (h.1 ciS (wr 21) (by decide)).1 (by decide)⟩,
   ⟨_, (h.1 ciS (wr 22) (by decide)).2 (by decide)⟩,
   ⟨_, (h.2.1 ciS (wr 0) rfl).1 (by decide) (by decide)⟩,
   ⟨_, ((h.2.1 ciS (wr 0) rfl).2 (by decide)).1 rfl (by decide)⟩,
   ⟨_, ((h.2.1 rwU (wr 0) rfl).2 (by decide)).2 (by decide)⟩,
   ⟨_, h.2.2.1 ciS (wr 0x05000000) (by decide)⟩,
   ⟨_, h.2.2.2 wxS 6 win0 (by decide) (by decide) (by decide) (by decide) (by decide)⟩⟩

/-- VifCreate, SetCtx, SetCtx_bad, SetRing, SetNotify, RingIdx, VmgrBadop. -/
theorem witness_VifCommandsConfigure (h : Obligations.VifCommandsConfigure) :
    (∃ b, Makes (vmS { gen := 7 } 1 1 1) (.vifCreate (wr 0)) b) ∧
    (∃ b, Makes (vmS vifA 0xFF00 0x100 1) (.setCtx (wr 0)) b) ∧
    (∃ b, Makes (vmS vifA 0xFF00 0x101 1) (.setCtx (wr 0)) b) ∧
    (∃ b, Makes (vmS vifA 6 2 1) (.setRing (wr 0)) b) ∧
    (∃ b, Makes (vmS vifA 6 0x109 1) (.setNotify (wr 0)) b) ∧
    (∃ b, Makes (vmS vifA 1 16 1) (.ringIdx (wr 0)) b) ∧
    (∃ b, Makes (vmS vifA 1 16 1) (.vmgrBadop (wr 0xC)) b) :=
  ⟨⟨_, (h (vmS { gen := 7 } 1 1 1) (wr 0) rfl rfl rfl).1 (by decide) rfl⟩,
   ⟨_, ((h (vmS vifA 0xFF00 0x100 1) (wr 0) rfl rfl rfl).2.1 (by decide) (.inl rfl)).1 (by decide) (by decide)⟩,
   ⟨_, ((h (vmS vifA 0xFF00 0x101 1) (wr 0) rfl rfl rfl).2.1 (by decide) (.inl rfl)).2 (by decide)⟩,
   ⟨_, (h (vmS vifA 6 2 1) (wr 0) rfl rfl rfl).2.2.1 (by decide) (.inl rfl) (by decide) (by decide) (fun j hj => by have h2 : j < 2 := hj; have h3 : j = 0 ∨ j = 1 := (by omega); rcases h3 with rfl | rfl <;> decide +kernel)⟩,
   ⟨_, (h (vmS vifA 6 0x109 1) (wr 0) rfl rfl rfl).2.2.2.1 (by decide) (.inl rfl)⟩,
   ⟨_, (h (vmS vifA 1 16 1) (wr 0) rfl rfl rfl).2.2.2.2.1 (by decide) rfl (by decide) (by decide +kernel) (by decide +kernel) (by decide +kernel) rfl (by decide)⟩,
   ⟨_, (h (vmS vifA 1 16 1) (wr 0xC) rfl rfl rfl).2.2.2.2.2 (by decide)⟩⟩

/-- VifReset, VifDestroy, PurgeEnd, Quiescence, Quiescence_release. -/
theorem witness_VifPurgeAndQuiescence (h : Obligations.VifPurgeAndQuiescence) :
    (∃ p, Gives vpS (.vifReset (wr 0)) p) ∧
    (∃ p, Gives vpS (.vifDestroy (wr 0)) p) ∧
    (∃ b, Makes (vqS { vifA with purging := true, due := [0x123] }) .purgeEnd b) ∧
    (∃ b, Makes (vqS { vifA with state := .resetting, marked := [6], done := false }) (.quiescence 2) b) ∧
    (∃ b, Makes (vqS { vifA with state := .releasing, marked := [6], done := false }) (.quiescence 2) b) :=
  ⟨⟨_, h.1 vpS (wr 0) (.vifReset (wr 0)) 2 .resetting rfl (.inl ⟨rfl, rfl, rfl⟩) (by decide) rfl rfl⟩,
   ⟨_, h.1 vpS (wr 0) (.vifDestroy (wr 0)) 3 .releasing rfl (.inr ⟨rfl, rfl, rfl⟩) (by decide) rfl rfl⟩,
   ⟨_, h.2.1 (vqS { vifA with purging := true, due := [0x123] }) rfl rfl (by intro c hc; obtain rfl := List.mem_singleton.mp hc; decide +kernel)⟩,
   ⟨_, (h.2.2 (vqS { vifA with state := .resetting, marked := [6], done := false }) 2 rfl (by decide) (by decide)).1 rfl⟩,
   ⟨_, (h.2.2 (vqS { vifA with state := .releasing, marked := [6], done := false }) 2 rfl (by decide) (by decide)).2 rfl⟩⟩

/-- Drain, Harvest, Drained, Snap, DirtyStart, DirtyStop, ChannelFree, DlCi, DlCi_bad. -/
theorem witness_DrainsAndHarvests (h : Obligations.DrainsAndHarvests) :
    (∃ p, Gives vdS (.drain (wr 0)) p) ∧
    (∃ p, Gives vdS (.harvest (wr 0)) p) ∧
    (∃ b, Makes vd2 (.drained 2) b) ∧
    (∃ b, Makes vd2 (.snap 4) b) ∧
    (∃ p, Gives dsS (.dirtyStart (wr 0)) p) ∧
    (∃ b, Makes vdS (.dirtyStop (wr 0)) b) ∧
    (∃ b, Makes chS (.dlChannelFree 4) b) ∧
    (∃ b, Makes chS (.vmgrDlCi (wr 9)) b) ∧
    (∃ b, Makes chS (.vmgrDlCi (wr 10)) b) :=
  ⟨⟨_, (h.1.1 vdS (wr 0) rfl rfl rfl).1 (by decide) rfl⟩,
   ⟨_, (h.1.1 vdS (wr 0) rfl rfl rfl).2 (by decide) rfl rfl⟩,
   ⟨_, h.1.2.1 vd2 2 (by decide) rfl (by decide) (by decide) (by decide) (by decide +kernel)⟩,
   ⟨_, h.1.2.2 vd2 4 (by decide) rfl (by decide) (by decide) (by decide)⟩,
   ⟨_, (h.2.1 dsS (wr 0) rfl rfl rfl).1 (by decide) rfl rfl⟩,
   ⟨_, (h.2.1 vdS (wr 0) rfl rfl rfl).2 (by decide) rfl⟩,
   ⟨_, h.2.2.1 chS 4 rfl (by decide) (by decide)⟩,
   ⟨_, (h.2.2.2 chS (wr 9) (by decide)).1 (by decide)⟩,
   ⟨_, (h.2.2.2 chS (wr 10) (by decide)).2 (by decide)⟩⟩

/-- Hvdb, Hvdb_free, Hvdb_denied, VifCi, VifCi_bad. -/
theorem witness_VifPagesAct (h : Obligations.VifPagesAct) :
    (∃ b, Makes vgS (.vifHvdb 2 1 0x55) b) ∧
    (∃ b, Makes vgS (.vifHvdb 3 1 0x55) b) ∧
    (∃ b, Makes vgS (.vifHvdb 2 9 0x55) b) ∧
    (∃ b, Makes vgS (.vifRingCi 2 1 1 9) b) ∧
    (∃ b, Makes vgS (.vifRingCi 2 1 1 4) b) :=
  ⟨⟨_, ((h.1 vgS 2 1 0x55 (by decide) (by decide)).1 (by decide)).1 rfl⟩,
   ⟨_, ((h.1 vgS 3 1 0x55 (by decide) (by decide)).1 (by decide)).2 (by decide)⟩,
   ⟨_, (h.1 vgS 2 9 0x55 (by decide) (by decide)).2 (by decide)⟩,
   ⟨_, (h.2 vgS 2 1 1 9 (by decide) (by decide) (by decide) (by decide) (by decide) (by decide) (by decide)).1 (by decide)⟩,
   ⟨_, (h.2 vgS 2 1 1 4 (by decide) (by decide) (by decide) (by decide) (by decide) (by decide) (by decide)).2 (by decide)⟩⟩

/-- LastLoad, LastLoad_walk, LastLoad_fault, Commit, Rollback, Abort_pass1, Abort_pass2, Abort_pending, Build, Refused_level, Refused_busy, Refused_pending, Refused_staged, Refused_previous, Refused_nothing, Refused_late, LastBadop. -/
theorem witness_ImageCommandsFollowTheStateMachine (h : Obligations.ImageCommandsFollowTheStateMachine) :
    (∃ b, Makes (loadX loadT true) (.lastLoad (wr 0)) b) ∧
    (∃ b, Makes (loadX .empty true) (.lastLoad (wr 0)) b) ∧
    (∃ b, Makes (loadX .empty false) (.lastLoad (wr 0)) b) ∧
    (∃ b, Makes (lastS true { inactive := .staged }) (.commit (wr 0)) b) ∧
    (∃ b, Makes (lastS true { inactive := .previous }) (.rollback (wr 0)) b) ∧
    (∃ b, Makes (lastS true { activity := .pass1 }) (.abort (wr 0)) b) ∧
    (∃ b, Makes (lastS true { activity := .pass2 }) (.abort (wr 0)) b) ∧
    (∃ b, Makes (lastS true { activity := .rollbackPend }) (.abort (wr 0)) b) ∧
    (∃ b, Makes (lastS false {}) (.build (wr 0)) b) ∧
    (∃ b, Makes (lastS false {}) (.lastLoad (wr 0)) b) ∧
    (∃ b, Makes (lastS false { activity := .pass1 }) (.build (wr 0)) b) ∧
    (∃ b, Makes (lastS false { activity := .commitPend }) (.rollback (wr 0)) b) ∧
    (∃ b, Makes (lastS false {}) (.commit (wr 0)) b) ∧
    (∃ b, Makes (lastS false {}) (.rollback (wr 0)) b) ∧
    (∃ b, Makes (lastS false {}) (.abort (wr 0)) b) ∧
    (∃ b, Makes (lastS false { activity := .commitPend, paused := true }) (.abort (wr 0)) b) ∧
    (∃ b, Makes (lastS false {}) (.lastBadop (wr 7)) b) :=
  ⟨⟨_, (h (loadX loadT true) (wr 0) rfl).1 (by decide) rfl rfl rfl _ (.ok _ _) rfl (by decide)⟩,
   ⟨_, (h (loadX .empty true) (wr 0) rfl).1 (by decide) rfl rfl rfl _ .wait rfl⟩,
   ⟨_, (h (loadX .empty false) (wr 0) rfl).1 (by decide) rfl rfl rfl _ (.fault _ _) rfl⟩,
   ⟨_, (h (lastS true { inactive := .staged }) (wr 0) rfl).2.1 (by decide) rfl rfl⟩,
   ⟨_, (h (lastS true { inactive := .previous }) (wr 0) rfl).2.2.1 (by decide) rfl rfl⟩,
   ⟨_, ((h (lastS true { activity := .pass1 }) (wr 0) rfl).2.2.2.1 (by decide) rfl).1 rfl⟩,
   ⟨_, ((h (lastS true { activity := .pass2 }) (wr 0) rfl).2.2.2.1 (by decide) rfl).2.1 rfl⟩,
   ⟨_, ((h (lastS true { activity := .rollbackPend }) (wr 0) rfl).2.2.2.1 (by decide) rfl).2.2 (.inr rfl)⟩,
   ⟨_, (h (lastS false {}) (wr 0) rfl).2.2.2.2.1 (by decide) rfl rfl rfl⟩,
   ⟨_, (h (lastS false {}) (wr 0) rfl).2.2.2.2.2.1 (.lastLoad (wr 0)) 1 5 (.inl ⟨rfl, rfl⟩) (by decide) (.inl ⟨rfl, .inl ⟨rfl, rfl⟩⟩)⟩,
   ⟨_, (h (lastS false { activity := .pass1 }) (wr 0) rfl).2.2.2.2.2.1 (.build (wr 0)) 5 1 (.inr (.inr (.inr (.inr ⟨rfl, rfl⟩)))) (by decide) (.inr (.inl ⟨rfl, by decide, by decide, .inl (.inl rfl)⟩))⟩,
   ⟨_, (h (lastS false { activity := .commitPend }) (wr 0) rfl).2.2.2.2.2.1 (.rollback (wr 0)) 3 2 (.inr (.inr (.inl ⟨rfl, rfl⟩))) (by decide) (.inr (.inr (.inl ⟨rfl, by decide, by decide, .inl rfl, by decide⟩)))⟩,
   ⟨_, (h (lastS false {}) (wr 0) rfl).2.2.2.2.2.1 (.commit (wr 0)) 2 3 (.inr (.inl ⟨rfl, rfl⟩)) (by decide) (.inr (.inr (.inr (.inl ⟨rfl, rfl, rfl, by decide⟩))))⟩,
   ⟨_, (h (lastS false {}) (wr 0) rfl).2.2.2.2.2.1 (.rollback (wr 0)) 3 4 (.inr (.inr (.inl ⟨rfl, rfl⟩))) (by decide) (.inr (.inr (.inr (.inr (.inl ⟨rfl, rfl, rfl, by decide⟩)))))⟩,
   ⟨_, (h (lastS false {}) (wr 0) rfl).2.2.2.2.2.1 (.abort (wr 0)) 4 6 (.inr (.inr (.inr (.inl ⟨rfl, rfl⟩)))) (by decide) (.inr (.inr (.inr (.inr (.inr ⟨rfl, rfl, .inl rfl⟩)))))⟩,
   ⟨_, (h (lastS false { activity := .commitPend, paused := true }) (wr 0) rfl).2.2.2.2.2.1 (.abort (wr 0)) 4 6 (.inr (.inr (.inr (.inl ⟨rfl, rfl⟩)))) (by decide) (.inr (.inr (.inr (.inr (.inr ⟨rfl, rfl, .inr rfl⟩)))))⟩,
   ⟨_, (h (lastS false {}) (wr 7) rfl).2.2.2.2.2.2 (by decide)⟩⟩

/-- Pass1_bad, Pass1_stop, Pass2_changed, Pass2_fault, BuildDone, BuildDone_one, Pass1_ok, Valid, Pass2_ok. -/
theorem witness_LoaderPassesAndBuildsEnd (h : Obligations.LoaderPassesAndBuildsEnd) :
    (∃ b, Makes (p1S 0) (.loadPass1Done ⟨[], none⟩) b) ∧
    (∃ b, Makes (p1S 0) (.loadPass1Done ⟨[], some 0⟩) b) ∧
    (∃ b, Makes (p2S (zPart + 1) 6408) (.loadPass2Done ⟨[], none⟩) b) ∧
    (∃ b, Makes (p2S 1 0) (.loadPass2Done ⟨[], some 0⟩) b) ∧
    (∃ b, Makes bldS .buildDone b) ∧
    (∃ p, Gives bldS .buildDone p) ∧
    (∃ b, Makes (p1S 272908) (.loadPass1Done p1R) b) ∧
    (∃ q : Prop, q) ∧
    (∃ b, Makes (p2S zPart 6408) (.loadPass2Done ⟨[], none⟩) b) :=
  ⟨⟨_, (((h.1 (p1S 0) ⟨[], none⟩ (.loadPass1Done ⟨[], none⟩) 0 false true (.inl ⟨rfl, rfl, rfl⟩) rfl rfl rfl).2 rfl).1 rfl (by decide +kernel)).1 { reason := 1, off := some 0 } (by decide +kernel)⟩,
   ⟨_, ((h.1 (p1S 0) ⟨[], some 0⟩ (.loadPass1Done ⟨[], some 0⟩) 0 false true (.inl ⟨rfl, rfl, rfl⟩) rfl rfl rfl).1 0 (by decide)).1 rfl⟩,
   ⟨_, (((h.1 (p2S (zPart + 1) 6408) ⟨[], none⟩ (.loadPass2Done ⟨[], none⟩) 0 false true (.inr ⟨rfl, rfl, rfl⟩) rfl rfl rfl).2 rfl).2 rfl (by decide)).2 (fun e => absurd (show (0 : Word) = 1 from by have e2 := (BitVec.add_zero _).trans (show zPart = zPart + 1 from e); exact (BitVec.add_right_inj _).mp e2) (by decide))⟩,
   ⟨_, ((h.1 (p2S 1 0) ⟨[], some 0⟩ (.loadPass2Done ⟨[], some 0⟩) 0 false true (.inr ⟨rfl, rfl, rfl⟩) rfl rfl rfl).1 0 p2_bad).2 rfl⟩,
   ⟨_, (h.2.2 bldS { ctl := 2, msg := 5 } rfl rfl rfl rfl rfl (by intro t ht; have e : bldS.blk.basicThreads { ctl := 2, msg := 5 } = [5] := (by decide +kernel); rw [e] at ht; obtain rfl := List.mem_singleton.mp ht; decide)).1 (by intro t ht; have e : bldS.blk.basicThreads { ctl := 2, msg := 5 } = [5] := (by decide +kernel); rw [e] at ht; obtain rfl := List.mem_singleton.mp ht; exact .inl (by decide +kernel))⟩,
   ⟨_, (h.2.2 bldS { ctl := 2, msg := 5 } rfl rfl rfl rfl rfl (by intro t ht; have e : bldS.blk.basicThreads { ctl := 2, msg := 5 } = [5] := (by decide +kernel); rw [e] at ht; obtain rfl := List.mem_singleton.mp ht; decide)).2 (by decide) (by decide) 0 (by decide +kernel) (by decide +kernel) (by decide +kernel)⟩,
   ⟨_, (((h.1 (p1S 272908) p1R (.loadPass1Done p1R) 0 false true (.inl ⟨rfl, rfl, rfl⟩) rfl rfl rfl).2 p1B_bad).1 rfl (Nat.le_of_eq p1B_lines)).2 (by rw [p1S_inst]; exact zImg_valid)⟩,
   ⟨_, h.2.1 (zImg zCrc) 0 zImg_valid⟩,
   ⟨_, (((h.1 (p2S zPart 6408) ⟨[], none⟩ (.loadPass2Done ⟨[], none⟩) 0 false true (.inr ⟨rfl, rfl, rfl⟩) rfl rfl rfl).2 rfl).2 rfl (by decide)).1 rfl⟩⟩

/-- BankFlip, RingSettle, RingSettle_window, RingSettle_last, CfgCrcCommit, CfgCrcRef. -/
theorem witness_SwitchesAndReferences (h : Obligations.SwitchesAndReferences) :
    (∃ p, Gives flipS .bankFlip p) ∧
    (∃ b, Makes (setlS ⟨[(6, {}), (9, {})]⟩) (.ringSettle 6) b) ∧
    (∃ b, Makes setlW (.ringSettle 6) b) ∧
    (∃ b, Makes (setlS ⟨[(6, {})]⟩) (.ringSettle 6) b) ∧
    (∃ b, Makes (lastS true { crcCur := 77 }) (.cfgCrcCommit (wr 0)) b) ∧
    (∃ b, Makes (lastS true { crcCur := 77 }) (.cfgCrcRef (wr 5)) b) :=
  ⟨⟨_, h.1 flipS rfl (by decide)⟩,
   ⟨_, (h.2.1 (setlS ⟨[(6, {}), (9, {})]⟩) 6 (by decide) (by decide) rfl (by decide)).2 (by decide)⟩,
   ⟨_, (h.2.1 setlW 6 (by decide) (by decide) rfl (by decide)).1 (by decide)⟩,
   ⟨_, (h.2.1 (setlS ⟨[(6, {})]⟩) 6 (by decide) (by decide) rfl (by decide)).2 (by decide)⟩,
   ⟨_, (h.2.2 (lastS true { crcCur := 77 }) (wr 0) rfl).1 (by decide)⟩,
   ⟨_, (h.2.2 (lastS true { crcCur := 77 }) (wr 5) rfl).2 (by decide)⟩⟩

/-- SegApply, SegApply_busy, SegFetch, XuInv, XuInv_page, XuInv_busy, XuInvDone. -/
theorem witness_SegmentsAndInvalidations (h : Obligations.SegmentsAndInvalidations) :
    (∃ p, Gives xuS (.segApply (wr 0)) p) ∧
    (∃ b, Makes xuBusy (.segApply (wr 0)) b) ∧
    (∃ b, Makes xuS (.segFetch (wr 0)) b) ∧
    (∃ p, Gives xuS (.xuInv (wr 0x201)) p) ∧
    (∃ p, Gives xuS (.xuInv (wr 0x102)) p) ∧
    (∃ b, Makes xuBusy (.xuInv (wr 0x201)) b) ∧
    (∃ b, Makes xuBusy .xuInvDone b) :=
  ⟨⟨_, ((h.1 xuS (wr 0) rfl).1 (by decide)).2 rfl⟩,
   ⟨_, ((h.1 xuBusy (wr 0) rfl).1 (by decide)).1 rfl⟩,
   ⟨_, (h.1 xuS (wr 0) rfl).2.1 (by decide)⟩,
   ⟨_, ((h.1 xuS (wr 0x201) rfl).2.2 (by decide)).2 rfl (by decide)⟩,
   ⟨_, ((h.1 xuS (wr 0x102) rfl).2.2 (by decide)).2 rfl (by decide)⟩,
   ⟨_, ((h.1 xuBusy (wr 0x201) rfl).2.2 (by decide)).1 rfl⟩,
   ⟨_, h.2 xuBusy { walks := [], held := {} } rfl (by decide) (by decide)⟩⟩

/-- WalkStart, WalkRead_err, WalkRead_absent, WalkRead_down, WalkRead_device, WalkRead_malformed, WalkRead_leaf, WalkRead_leafOnly, FaultReport, FaultReport_insert, FaultReport_waits. -/
theorem witness_WalksServeTheirOperations (h : Obligations.WalksServeTheirOperations) :
    (∃ p, Gives wsS .walkStart p) ∧
    (∃ b, Makes xuS (.walkReadResponse 4 .err) b) ∧
    (∃ b, Makes xuS (.walkReadResponse 4 (.ok 0)) b) ∧
    (∃ b, Makes xuS (.walkReadResponse 4 (.ok 0xABC001)) b) ∧
    (∃ b, Makes xuDev (.walkReadResponse 4 (.ok 0xABC001)) b) ∧
    (∃ b, Makes (leafS [req0] false) (.walkReadResponse 4 (.ok 0xABC02F)) b) ∧
    (∃ b, Makes (leafS [req0] false) (.walkReadResponse 4 (.ok 0xABC023)) b) ∧
    (∃ b, Makes (leafS [req0] true) (.walkReadResponse 4 (.ok 0xABC023)) b) ∧
    (∃ b, Makes repQ .faultReport b) ∧
    (∃ p, Gives repS .faultReport p) ∧
    (∃ b, Makes repW .faultReport b) :=
  ⟨⟨_, h.1 wsS req0 [{ req0 with off := 0x4000 }, { req0 with off := 0x3040 }] 0 rfl (by decide) (by decide +kernel) (by decide) (by decide) rfl (fun v hv => absurd hv (Nat.not_lt_zero v)) (by decide +kernel)⟩,
   ⟨_, (h.2.1 xuS 4 wlk .err rfl).1 (fun e k => by cases k)⟩,
   ⟨_, ((h.2.1 xuS 4 wlk (.ok 0) rfl).2 0 rfl).1 rfl⟩,
   ⟨_, (((h.2.1 xuS 4 wlk (.ok 0xABC001) rfl).2 _ rfl).2.1 (by decide) (by decide)).2 (by decide +kernel)⟩,
   ⟨_, (((h.2.1 xuDev 4 wlk (.ok 0xABC001) rfl).2 _ rfl).2.1 (by decide) (by decide)).1 (by decide +kernel)⟩,
   ⟨_, ((h.2.1 (leafS [req0] false) 4 _ (.ok 0xABC02F) rfl).2 _ rfl).2.2.1 (by decide) (by decide) rfl rfl⟩,
   ⟨_, ((h.2.1 (leafS [req0] false) 4 _ (.ok 0xABC023) rfl).2 _ rfl).2.2.2 (by decide) (by decide) (.inl rfl)⟩,
   ⟨_, ((h.2.1 (leafS [req0] true) 4 _ (.ok 0xABC023) rfl).2 _ rfl).2.2.2 (by decide) (by decide) (.inl rfl)⟩,
   ⟨_, (h.2.2 repQ rep0 [rep0] rfl).1 rfl⟩,
   ⟨_, ((h.2.2 repS rep0 [rep0] rfl).2 rfl (by decide) (by decide)).2 (by decide)⟩,
   ⟨_, ((h.2.2 repW rep0 [rep0] rfl).2 rfl (by decide) (by decide)).1 (by decide)⟩⟩

/-- Bad_hello, Bad_time, EventFrame_joins, EventFrame_local, EventFrame_held, EventFrame_vc0, EventFrame_pin, EventFrame_vc1, CreditFrame, TimeFrame, Sleep, SleepAck, Hello_up, Hello, Hello_self. -/
theorem witness_JuwaFramesArrive (h : Obligations.JuwaFramesArrive) :
    (∃ b, Makes (jlS {}) (.hello 1 [7]) b) ∧
    (∃ b, Makes (jlS jUp) (.timeFrame 1 [0]) b) ∧
    (∃ b, Makes (jlS { jUp with rx0 := [frm0] }) (.eventFrame 1 true (eventBeats frm0)) b) ∧
    (∃ b, Makes (jlS { jUp with rx0 := [frm0, frm0] }) (.eventFrame 1 false []) b) ∧
    (∃ p, Gives heldS (.eventFrame 1 true []) p) ∧
    (∃ b, Makes (jlS { jUp with rx0 := [frmT] }) (.eventFrame 1 false []) b) ∧
    (∃ b, Makes (jlS { jUp with rx0 := [{ frmT with pin := true }] }) (.eventFrame 1 false []) b) ∧
    (∃ b, Makes (jlS { jUp with rx1 := [{ frmT with vc := true }] }) (.eventFrame 1 true []) b) ∧
    (∃ b, Makes (jlS { jUp with trk := [(false, {}), (true, {}), (false, {})] }) (.creditFrame 1 [creditBeat 1 1]) b) ∧
    (∃ b, Makes timeJ (.timeFrame 1 timeF) b) ∧
    (∃ b, Makes (jlS jUp) (.sleep 1 (ctlF 2)) b) ∧
    (∃ b, Makes (jlS { jUp with sleepSent := true }) (.sleepAck 1 (ctlF 3)) b) ∧
    (∃ b, Makes (jlS { ready := true, helloSent := true }) (.hello 1 (helloF 0xA07)) b) ∧
    (∃ b, Makes (jlS {}) (.hello 1 (helloF 0xA07)) b) ∧
    (∃ b, Makes (jlS {}) (.hello 1 (helloF 0xA02)) b) :=
  ⟨⟨_, ((h (jlS {}) 1 (by decide)).1 [7] (by decide +kernel)).1⟩,
   ⟨_, (((h (jlS jUp) 1 (by decide)).1 [0] (by decide +kernel)).2 rfl).2.1⟩,
   ⟨_, ((h (jlS { jUp with rx0 := [frm0] }) 1 (by decide)).2.1 rfl).1 true (eventBeats frm0) frm0 (by decide +kernel) rfl (by decide) (by decide)⟩,
   ⟨_, (((h (jlS { jUp with rx0 := [frm0, frm0] }) 1 (by decide)).2.1 rfl).2.1 false frm0 [frm0] rfl (by decide) rfl (by decide) (by decide) rfl).2 rfl⟩,
   ⟨_, (((h heldS 1 (by decide)).2.1 rfl).2.1 true frm0 [] rfl (by decide) rfl (by decide) (by decide) rfl).1 rfl⟩,
   ⟨_, (((h (jlS { jUp with rx0 := [frmT] }) 1 (by decide)).2.1 rfl).2.2.1 false frmT [] 2 rfl (by decide) (by decide +kernel) (by decide)).2.2 rfl rfl (by decide)⟩,
   ⟨_, (((h (jlS { jUp with rx0 := [{ frmT with pin := true }] }) 1 (by decide)).2.1 rfl).2.2.1 false { frmT with pin := true } [] 2 rfl (by decide) (by decide +kernel) (by decide)).2.1 rfl rfl (by decide)⟩,
   ⟨_, (((h (jlS { jUp with rx1 := [{ frmT with vc := true }] }) 1 (by decide)).2.1 rfl).2.2.1 true { frmT with vc := true } [] 2 rfl (by decide) (by decide +kernel) (by decide)).1 rfl rfl⟩,
   ⟨_, ((h (jlS { jUp with trk := [(false, {}), (true, {}), (false, {})] }) 1 (by decide)).2.1 rfl).2.2.2.1 [creditBeat 1 1] 1 1 (by decide +kernel)⟩,
   ⟨_, ((h timeJ 1 (by decide)).2.1 rfl).2.2.2.2.1 timeF true true 200 100 150 (by decide +kernel)⟩,
   ⟨_, ((h (jlS jUp) 1 (by decide)).2.1 rfl).2.2.2.2.2.1 (ctlF 2) (by decide +kernel) rfl rfl (by decide)⟩,
   ⟨_, ((h (jlS { jUp with sleepSent := true }) 1 (by decide)).2.1 rfl).2.2.2.2.2.2 (ctlF 3) (by decide +kernel) rfl⟩,
   ⟨_, ((h (jlS { ready := true, helloSent := true }) 1 (by decide)).2.2 (helloF 0xA07) 0xA07 192 64 (by decide +kernel)).2 (by decide)⟩,
   ⟨_, ((h (jlS {}) 1 (by decide)).2.2 (helloF 0xA07) 0xA07 192 64 (by decide +kernel)).2 (by decide)⟩,
   ⟨_, ((h (jlS {}) 1 (by decide)).2.2 (helloF 0xA02) 0xA02 192 64 (by decide +kernel)).1 (by decide)⟩⟩

/-- Transmit_pin, Transmit_escaped, Transmit_origin, Escape, CreditReturn_batch, CreditReturn_time, WakeSend, HelloSend_up, HelloSend, PortUp, PortUp_waits, PortDown_down, PortDown, JlPortCtl_on, JlPortCtl_off, JlPortCtl_down. -/
theorem witness_JuwaPortsSend (h : Obligations.JuwaPortsSend) :
    (∃ p, Gives txS (.juwaTransmit 1 3) p) ∧
    (∃ p, Gives txE (.juwaTransmit 1 3) p) ∧
    (∃ p, Gives txO (.juwaTransmit 1 3) p) ∧
    (∃ b, Makes escS (.escape 1 3) b) ∧
    (∃ b, Makes (jlS { jUp with ret0 := 8, ret1 := 2, retSince := 4999 }) (.creditReturn 1) b) ∧
    (∃ b, Makes (jlS { jUp with ret1 := 1, retSince := 4936 }) (.creditReturn 1) b) ∧
    (∃ b, Makes wakS (.wakeSend 1) b) ∧
    (∃ b, Makes (jlS { ready := true, helloGot := true }) (.helloSend 1) b) ∧
    (∃ b, Makes (jlS { ready := true, helloSent := true, lastHello := 904 }) (.helloSend 1) b) ∧
    (∃ b, Makes (jlS { jUp with up := false }) (.portUp 1) b) ∧
    (∃ b, Makes (jlS {}) (.portUp 1) b) ∧
    (∃ b, Makes (jlS { helloGot := true }) (.portDown 1) b) ∧
    (∃ b, Makes dnS (.portDown 1) b) ∧
    (∃ b, Makes (jlS {}) (.jlPortCtl 1 (wr 1)) b) ∧
    (∃ b, Makes (jlS {}) (.jlPortCtl 1 (wr 0)) b) ∧
    (∃ b, Makes dnS (.jlPortCtl 1 (wr 0)) b) :=
  ⟨⟨_, ((h txS 1).1 (by decide) rfl).1 ⟨rfl, rfl⟩ 3 .pin { fr := { frmT with pin := true }, since := 9 } false (by decide) rfl (by decide +kernel) (.inr rfl)⟩,
   ⟨_, ((h txE 1).1 (by decide) rfl).1 ⟨rfl, rfl⟩ 3 .vc0 { fr := frmT, since := 20, escaped := true } true (by decide) rfl (by decide +kernel) (.inr rfl)⟩,
   ⟨_, ((h txO 1).1 (by decide) rfl).1 ⟨rfl, rfl⟩ 3 .vc1 { fr := frmT, since := 20, local? := some 0x42003 } true (by decide) rfl (by decide +kernel) (.inl rfl)⟩,
   ⟨_, ((h escS 1).1 (by decide) rfl).2.1 3 { fr := frmT, since := 20, dry := 256 } [{ fr := frmT, since := 50 }] rfl rfl rfl (by decide +kernel)⟩,
   ⟨_, ((h (jlS { jUp with ret0 := 8, ret1 := 2, retSince := 4999 }) 1).1 (by decide) rfl).2.2.1 ⟨rfl, rfl⟩ (by decide) (.inl (by decide +kernel)) (by decide)⟩,
   ⟨_, ((h (jlS { jUp with ret1 := 1, retSince := 4936 }) 1).1 (by decide) rfl).2.2.1 ⟨rfl, rfl⟩ (by decide) (.inr (.inr (by decide))) (by decide)⟩,
   ⟨_, ((h wakS 1).1 (by decide) rfl).2.2.2 ⟨rfl, rfl⟩ rfl ⟨3, by decide, by decide +kernel⟩ (.inr (by decide)) (by decide)⟩,
   ⟨_, ((h (jlS { ready := true, helloGot := true }) 1).2.1 (by decide) rfl).1 ⟨rfl, rfl⟩ rfl (.inl rfl) (by decide)⟩,
   ⟨_, ((h (jlS { ready := true, helloSent := true, lastHello := 904 }) 1).2.1 (by decide) rfl).1 ⟨rfl, rfl⟩ rfl (.inr (by decide)) (by decide)⟩,
   ⟨_, ((h (jlS { jUp with up := false }) 1).2.1 (by decide) rfl).2.1 rfl rfl⟩,
   ⟨_, ((h (jlS {}) 1).2.1 (by decide) rfl).2.2 (.inl rfl)⟩,
   ⟨_, (h (jlS { helloGot := true }) 1).2.2.1 rfl⟩,
   ⟨_, (h dnS 1).2.2.2.1 rfl (by decide)⟩,
   ⟨_, ((h (jlS {}) 1).2.2.2.2 (wr 1) (by decide)).1 (by decide)⟩,
   ⟨_, ((h (jlS {}) 1).2.2.2.2 (wr 0) (by decide)).2.1 (by decide) rfl⟩,
   ⟨_, ((h dnS 1).2.2.2.2 (wr 0) (by decide)).2.2 (by decide) rfl⟩⟩

/-- Access_size, Access_align, Access_alignRead, Access_unassigned, Access_reserved, Access_deny, Access_denyRead, Access_read, Access_overrun, Access_alias, Access_aliasRw, Access_locked, Access_disabled, Access_now, Access_held, Access_posted, Access_double, AccAsleep, AccAsleep_write. -/
theorem witness_RegisterAccessesAreChecked (h : Obligations.RegisterAccessesAreChecked) :
    (∃ b, Makes run0 (.registerWrite (acc 0x18040 1 7 1)) b) ∧
    (∃ b, Makes run0 (.registerWrite (acc 0x18042 2 7 1)) b) ∧
    (∃ b, Makes run0 (.registerRead (acc 0x18044 3 7 1)) b) ∧
    (∃ b, Makes run0 (.registerWrite (acc 0x38044 2 7 1)) b) ∧
    (∃ b, Makes run0 (.reservedPageAccess (acc 0x38044 2 7 1) false) b) ∧
    (∃ b, Makes run0 (.registerWrite (acc 0x18040 2 7 2)) b) ∧
    (∃ b, Makes run0 (.registerRead (acc 0x18040 2 7 2)) b) ∧
    (∃ b, Makes run0 (.registerRead (acc 0x18104 2 7 1)) b) ∧
    (∃ b, Makes postS (.registerWrite (acc 0x804C 2 0x70000000000 1)) b) ∧
    (∃ b, Makes run0 (.registerWrite (acc 0x19050 2 7 1)) b) ∧
    (∃ b, Makes run0 (.registerWrite (acc 0x19044 2 0xFFFFFFFF00000000 1)) b) ∧
    (∃ b, Makes run0 (.registerWrite (acc 0x18040 2 1 1)) b) ∧
    (∃ b, Makes disS (.registerWrite (acc 0x18048 2 1 1)) b) ∧
    (∃ b, Makes run0 (.registerWrite (acc 0x18048 2 0x1234 1)) b) ∧
    (∃ b, Makes defS (.registerWrite (acc 0x18048 2 0x1234 1)) b) ∧
    (∃ b, Makes defS (.registerWrite (acc 0x10040 2 0x1 1)) b) ∧
    (∃ b, Makes run0 (.registerWrite (acc 0x18048 3 0x1234000011111111 1)) b) ∧
    (∃ b, Makes slpS (.accAsleep (acc 0x18048 2 0x1234 1)) b) ∧
    (∃ b, Makes slpS (.registerWrite (acc 0x18048 2 0x1234 1)) b) :=
  ⟨⟨_, (h.1 run0 (acc 0x18040 1 7 1) rfl (by decide) (by decide)).1 (by decide) (by decide)⟩,
   ⟨_, ((h.1 run0 (acc 0x18042 2 7 1) rfl (by decide) (by decide)).2.1 (by decide) (by decide)).2 (by decide)⟩,
   ⟨_, ((h.1 run0 (acc 0x18044 3 7 1) rfl (by decide) (by decide)).2.1 (by decide) (by decide)).1⟩,
   ⟨_, (((h.1 run0 (acc 0x38044 2 7 1) rfl (by decide) (by decide)).2.2.1 rfl (by decide)).1 (by decide)).1 (by decide) |> And.left⟩,
   ⟨_, (((h.1 run0 (acc 0x38044 2 7 1) rfl (by decide) (by decide)).2.2.1 rfl (by decide)).1 (by decide)).2 (by decide) |> And.right⟩,
   ⟨_, (((h.1 run0 (acc 0x18040 2 7 2) rfl (by decide) (by decide)).2.2.1 rfl (by decide)).2 .last (by decide) (by decide)).2.2.1 (by decide)⟩,
   ⟨_, (((h.1 run0 (acc 0x18040 2 7 2) rfl (by decide) (by decide)).2.2.1 rfl (by decide)).2 .last (by decide) (by decide)).1 (by decide)⟩,
   ⟨_, (((h.1 run0 (acc 0x18104 2 7 1) rfl (by decide) (by decide)).2.2.1 rfl (by decide)).2 .last (by decide) (by decide)).2.1 (by decide) (by decide) (by decide)⟩,
   ⟨_, (((h.1 postS (acc 0x804C 2 0x70000000000 1) rfl (by decide) (by decide)).2.2.1 rfl (by decide)).2 .cpc (by decide) (by decide)).2.2.2.1 (by decide) (by decide) (by decide)⟩,
   ⟨_, ((((h.1 run0 (acc 0x19050 2 7 1) rfl (by decide) (by decide)).2.2.1 rfl (by decide)).2 .last (by decide) (by decide)).2.2.2.2.1 (by decide) (by decide) (by decide) (by decide)).1 (by decide) (by decide) (by decide) (by decide) (by decide)⟩,
   ⟨_, ((((h.1 run0 (acc 0x19044 2 0xFFFFFFFF00000000 1) rfl (by decide) (by decide)).2.2.1 rfl (by decide)).2 .last (by decide) (by decide)).2.2.2.2.1 (by decide) (by decide) (by decide) (by decide)).2.1 (by decide) (by decide) (by decide) (by decide) (by decide)⟩,
   ⟨_, ((((h.1 run0 (acc 0x18040 2 1 1) rfl (by decide) (by decide)).2.2.1 rfl (by decide)).2 .last (by decide) (by decide)).2.2.2.2.1 (by decide) (by decide) (by decide) (by decide)).2.2 rfl (by decide)⟩,
   ⟨_, ((((h.1 disS (acc 0x18048 2 1 1) rfl (by decide) (by decide)).2.2.1 rfl (by decide)).2 .last (by decide) (by decide)).2.2.2.2.1 (by decide) (by decide) (by decide) (by decide)).2.2 rfl (by decide)⟩,
   ⟨_, ((((h.1 run0 (acc 0x18048 2 0x1234 1) rfl (by decide) (by decide)).2.2.1 rfl (by decide)).2 .last (by decide) (by decide)).2.2.2.2.2 (by decide)).2.1 (by decide) (by decide)⟩,
   ⟨_, ((((h.1 defS (acc 0x18048 2 0x1234 1) rfl (by decide) (by decide)).2.2.1 rfl (by decide)).2 .last (by decide) (by decide)).2.2.2.2.2 (by decide)).2.2 (by decide) (by decide) (by decide) (by decide) (by decide) (by decide)⟩,
   ⟨_, ((((h.1 defS (acc 0x10040 2 0x1 1) rfl (by decide) (by decide)).2.2.1 rfl (by decide)).2 .tu (by decide) (by decide)).2.2.2.2.2 (by decide)).1 (by decide)⟩,
   ⟨_, (h.1 run0 (acc 0x18048 3 0x1234000011111111 1) rfl (by decide) (by decide)).2.2.2 rfl (by decide) (by decide) (by decide) (by decide) (by decide)⟩,
   ⟨_, (h.2 slpS (acc 0x18048 2 0x1234 1) rfl).1⟩,
   ⟨_, ((h.2 slpS (acc 0x18048 2 0x1234 1) rfl).2 (by decide) rfl (by decide)).1⟩⟩

/-- PgKey, PgKey_bad, PgStatclr, PgStatclr_stale, PostedWriteLand, PostedWriteLand_held, TrnApply, TrnApply_held, TrnFetch, TrnFetch_held, TrnEpoch, GlbInst, AdmitEn, AdmitEn_off, TrnDrained, AdmitStopped. -/
theorem witness_FabricRegistersAct (h : Obligations.FabricRegistersAct) :
    (∃ b, Makes run0 (.pgKey 6 (wr 0x6A53C)) b) ∧
    (∃ b, Makes run0 (.pgKey 6 (wr 0x7A53C)) b) ∧
    (∃ b, Makes seqS (.pgStatclr 6 (wr 0x05000402)) b) ∧
    (∃ b, Makes seqS (.pgStatclr 6 (wr 0x04000402)) b) ∧
    (∃ b, Makes postS (.postedWriteLand 2) b) ∧
    (∃ b, Makes postD (.postedWriteLand 4) b) ∧
    (∃ b, Makes (trnS false) (.trnApply (wr 0)) b) ∧
    (∃ b, Makes (trnS true) (.trnApply (wr 0)) b) ∧
    (∃ b, Makes (trnS false) (.trnFetch (wr 0)) b) ∧
    (∃ b, Makes (trnS true) (.trnFetch (wr 0)) b) ∧
    (∃ b, Makes (trnS false) (.trnEpoch (wr 0)) b) ∧
    (∃ b, Makes run0 (.glbInst (wr 0xA02)) b) ∧
    (∃ b, Makes glbS (.admitEn (wr 1)) b) ∧
    (∃ b, Makes glbS (.admitEn (wr 0)) b) ∧
    (∃ b, Makes (fabS { draining := true }) .trnDrained b) ∧
    (∃ b, Makes (fabS { regs := ⟨[(regKey 0 0x54, 0)]⟩ }) .admitStopped b) :=
  ⟨⟨_, ((h.1 run0 6 .last (wr 0x6A53C) rfl rfl (by decide) (by decide) (by decide) rfl).1 (by decide)).1 (by decide)⟩,
   ⟨_, ((h.1 run0 6 .last (wr 0x7A53C) rfl rfl (by decide) (by decide) (by decide) rfl).1 (by decide)).2 (by decide)⟩,
   ⟨_, ((h.1 seqS 6 .last (wr 0x05000402) rfl rfl (by decide) (by decide) (by decide) rfl).2 (by decide)).1 (by decide)⟩,
   ⟨_, ((h.1 seqS 6 .last (wr 0x04000402) rfl rfl (by decide) (by decide) (by decide) rfl).2 (by decide)).2 (by decide)⟩,
   ⟨_, (h.2.1 postS 2 .cpc { id := 1, al := .base, off := 0x4C, val := 800, defer := false, old := false } rfl rfl (by decide)).2 rfl (by decide)⟩,
   ⟨_, (h.2.1 postD 4 .tu { id := 1, al := .base, off := 0x4C, val := 800, defer := true, old := false } rfl rfl (by decide)).1 rfl⟩,
   ⟨_, ((h.2.2.1 (trnS false) (wr 0) rfl).1 (by decide)).1 rfl⟩,
   ⟨_, ((h.2.2.1 (trnS true) (wr 0) rfl).1 (by decide)).2 rfl⟩,
   ⟨_, (h.2.2.1 (trnS false) (wr 0) rfl).2.1 (by decide) |>.1 rfl⟩,
   ⟨_, ((h.2.2.1 (trnS true) (wr 0) rfl).2.1 (by decide)).2 rfl⟩,
   ⟨_, (h.2.2.1 (trnS false) (wr 0) rfl).2.2.1 (by decide)⟩,
   ⟨_, (h.2.2.1 run0 (wr 0xA02) rfl).2.2.2.1 (by decide)⟩,
   ⟨_, (h.2.2.1 glbS (wr 1) rfl).2.2.2.2 (by decide)⟩,
   ⟨_, (h.2.2.1 glbS (wr 0) rfl).2.2.2.2 (by decide)⟩,
   ⟨_, h.2.2.2.1 (fabS { draining := true }) rfl (by decide)⟩,
   ⟨_, h.2.2.2.2 (fabS { regs := ⟨[(regKey 0 0x54, 0)]⟩ }) (by decide) rfl (by decide)⟩⟩

/-- SioJudged, FioUsable, Window_good, Window_off, Window_pass, Window_start, Window_last, Window_fail, Window_both, CrystalTrip_unused, CrystalTrip_other, CrystalTrip_noref, FioTrip, FioCleared, DclkTrip. -/
theorem witness_CrystalsAreJudgedAndWatched (h : Obligations.CrystalsAreJudgedAndWatched) :
    (∃ b, Makes (ckB .sio {}) .sioJudged b) ∧
    (∃ b, Makes (ckB .fio {}) .fioUsable b) ∧
    (∃ b, Makes (ckB .run { xa := goodK }) (.xchkWindow false 8200) b) ∧
    (∃ b, Makes (ckB .run { xa := goodK }) (.xchkWindow false 8300) b) ∧
    (∃ b, Makes (ckB .run { xb := { passes := 1, prev := some 8193 } }) (.xchkWindow true 8191) b) ∧
    (∃ b, Makes (ckB .check lastK) (.xchkWindow true 8192) b) ∧
    (∃ b, Makes (ckB .run lastK) (.xchkWindow true 8192) b) ∧
    (∃ b, Makes (ckB .run lastK) (.xchkWindow true 8200) b) ∧
    (∃ b, Makes (ckB .run bothK) (.xchkWindow true 8200) b) ∧
    (∃ b, Makes (ckB .run { xb := goodK }) (.crystalMonitorTrip true) b) ∧
    (∃ p, Gives (ckB .run { xa := goodK, xb := goodK, lockD := true, lockM := true, lockT := true, mhz := 1600 }) (.crystalMonitorTrip false) p) ∧
    (∃ p, Gives (ckB .run { xa := goodK, lockD := true, lockM := true, mhz := 1600 }) (.crystalMonitorTrip false) p) ∧
    (∃ b, Makes (ckB .run {}) .fioMonitorTrip b) ∧
    (∃ b, Makes (ckB .run { fioBad := true }) .fioBadCleared b) ∧
    (∃ b, Makes (ckB .run dpK) .dclkMonitorTrip b) :=
  ⟨⟨_, (h.1 (ckB .sio {})).1 rfl (by decide)⟩,
   ⟨_, (h.1 (ckB .fio {})).2 rfl (by decide)⟩,
   ⟨_, (h.2.1 (ckB .run { xa := goodK }) false 8200 rfl rfl rfl).1 rfl (by decide +kernel)⟩,
   ⟨_, (h.2.1 (ckB .run { xa := goodK }) false 8300 rfl rfl rfl).2.1 rfl (by decide +kernel)⟩,
   ⟨_, (h.2.1 (ckB .run { xb := { passes := 1, prev := some 8193 } }) true 8191 rfl rfl rfl).2.2.1 rfl (by decide +kernel) (by intro q hq; cases hq; decide +kernel) (by decide +kernel)⟩,
   ⟨_, ((h.2.1 (ckB .check lastK) true 8192 rfl rfl rfl).2.2.2.1 rfl (by decide +kernel) (by intro q hq; cases hq; decide +kernel) (by decide +kernel)).1 rfl⟩,
   ⟨_, ((h.2.1 (ckB .run lastK) true 8192 rfl rfl rfl).2.2.2.1 rfl (by decide +kernel) (by intro q hq; cases hq; decide +kernel) (by decide +kernel)).2 (by decide) rfl rfl⟩,
   ⟨_, ((h.2.1 (ckB .run lastK) true 8200 rfl rfl rfl).2.2.2.2 rfl (fun k => absurd (k.2 8192 rfl) (by decide +kernel))).1 (by decide)⟩,
   ⟨_, ((h.2.1 (ckB .run bothK) true 8200 rfl rfl rfl).2.2.2.2 rfl (fun k => absurd (k.2 8192 rfl) (by decide +kernel))).2 (by decide)⟩,
   ⟨_, (h.2.2.1 (ckB .run { xb := goodK }) true rfl rfl).1 (.inr (by decide))⟩,
   ⟨_, (h.2.2.1 (ckB .run { xa := goodK, xb := goodK, lockD := true, lockM := true, lockT := true, mhz := 1600 }) false rfl rfl).2 (by decide) rfl rfl rfl⟩,
   ⟨_, (h.2.2.1 (ckB .run { xa := goodK, lockD := true, lockM := true, mhz := 1600 }) false rfl rfl).2 (by decide) rfl rfl rfl⟩,
   ⟨_, (h.2.2.2 (ckB .run {})).1 rfl rfl⟩,
   ⟨_, (h.2.2.2 (ckB .run { fioBad := true })).2.1 rfl⟩,
   ⟨_, (h.2.2.2 (ckB .run dpK)).2.2 rfl (by decide)⟩⟩

/-- PllLock_first, PllLock_mpll, PllLock_coast, PllLock_bad, PllLock_tpll, PllLock_start, PllStartNoref, CpcDpll, CpcDpll_coast, CpcDpll_throttled, CpcSrc, CpcSrc_hangs, Recheck, SlewDone, MuxHung_dref, MuxHung_dclk, MuxHung_mclk, UnitGate, UnitGate_off. -/
theorem witness_PllsSlewAndMultiplexersSwitch (h : Obligations.PllsSlewAndMultiplexersSwitch) :
    (∃ b, Makes (ckB .lock { locking := true }) (.pllLock .dpll) b) ∧
    (∃ b, Makes (ckB .lock { locking := true }) (.pllLock .mpll) b) ∧
    (∃ b, Makes (ckB .run coK) (.pllLock .dpll) b) ∧
    (∃ b, Makes (ckB .run { locking := true, lockM := true, dpllBad := true, dclkUsed := true }) (.pllLock .dpll) b) ∧
    (∃ b, Makes (ckB .run { tLocking := true }) (.pllLock .tpll) b) ∧
    (∃ b, Makes lockS (.pllLock .tpll) b) ∧
    (∃ b, Makes norefS .pllStartNoref b) ∧
    (∃ b, Lands (ckB .run { lockD := true, mhz := 1600 }) (.cpcDpll (wr 1211)) pgCPC 0x04C (wr 1211) b) ∧
    (∃ b, Lands (ckB .run { coast := true, mhz := 400 }) (.cpcDpll (wr 100)) pgCPC 0x04C (wr 100) b) ∧
    (∃ b, Lands thrS (.cpcDpll (wr 1700)) pgCPC 0x04C (wr 1700) b) ∧
    (∃ b, Lands (ckB .run srcK) (.cpcSrc (wr 3)) pgCPC 0x040 (wr 3) b) ∧
    (∃ b, Lands (ckB .run hngK) (.cpcSrc (wr 2)) pgCPC 0x040 (wr 2) b) ∧
    (∃ b, Lands (ckB .run { xa := goodK, xb := { passes := 2 }, chkStopped := true }) (.recheck (wr 0)) pgCPC 0x074 (withOp (wr 0) 3 1) b) ∧
    (∃ b, Makes (ckB .run { slewing := true, mhz := 1600 }) .slewDone b) ∧
    (∃ b, Makes (ckB .run { hung := some .dref, ns := 90000000 }) (.clkMuxHung .dref) b) ∧
    (∃ b, Makes (ckB .run { hung := some .dclk, ns := 90000000 }) (.clkMuxHung .dclk) b) ∧
    (∃ b, Makes (ckB .run { hung := some .mclk, ns := 90000000 }) (.clkMuxHung .mclk) b) ∧
    (∃ b, Makes (ckB .run { dclk := 100000 }) (.unitGate .station 3 true) b) ∧
    (∃ b, Makes (ckB .run { gated := [(.station, 3)] }) (.unitGate .station 3 false) b) :=
  ⟨⟨_, ((h.1 (ckB .lock { locking := true }) rfl).1 rfl rfl rfl rfl).1 rfl (by decide)⟩,
   ⟨_, ((h.1 (ckB .lock { locking := true }) rfl).1 rfl rfl rfl rfl).2 (by decide)⟩,
   ⟨_, ((h.1 (ckB .run coK) rfl).2.1 rfl rfl (by decide) rfl).1 rfl rfl (by decide)⟩,
   ⟨_, (h.1 (ckB .run { locking := true, lockM := true, dpllBad := true, dclkUsed := true }) rfl).2.2.1 rfl rfl rfl rfl rfl (by decide) (by decide)⟩,
   ⟨_, ((h.1 (ckB .run { tLocking := true }) rfl).2.2.2 rfl rfl (by decide)).1 (by decide)⟩,
   ⟨_, ((h.1 lockS rfl).2.2.2 rfl rfl (by decide)).2 rfl rfl rfl rfl rfl⟩,
   ⟨_, h.2.1 norefS rfl rfl rfl (by decide) rfl⟩,
   ⟨_, ((h.2.2.1 (ckB .run { lockD := true, mhz := 1600 }) (wr 1211) rfl).1 (by decide)).2.1 rfl ⟨rfl, rfl⟩⟩,
   ⟨_, ((h.2.2.1 (ckB .run { coast := true, mhz := 400 }) (wr 100) rfl).1 (by decide)).2.2 rfl (.inr rfl)⟩,
   ⟨_, ((h.2.2.1 thrS (wr 1700) rfl).1 (by decide)).1 rfl⟩,
   ⟨_, ((h.2.2.1 (ckB .run srcK) (wr 3) rfl).2.1 (by decide) rfl rfl rfl).1 (.inr (by decide)) (.inr (by decide)) (.inr (by decide))⟩,
   ⟨_, ((h.2.2.1 (ckB .run hngK) (wr 2) rfl).2.1 (by decide) rfl rfl rfl).2 (by decide) (by decide) (by decide) (by decide)⟩,
   ⟨_, (h.2.2.1 (ckB .run { xa := goodK, xb := { passes := 2 }, chkStopped := true }) (wr 0) rfl).2.2 (by decide)⟩,
   ⟨_, h.2.2.2.1 (ckB .run { slewing := true, mhz := 1600 }) rfl (by decide)⟩,
   ⟨_, (h.2.2.2.2.1 (ckB .run { hung := some .dref, ns := 90000000 }) .dref rfl (by decide)).1 rfl⟩,
   ⟨_, (h.2.2.2.2.1 (ckB .run { hung := some .dclk, ns := 90000000 }) .dclk rfl (by decide)).2.1 rfl⟩,
   ⟨_, (h.2.2.2.2.1 (ckB .run { hung := some .mclk, ns := 90000000 }) .mclk rfl (by decide)).2.2 rfl⟩,
   ⟨_, (h.2.2.2.2.2 (ckB .run { dclk := 100000 }) .station 3 (by decide)).2 rfl (by decide) (by decide) (by decide) (by decide)⟩,
   ⟨_, (h.2.2.2.2.2 (ckB .run { gated := [(.station, 3)] }) .station 3 (by decide)).1⟩⟩

/-- Sleep_taken, Sleep_busy, Sleep_nosave, Sleep_nowake, Sleep_wake, Sleep_wakeReq, WakeCause_run, Sleep_notidle, PwrBadop, Enter_first, Enter_wait, Enter_last, Enter_fault, WakeCause_entry, WakeCause, WakeCause_none, WakeCause_clock, WakeRestore, Woke, RingsRestored. -/
theorem witness_IntermissionSleepsAndWakes_1 (h : Obligations.IntermissionSleepsAndWakes) :
    (∃ b, Lands (pwS pwRun pwOk) (.pwrSleep (wr 0)) pgPWR 0x040 (withOp (wr 0) 3 1) b) ∧
    (∃ b, Lands (pwS { pwRun with busy := true } pwOk) (.pwrSleep (wr 0)) pgPWR 0x040 (withOp (wr 0) 3 1) b) ∧
    (∃ b, Lands (pwS pwRun [(regKey 3 0x54, 0)]) (.pwrSleep (wr 0)) pgPWR 0x040 (withOp (wr 0) 3 1) b) ∧
    (∃ b, Lands (pwS pwRun [(regKey 3 0x48, 0x105), (regKey 3 0x54, 0)]) (.pwrSleep (wr 0)) pgPWR 0x040 (withOp (wr 0) 3 1) b) ∧
    (∃ b, Lands pwW (.pwrSleep (wr 0)) pgPWR 0x040 (withOp (wr 0) 3 1) b) ∧
    (∃ b, Lands pwQ (.pwrSleep (wr 0)) pgPWR 0x040 (withOp (wr 0) 3 1) b) ∧
    (∃ b, Makes pwQ (.wakeCause 0) b) ∧
    (∃ b, Lands pwN (.pwrSleep (wr 0)) pgPWR 0x040 (withOp (wr 0) 3 1) b) ∧
    (∃ b, Lands (pwS pwRun pwOk) (.pwrBadop (wr 3)) pgPWR 0x040 (withOp (wr 3) 3 (undefOp (wr 3).data 3 1 1)) b) ∧
    (∃ b, Makes (enS {} { ctx0 with tarm := true, tdl := 90000, pinned := true }) (.intermissionEnter true) b) ∧
    (∃ b, Makes doneS (.intermissionEnter false) b) ∧
    (∃ b, Makes doneS (.intermissionEnter true) b) ∧
    (∃ p, Gives (enS badP ctx0) (.intermissionEnter false) p) ∧
    (∃ b, Makes (enS {} ctx0) (.wakeCause 0x12) b) ∧
    (∃ b, Makes asleepS (.wakeCause 2) b) ∧
    (∃ b, Makes asleepS (.wakeCause 4) b) ∧
    (∃ b, Makes asleepS (.wakeCause 0x10) b) ∧
    (∃ b, Makes (wkS .waking 600000) .wakeRestore b) ∧
    (∃ b, Makes (wkS .opening 1300000) .woke b) ∧
    (∃ b, Makes rrT (.ringsRestored []) b) :=
  ⟨⟨_, ((h.1 (pwS pwRun pwOk) (wr 0) rfl).1 (by decide)).1 rfl (by decide) (by decide) (by decide) ⟨rfl, by decide⟩⟩,
   ⟨_, ((h.1 (pwS { pwRun with busy := true } pwOk) (wr 0) rfl).1 (by decide)).2 1 (.inl ⟨rfl, rfl⟩)⟩,
   ⟨_, ((h.1 (pwS pwRun [(regKey 3 0x54, 0)]) (wr 0) rfl).1 (by decide)).2 3 (.inr (.inl ⟨rfl, rfl, by decide⟩))⟩,
   ⟨_, ((h.1 (pwS pwRun [(regKey 3 0x48, 0x105), (regKey 3 0x54, 0)]) (wr 0) rfl).1 (by decide)).2 4 (.inr (.inr (.inl ⟨rfl, rfl, by decide, by decide⟩)))⟩,
   ⟨_, ((h.1 pwW (wr 0) rfl).1 (by decide)).2 5 (.inr (.inr (.inr (.inl ⟨rfl, rfl, by decide, by decide, by decide⟩))))⟩,
   ⟨_, ((h.1 pwQ (wr 0) rfl).1 (by decide)).2 5 (.inr (.inr (.inr (.inl ⟨rfl, rfl, by decide, by decide, by decide⟩))))⟩,
   ⟨_, (h.2.2.1 pwQ 0).2.1 (by decide) (by decide)⟩,
   ⟨_, ((h.1 pwN (wr 0) rfl).1 (by decide)).2 2 (.inr (.inr (.inr (.inr ⟨rfl, rfl, by decide, by decide, by decide, fun k => absurd k.2 (by decide)⟩))))⟩,
   ⟨_, (h.1 (pwS pwRun pwOk) (wr 3) rfl).2 (by decide)⟩,
   ⟨_, (h.2.1 (enS {} { ctx0 with tarm := true, tdl := 90000, pinned := true }) rfl).1 rfl (by decide +kernel) 0x123 _ rfl (by decide +kernel) true⟩,
   ⟨_, ((h.2.1 doneS rfl).2.1 rfl (by decide +kernel)).1⟩,
   ⟨_, (((h.2.1 doneS rfl).2.1 rfl (by decide +kernel)).2 (by decide +kernel)).1⟩,
   ⟨_, (h.2.1 (enS badP ctx0) rfl).2.2 svw 1 rfl (by decide +kernel) (by decide +kernel) rfl (by decide +kernel) false⟩,
   ⟨_, (h.2.2.1 (enS {} ctx0) 0x12).1 rfl⟩,
   ⟨_, (h.2.2.1 asleepS 2).2.2.2 rfl (by decide)⟩,
   ⟨_, (h.2.2.1 asleepS 4).2.2.1 rfl (by decide)⟩,
   ⟨_, (h.2.2.1 asleepS 0x10).2.2.2 rfl (by decide)⟩,
   ⟨_, (h.2.2.2.1 (wkS .waking 600000) rfl (by decide +kernel)).1⟩,
   ⟨_, h.2.2.2.2.1 (wkS .opening 1300000) rfl (by decide +kernel)⟩,
   ⟨_, ((h.2.2.2.2.2 rrT rfl).1 [] rfl).1 (by decide +kernel) rfl⟩⟩

/-- RingsRestored_some, RingsRestored_line, Reloaded, WakeRestore_snapshot. -/
theorem witness_IntermissionSleepsAndWakes_2 (h : Obligations.IntermissionSleepsAndWakes) :
    (∃ b, Makes rrS (.ringsRestored [(5, .ok (List.replicate 64 3))]) b) ∧
    (∃ q : Prop, q) ∧
    (∃ b, Makes rrT (.reloaded []) b) ∧
    (∃ q : Prop, q) :=
  ⟨⟨_, ((h.2.2.2.2.2 rrS rfl).1 [(5, .ok (List.replicate 64 3))] rfl).2 (.inr (by decide +kernel))⟩,
   ⟨_, (h.2.2.2.2.2 rrS rfl).2.1 5 _ (List.replicate 64 3) (by decide) (by decide +kernel) rfl rfl⟩,
   ⟨_, (h.2.2.2.2.2 rrT rfl).2.2 (.inl rfl) rfl (by decide)⟩,
   ⟨_, (h.2.2.2.1 (wkS .waking 600000) rfl (by decide +kernel)).2 ⟨⟨[(regKey 6 0x48, 77)]⟩, .empty, [], ⟨[(2, {})]⟩, ⟨[(3, {})]⟩⟩ rfl⟩⟩

/-- SnSwitch, SnSwitch_inhibit, SnReturn_main, SnReturn, PwrSnTest, PwrSnTest_force. -/
theorem witness_TheSafetyNetMovesToBackup (h : Obligations.TheSafetyNetMovesToBackup) :
    (∃ p, Gives snS .snSwitch p) ∧
    (∃ b, Makes (pwS pwRun [(regKey 3 0x70, 2)]) .snSwitch b) ∧
    (∃ b, Makes (pwS { pwRun with aonGood := false } []) .snReturn b) ∧
    (∃ b, Makes bkupS .snReturn b) ∧
    (∃ b, Lands snS (.pwrSnTest (wr 2)) pgPWR 0x070 (wr 2) b) ∧
    (∃ b, Lands snS (.pwrSnTest (wr 1)) pgPWR 0x070 (wr 1) b) :=
  ⟨⟨_, h.1 snS rfl (by decide) (by decide) (by decide)⟩,
   ⟨_, h.2.1 (pwS pwRun [(regKey 3 0x70, 2)]) (by decide) (by decide) (.inr (by decide))⟩,
   ⟨_, h.2.2.1 (pwS { pwRun with aonGood := false } []) (.inl rfl)⟩,
   ⟨_, h.2.2.2.1 bkupS rfl (by decide)⟩,
   ⟨_, (h.2.2.2.2 snS (wr 2) rfl (by decide)).1 (.inl (by decide))⟩,
   ⟨_, (h.2.2.2.2 snS (wr 1) rfl (by decide)).2 (by decide) rfl⟩⟩

/-- Take, Take_held, Release, Release_other, MbxIdle, Info, Badop, Badop_known, Badop_refused, Info_refused, PresenceOpen_any, PresenceOpen_refused, Recovery_awl. -/
theorem witness_TheMailboxServesItsOwner (h : Obligations.TheMailboxServesItsOwner) :
    (∃ b, Lands (rmS { ready := true }) (.take (wr 0)) pgRM 0x054 (withOp (wr 0) 1 1) b) ∧
    (∃ b, Lands (rmS { rmOwn with owner := 3 }) (.take (wr 0)) pgRM 0x054 (withOp (wr 0) 1 1) b) ∧
    (∃ b, Lands (rmS rmOwn) (.release (wr 0)) pgRM 0x054 (withOp (wr 0) 2 2) b) ∧
    (∃ b, Lands (rmS { rmOwn with owner := 3 }) (.release (wr 0)) pgRM 0x054 (withOp (wr 0) 2 2) b) ∧
    (∃ b, Makes (rmS rmOwn) .mbxIdleTimeout b) ∧
    (∃ b, Lands (rmS rmOwn) (.info (wr 0)) pgRM 0x058 (cmdW 1) b) ∧
    (∃ b, Lands (rmS rmOwn) (.mbxBadop (wr 2)) pgRM 0x058 (withOp (wr 2) 0xFF 2) b) ∧
    (∃ b, Lands (rmS rmOwn) (.mbxBadop (wr 5)) pgRM 0x058 (withOp (wr 5) 0xFF 0) b) ∧
    (∃ b, Lands (rmS rmDown) (.mbxBadop (wr 2)) pgRM 0x058 (withOp (wr 2) 0xFF 2) b) ∧
    (∃ b, Lands (rmS rmDown) (.info (wr 0)) pgRM 0x058 (cmdW 1) b) ∧
    (∃ q : Prop, q) ∧
    (∃ b, Lands (ofBlk ((rmB rmDown []).presence true)) (.presenceOpen (wr 0) true) pgRM 0x058 (cmdW 8) b) ∧
    (∃ b, Lands (rmS { rmOwn with recovery := true }) (.awl (wr 0)) pgRM 0x058 (cmdW 10) b) :=
  ⟨⟨_, ((h (rmS { ready := true }) (wr 0) rfl).1 (by decide) (by decide)).1 rfl⟩,
   ⟨_, ((h (rmS { rmOwn with owner := 3 }) (wr 0) rfl).1 (by decide) (by decide)).2 rfl⟩,
   ⟨_, ((h (rmS rmOwn) (wr 0) rfl).2.1 (by decide) (by decide)).1 (by decide)⟩,
   ⟨_, ((h (rmS { rmOwn with owner := 3 }) (wr 0) rfl).2.1 (by decide) (by decide)).2 (by decide)⟩,
   ⟨_, (h (rmS rmOwn) (wr 0) rfl).2.2.1 rfl rfl (by decide) (by decide)⟩,
   ⟨_, (h (rmS rmOwn) (wr 0) rfl).2.2.2.1 (by decide) (by decide)⟩,
   ⟨_, ((h (rmS rmOwn) (wr 2) rfl).2.2.2.2.1 2 (by decide) (by decide)).1 (by decide)⟩,
   ⟨_, ((h (rmS rmOwn) (wr 5) rfl).2.2.2.2.1 0 (by decide) (by decide)).1 (by decide)⟩,
   ⟨_, ((h (rmS rmDown) (wr 2) rfl).2.2.2.2.1 2 (by decide) (by decide)).2 (by decide)⟩,
   ⟨_, (h (rmS rmDown) (wr 0) rfl).2.2.2.2.2.1 (.info (wr 0), 1) (by simp) (by decide) (by decide)⟩,
   ⟨_, ((h (rmS rmOwn) (wr 0) rfl).2.2.2.2.2.2.1 true).1⟩,
   ⟨_, ((h (rmS rmDown) (wr 0) rfl).2.2.2.2.2.2.1 true).2 (by decide) (by decide)⟩,
   ⟨_, (h (rmS { rmOwn with recovery := true }) (wr 0) rfl).2.2.2.2.2.2.2 (.awl (wr 0), 10) (by simp) (by decide) (by decide) rfl⟩⟩

/-- FwStage_reads, FwStage_fault, FwStage_arg, FwActivate_arg, FwActivate_down, FwActivate, LastUpdate_arg, LastUpdate_level, LastUpdate, LastUpdate_refused, LastUpdate_denied, LastFactory_no, LastFactory, LastFactory_refused. -/
theorem witness_FirmwareAndImageCommandsStart (h : Obligations.FirmwareAndImageCommandsStart) :
    (∃ b, Lands fwS (.fwStage (wr 0)) pgRM 0x058 (cmdW 4) b) ∧
    (∃ b, Lands (rmS rmOwn) (.fwStage (wr 0)) pgRM 0x058 (cmdW 4) b) ∧
    (∃ b, Lands (rmS (rmArg 64)) (.fwStage (wr 0)) pgRM 0x058 (cmdW 4) b) ∧
    (∃ b, Lands (rmS rmOwn) (.fwActivate (wr 0)) pgRM 0x058 (cmdW 5) b) ∧
    (∃ b, Lands (rmS (rmArg 1)) (.fwActivate (wr 0)) pgRM 0x058 (cmdW 5) b) ∧
    (∃ b, Lands (rmS (rmArg 0)) (.fwActivate (wr 0)) pgRM 0x058 (cmdW 5) b) ∧
    (∃ b, Lands (rmS (rmArg 64)) (.lastUpdate (wr 0)) pgRM 0x058 (cmdW 6) b) ∧
    (∃ b, Lands (rmS rmOwn) (.lastUpdate (wr 0)) pgRM 0x058 (cmdW 6) b) ∧
    (∃ b, Lands (rmX .idle) (.lastUpdate (wr 0)) pgRM 0x058 (cmdW 6) b) ∧
    (∃ b, Lands (rmX .pass1) (.lastUpdate (wr 0)) pgRM 0x058 (cmdW 6) b) ∧
    (∃ b, Lands rmY (.lastUpdate (wr 0)) pgRM 0x058 (cmdW 6) b) ∧
    (∃ b, Lands (rmS { rmOwn with sealBroken := true }) (.lastFactory (wr 0)) pgRM 0x058 (cmdW 7) b) ∧
    (∃ b, Lands (rmS rmGr) (.lastFactory (wr 0)) pgRM 0x058 (cmdW 7) b) ∧
    (∃ b, Lands rmF (.lastFactory (wr 0)) pgRM 0x058 (cmdW 7) b) :=
  ⟨⟨_, ((h fwS (wr 0) rfl (by decide)).1 (by decide)).2.1 (by decide)⟩,
   ⟨_, ((h (rmS rmOwn) (wr 0) rfl (by decide)).1 (by decide)).2.2 1 (by decide) (by decide)⟩,
   ⟨_, ((h (rmS (rmArg 64)) (wr 0) rfl (by decide)).1 (by decide)).1 (by decide)⟩,
   ⟨_, ((h (rmS rmOwn) (wr 0) rfl (by decide)).2.1 (by decide)).1 (.inl (by decide))⟩,
   ⟨_, (((h (rmS (rmArg 1)) (wr 0) rfl (by decide)).2.1 (by decide)).2 (by decide) (by decide)).1 (by decide) rfl⟩,
   ⟨_, (((h (rmS (rmArg 0)) (wr 0) rfl (by decide)).2.1 (by decide)).2 (by decide) (by decide)).2 (.inl (by decide))⟩,
   ⟨_, ((h (rmS (rmArg 64)) (wr 0) rfl (by decide)).2.2.1 (by decide) rfl).1 (by decide)⟩,
   ⟨_, ((h (rmS rmOwn) (wr 0) rfl (by decide)).2.2.1 (by decide) rfl).2.1 (by decide) (by decide)⟩,
   ⟨_, ((h (rmX .idle) (wr 0) rfl (by decide)).2.2.1 (by decide) rfl).2.2.1 (by decide) (by decide) (by decide) (by decide)⟩,
   ⟨_, ((h (rmX .pass1) (wr 0) rfl (by decide)).2.2.1 (by decide) rfl).2.2.2.1 1 (by decide) (by decide) (by decide) (by decide)⟩,
   ⟨_, ((h rmY (wr 0) rfl (by decide)).2.2.1 (by decide) rfl).2.2.2.2 (by decide) (by decide) (by decide)⟩,
   ⟨_, ((h (rmS { rmOwn with sealBroken := true }) (wr 0) rfl (by decide)).2.2.2 (by decide) rfl).1 rfl⟩,
   ⟨_, (((h (rmS rmGr) (wr 0) rfl (by decide)).2.2.2 (by decide) rfl).2 rfl (by decide) (by decide +kernel)).1 (by decide +kernel)⟩,
   ⟨_, (((h rmF (wr 0) rfl (by decide)).2.2.2 (by decide) rfl).2 rfl (by decide) (by decide +kernel)).2 2 (by decide +kernel)⟩⟩

/-- LogClear_no, LogClear, PresenceOpen_no, PresenceOpen_seal, PresenceOpen, PresenceEnd_none, PresenceEnd, Awl_on, Awl_off, Awl_no. -/
theorem witness_LogPresenceAndAwlCommandsEnd (h : Obligations.LogPresenceAndAwlCommandsEnd) :
    (∃ b, Lands (rmS rmOwn) (.logClear (wr 0)) pgRM 0x058 (cmdW 3) b) ∧
    (∃ b, Lands (rmS rmGr) (.logClear (wr 0)) pgRM 0x058 (cmdW 3) b) ∧
    (∃ b, Lands (ofBlk ((rmB rmOwn []).presence false)) (.presenceOpen (wr 0) false) pgRM 0x058 (cmdW 8) b) ∧
    (∃ b, Lands (ofBlk ((rmB rmSl []).presence true)) (.presenceOpen (wr 0) true) pgRM 0x058 (cmdW 8) b) ∧
    (∃ b, Lands (ofBlk ((rmB rmOwn []).presence true)) (.presenceOpen (wr 0) true) pgRM 0x058 (cmdW 8) b) ∧
    (∃ b, Lands (rmS rmOwn) (.presenceEnd (wr 0)) pgRM 0x058 (cmdW 9) b) ∧
    (∃ b, Lands (rmS { rmGr with awlEn := true }) (.presenceEnd (wr 0)) pgRM 0x058 (cmdW 9) b) ∧
    (∃ b, Lands (rmS (rmA 1)) (.awl (wr 0)) pgRM 0x058 (cmdW 10) b) ∧
    (∃ b, Lands (rmS (rmA 0)) (.awl (wr 0)) pgRM 0x058 (cmdW 10) b) ∧
    (∃ b, Lands (rmS (rmArg 1)) (.awl (wr 0)) pgRM 0x058 (cmdW 10) b) :=
  ⟨⟨_, ((h (rmS rmOwn) (wr 0) rfl (by decide)).1 (by decide)).1 rfl⟩,
   ⟨_, ((h (rmS rmGr) (wr 0) rfl (by decide)).1 (by decide)).2 rfl⟩,
   ⟨_, ((h (rmS rmOwn) (wr 0) rfl (by decide)).2.1 (by decide) false).2.1 rfl⟩,
   ⟨_, ((h (rmS rmSl) (wr 0) rfl (by decide)).2.1 (by decide) true).2.2.1 rfl rfl⟩,
   ⟨_, ((h (rmS rmOwn) (wr 0) rfl (by decide)).2.1 (by decide) true).2.2.2 rfl rfl⟩,
   ⟨_, ((h (rmS rmOwn) (wr 0) rfl (by decide)).2.2.1 (by decide)).1 rfl⟩,
   ⟨_, ((h (rmS { rmGr with awlEn := true }) (wr 0) rfl (by decide)).2.2.1 (by decide)).2 rfl⟩,
   ⟨_, ((h (rmS (rmA 1)) (wr 0) rfl (by decide)).2.2.2 (by decide) rfl).2.2 (by decide) rfl⟩,
   ⟨_, ((h (rmS (rmA 0)) (wr 0) rfl (by decide)).2.2.2 (by decide) rfl).1 (by decide)⟩,
   ⟨_, ((h (rmS (rmArg 1)) (wr 0) rfl (by decide)).2.2.2 (by decide) rfl).2.1 (by decide) rfl⟩⟩

/-- FwStage_bad, FwStage_format, FwActivate_end, FwActivate_storeErr, LastUpdate_early, LastUpdate_failed, LastUpdate_format. -/
theorem witness_LongMailboxCommandsEnd (h : Obligations.LongMailboxCommandsEnd) :
    (∃ b, Makes (rmS opF) (.mbxCommandEnd (endE [] (some 1) true)) b) ∧
    (∃ b, Makes (rmS opF) (.mbxCommandEnd (endE [1, 2] none true)) b) ∧
    (∃ b, Makes (rmS (opE 5 [1])) (.mbxCommandEnd (endE [] none true)) b) ∧
    (∃ b, Makes (rmS (opE 5 [1])) (.mbxCommandEnd (endE [] none false)) b) ∧
    (∃ b, Makes luE (.mbxCommandEnd (endE [] none true)) b) ∧
    (∃ b, Makes luF (.mbxCommandEnd (endE [] none true)) b) ∧
    (∃ b, Makes luS (.mbxCommandEnd (endE [] none true)) b) :=
  ⟨⟨_, ((h (rmS opF) _ (endE [] (some 1) true) rfl (by decide) rfl).1 fwR _ _ _ rfl rfl rfl rfl rfl).1 ⟨1, rfl, by decide, by decide⟩⟩,
   ⟨_, ((h (rmS opF) _ (endE [1, 2] none true) rfl (by decide) rfl).1 fwR _ _ _ rfl rfl rfl rfl rfl).2.1 (by rintro ⟨l, e, _⟩; cases e) (by decide) (by decide)⟩,
   ⟨_, ((h (rmS (opE 5 [1])) _ (endE [] none true) rfl (by decide) rfl).2.1 rfl).2 rfl⟩,
   ⟨_, ((h (rmS (opE 5 [1])) _ (endE [] none false) rfl (by decide) rfl).2.1 rfl).1 rfl⟩,
   ⟨_, ((h luE _ (endE [] none true) rfl (by decide) rfl).2.2 rfl).1 (.inr rfl)⟩,
   ⟨_, (((h luF _ (endE [] none true) rfl (by decide) rfl).2.2 rfl).2 (by decide) (by decide)).1 (.inl rfl)⟩,
   ⟨_, ((((h luS _ (endE [] none true) rfl (by decide) rfl).2.2 rfl).2 (by decide) (by decide)).2 rfl rfl rfl).1 (by decide)⟩⟩

/-- Restart_idle, Restart_busy, Restart_load, Ready_cold, Ready_warm, Sensor_none, Sensor_cool, Sensor_warn, Sensor_crit, Sensor_critOff, Volt_low, Volt_high, Volt_ok. -/
theorem witness_TheRingmasterRestartsStartsAndSamples (h : Obligations.TheRingmasterRestartsStartsAndSamples) :
    (∃ b, Makes (rmS rmOwn) .ringmasterRestart b) ∧
    (∃ b, Makes (rmS (opE 4 [1])) .ringmasterRestart b) ∧
    (∃ b, Makes (rmX .pass1) .ringmasterRestart b) ∧
    (∃ b, Makes run0 (.ready fwE) b) ∧
    (∃ b, Makes (rmS { boot := 3, fwA := 5 }) (.ready fwE) b) ∧
    (∃ b, Makes (rmS rmDue) (.sensorSample [] []) b) ∧
    (∃ b, Makes (rmS rmDue) (.sensorSample [300] []) b) ∧
    (∃ b, Makes (rmS rmDue) (.sensorSample [760] []) b) ∧
    (∃ p, Gives (rmS rmDue) (.sensorSample [900] []) p) ∧
    (∃ b, Makes rmT (.sensorSample [900] []) b) ∧
    (∃ b, Makes (rmS rmDue) (.sensorSample [] [5]) b) ∧
    (∃ b, Makes (rmS rmDue) (.sensorSample [] [5000]) b) ∧
    (∃ b, Makes (rmS rmV) (.sensorSample [] [5]) b) :=
  ⟨⟨_, (h.1 (rmS rmOwn) rfl).1 rfl⟩,
   ⟨_, (h.1 (rmS (opE 4 [1])) rfl).2 _ rfl⟩,
   ⟨_, (h.1 (rmX .pass1) rfl).1 rfl⟩,
   ⟨_, ((h.2.1 run0 fwE rfl rfl (by decide)).1 (.inl rfl)).1⟩,
   ⟨_, (h.2.1 (rmS { boot := 3, fwA := 5 }) fwE rfl rfl (by decide)).2 (by decide) (by decide)⟩,
   ⟨_, (h.2.2 (rmS rmDue) rfl rfl rfl rfl rfl).1⟩,
   ⟨_, ((h.2.2 (rmS rmDue) rfl rfl rfl rfl rfl).2.1 300 _ ⟨fun k => absurd k (by decide), fun _ => rfl⟩).1 (by decide)⟩,
   ⟨_, ((h.2.2 (rmS rmDue) rfl rfl rfl rfl rfl).2.1 760 _ ⟨fun _ => rfl, fun k => absurd (by decide) k⟩).1 (by decide)⟩,
   ⟨_, ((h.2.2 (rmS rmDue) rfl rfl rfl rfl rfl).2.1 900 _ ⟨fun _ => rfl, fun k => absurd (by decide) k⟩).2.2 (by decide) (by decide) (by decide) (by decide)⟩,
   ⟨_, ((h.2.2 rmT rfl rfl rfl rfl rfl).2.1 900 _ ⟨fun _ => rfl, fun k => absurd (by decide) k⟩).2.1 (by decide) (by decide)⟩,
   ⟨_, ((h.2.2 (rmS rmDue) rfl rfl rfl rfl rfl).2.2 5).2.1 (by decide) (by decide) (by decide)⟩,
   ⟨_, ((h.2.2 (rmS rmDue) rfl rfl rfl rfl rfl).2.2 5000).2.2 (by decide) (by decide) (by decide)⟩,
   ⟨_, ((h.2.2 (rmS rmV) rfl rfl rfl rfl rfl).2.2 5).1 (fun _ => by decide) (fun k => absurd k (by decide))⟩⟩

/-- LogWrite, GrantExpiry, SealBreak, SealBreak_bkp, AwlAddr, AwlAddr_write, AwlData, AwlDone_read, AwlDone_write, AwlDone_unserved. -/
theorem witness_LogGrantSealAndAwlPort (h : Obligations.LogGrantSealAndAwlPort) :
    (∃ b, Makes (rmS rmL) .logWrite b) ∧
    (∃ b, Makes (rmS rmG) .grantExpiry b) ∧
    (∃ b, Makes (rmS rmG) .sealBreak b) ∧
    (∃ b, Makes bkG .sealBreak b) ∧
    (∃ b, Makes (rmS rmG) (.awlAddr 0x30040) b) ∧
    (∃ b, Makes (rmS rmG) (.awlAddr 0x80030040) b) ∧
    (∃ b, Makes (rmS rmW) (.awlData 9) b) ∧
    (∃ b, Makes (rmS (rmD none)) .awlAccessDone b) ∧
    (∃ b, Makes (rmS (rmD (some 5))) .awlAccessDone b) ∧
    (∃ b, Makes rmE .awlAccessDone b) :=
  ⟨⟨_, h.1 (rmS rmL) _ _ rfl⟩,
   ⟨_, (h.2.1 (rmS rmG)).1 _ rfl (by decide)⟩,
   ⟨_, ((h.2.1 (rmS rmG)).2 rfl (.inl (by decide))).1 rfl⟩,
   ⟨_, ((h.2.1 bkG).2 rfl (.inr rfl)).2 rfl⟩,
   ⟨_, (h.2.2.1 (rmS rmG) 0x30040 rfl rfl).1 (by decide)⟩,
   ⟨_, (h.2.2.1 (rmS rmG) 0x80030040 rfl rfl).2.1 (by decide)⟩,
   ⟨_, (h.2.2.1 (rmS rmW) 9 rfl rfl).2.2 rfl⟩,
   ⟨_, (h.2.2.2 (rmS (rmD none)) none rfl).2.1 rfl (by decide)⟩,
   ⟨_, (h.2.2.2 (rmS (rmD (some 5))) (some 5) rfl).1 5 rfl (by decide) (by decide)⟩,
   ⟨_, (h.2.2.2 rmE none rfl).2.2 (.inr (by decide))⟩⟩

/-- ColdReset, ColdReset_bkp, ColdStart, ColdStart_lost, DpReady, DpReady_early, DpLoss, Partial, Partial_dp, ScanMode, ScanMode_closed, WarmReset, WarmReset_absorbed, WarmReset_command, WarmDrainEnd, WarmDrainEnd_empty, Watchdog, RestartCmd, RestartEnd, RestartEnd_warm. -/
theorem witness_StartsAndResetsKeepWhatTheyKeep_1 (h : Obligations.StartsAndResetsKeepWhatTheyKeep) :
    (∃ b, Makes (rsS rsRun) (.coldReset false) b) ∧
    (∃ p, Gives (rsS rsRun) (.coldReset true) p) ∧
    (∃ b, Makes (rsS {}) (.coldStart true false true) b) ∧
    (∃ b, Makes (rsS { stage := .scan }) (.coldStart false true false) b) ∧
    (∃ b, Makes arS .dpReady b) ∧
    (∃ b, Makes lkS .dpReady b) ∧
    (∃ b, Makes (rsS rsRun) .dpLoss b) ∧
    (∃ p, Gives (rsS { stage := .backup, snSeen := true, sealSeen := true }) (.partialColdStart false) p) ∧
    (∃ p, Gives (rsS { stage := .dpOff }) (.partialColdStart true) p) ∧
    (∃ p, Gives (rsS rsRun) .scanMode p) ∧
    (∃ p, Gives run0 .scanMode p) ∧
    (∃ b, Makes (rsS rsRun) (.warmReset .pin) b) ∧
    (∃ b, Makes (rsS { stage := .drain }) (.warmReset .pin) b) ∧
    (∃ b, Makes (rsS rsRun) (.warmReset (.command (wr 0))) b) ∧
    (∃ p, Gives (rsS { stage := .drain }) .warmDrainEnd p) ∧
    (∃ p, Gives drE .warmDrainEnd p) ∧
    (∃ p, Gives (rsS rsRun) (.dpRestart .watchdog) p) ∧
    (∃ p, Gives (rsS rsRun) (.dpRestart (.command (wr 0))) p) ∧
    (∃ p, Gives (rsE 5) .restartEnd p) ∧
    (∃ p, Gives (rsE 3) .restartEnd p) :=
  ⟨⟨_, (h.1 (rsS rsRun)).1⟩,
   ⟨_, (h.1 (rsS rsRun)).2.1⟩,
   ⟨_, (h.1 (rsS {})).2.2.1 true false true (.inl rfl)⟩,
   ⟨_, (h.1 (rsS { stage := .scan })).2.2.1 false true false (.inr rfl)⟩,
   ⟨_, (h.1 arS).2.2.2.1 rfl (by decide +kernel)⟩,
   ⟨_, (h.1 lkS).2.2.2.2.1 (by decide) rfl⟩,
   ⟨_, (h.1 (rsS rsRun)).2.2.2.2.2.1 (.inr (.inl rfl))⟩,
   ⟨_, (h.1 (rsS { stage := .backup, snSeen := true, sealSeen := true })).2.2.2.2.2.2.1 false (.inl ⟨rfl, rfl⟩)⟩,
   ⟨_, (h.1 (rsS { stage := .dpOff })).2.2.2.2.2.2.1 true (.inr ⟨rfl, rfl⟩)⟩,
   ⟨_, (h.1 (rsS rsRun)).2.2.2.2.2.2.2⟩,
   ⟨_, (h.1 run0).2.2.2.2.2.2.2⟩,
   ⟨_, (h.2.1 (rsS rsRun)).1 (.inl rfl)⟩,
   ⟨_, (h.2.1 (rsS { stage := .drain })).2.1 rfl⟩,
   ⟨_, (h.2.1 (rsS rsRun)).2.2.1 (wr 0) rfl rfl (by decide)⟩,
   ⟨_, (h.2.1 (rsS { stage := .drain })).2.2.2 rfl (.inr (by decide))⟩,
   ⟨_, (h.2.1 drE).2.2.2 rfl (.inl (by decide))⟩,
   ⟨_, h.2.2.1 (rsS rsRun) .watchdog 5 (.inl rfl) (.inl ⟨rfl, rfl⟩)⟩,
   ⟨_, h.2.2.1 (rsS rsRun) (.command (wr 0)) 6 (.inl rfl) (.inr ⟨wr 0, rfl, rfl, by decide, rfl⟩)⟩,
   ⟨_, h.2.2.2.1 (rsE 5) rfl (by decide)⟩,
   ⟨_, h.2.2.2.1 (rsE 3) rfl (by decide)⟩⟩

/-- RestartScan, RestartScan_gone. -/
theorem witness_StartsAndResetsKeepWhatTheyKeep_2 (h : Obligations.StartsAndResetsKeepWhatTheyKeep) :
    (∃ b, Makes rsC (.restartScan 0) b) ∧
    (∃ b, Makes rsN (.restartScan 0) b) :=
  ⟨⟨_, (h.2.2.2.2 rsC 0 0x10 [0x11] (by decide) (by decide) (by decide)).1 (by decide)⟩,
   ⟨_, (h.2.2.2.2 rsN 0 0x20 [] (by decide) (by decide) (by decide)).2 (by decide)⟩⟩

/-- EccCe, EccCe_quiet, EccUe_pend, EccUe_ring, EccUe_ringFields, EccUe_ctx, EccUe_thread, EccUe_rm, EccUe_snap, EccUe_report, EccUe_class, EccUe_slot, EccUe_vif, EccUe_log, EccUe_cache, EccUe_tlb, Report_ce, Report_ue, Report_fatal, Report_event. -/
theorem witness_ErrorsAreCountedAndReported_1 (h : Obligations.ErrorsAreCountedAndReported) :
    (∃ b, Makes (ecS 3 false 0x640001) (.eccCe 3 9 7) b) ∧
    (∃ b, Makes (ecS 3 true 0x640002) (.eccCe 16 9 7) b) ∧
    (∃ p, Gives (ecS 1 true 0x640002) (.eccUe 1 0x18 7) p) ∧
    (∃ b, Makes (ecS 1 true 0x640002) (.eccUe 6 0x18 7) b) ∧
    (∃ b, Makes (ecS 1 true 0x640002) (.eccUe 6 0x400018 7) b) ∧
    (∃ p, Gives ecC (.eccUe 2 0x123 7) p) ∧
    (∃ p, Gives ecC (.eccUe 9 2 7) p) ∧
    (∃ p, Gives (ofBlk { ecC.blk with rm := { ready := true } }) (.eccUe 14 2 7) p) ∧
    (∃ b, Makes (ecS 1 true 0x640002) (.eccUe 16 0x1812 7) b) ∧
    (∃ p, Gives (ecS 1 true 0x640002) (.eccUe 6 0x400018 7) p) ∧
    (∃ b, Makes (ecS 1 true 0x640002) (.eccUe 7 0x800018 7) b) ∧
    (∃ b, Makes (ecS 1 true 0x640002) (.eccUe 8 0x18 7) b) ∧
    (∃ b, Makes (ecS 1 true 0x640002) (.eccUe 10 5 7) b) ∧
    (∃ b, Makes (ecS 15 true 0x640002) (.eccUe 15 3 7) b) ∧
    (∃ b, Makes (ecS 4 true 0x640003) (.eccUe 4 3 7) b) ∧
    (∃ b, Makes (ecS 4 true 0x640002) (.eccUe 11 3 7) b) ∧
    (∃ b, Makes (rpS 0 0 0) .rasReport b) ∧
    (∃ b, Makes (rpS 1 6 0x8005) .rasReport b) ∧
    (∃ b, Makes (rpS 2 6 0) .rasReport b) ∧
    (∃ b, Makes (rpS 3 0 0) .rasReport b) :=
  ⟨⟨_, (h.1 (ecS 3 false 0x640001) 3 9 7 (.inl (by decide))).1⟩,
   ⟨_, (h.1 (ecS 3 true 0x640002) 16 9 7 (.inr (.inr (by decide)))).1⟩,
   ⟨_, ((h.1 (ecS 1 true 0x640002) 1 0x18 7 (.inl (by decide))).2.1 rfl (by decide))⟩,
   ⟨_, (h.1 (ecS 1 true 0x640002) 6 0x18 7 (.inl (by decide))).2.2.1 rfl (by decide)⟩,
   ⟨_, (h.1 (ecS 1 true 0x640002) 6 0x400018 7 (.inl (by decide))).2.2.2.1 rfl (by decide)⟩,
   ⟨_, (h.1 ecC 2 0x123 7 (.inl (by decide))).2.2.2.2.1 (.inl rfl) (by decide) (by decide)⟩,
   ⟨_, (h.1 ecC 9 2 7 (.inl (by decide))).2.2.2.2.2.1 rfl (by intro i hi c hc; have hi : i / 2 = 2 := hi; have hj : i = 4 ∨ i = 5 := (by omega); rcases hj with rfl | rfl; (· have hc : some (0x123 : CtxNo) = some c := hc; cases hc; exact ⟨_, rfl, rfl⟩); (· exact nomatch (show (none : Option CtxNo) = some c from hc)))⟩,
   ⟨_, (h.1 (ofBlk { ecC.blk with rm := { ready := true } }) 14 2 7 (.inr (.inl (by decide)))).2.2.2.2.2.2.1 rfl⟩,
   ⟨_, (h.1 (ecS 1 true 0x640002) 16 0x1812 7 (.inr (.inr (by decide)))).2.2.2.2.2.2.2.1 rfl⟩,
   ⟨_, (h.1 (ecS 1 true 0x640002) 6 0x400018 7 (.inl (by decide))).2.2.2.2.2.2.2.2.1 (by decide) (by decide) (by decide)⟩,
   ⟨_, (h.1 (ecS 1 true 0x640002) 7 0x800018 7 (.inl (by decide))).2.2.2.2.2.2.2.2.2.1 rfl⟩,
   ⟨_, (h.1 (ecS 1 true 0x640002) 8 0x18 7 (.inl (by decide))).2.2.2.2.2.2.2.2.2.2.1 rfl⟩,
   ⟨_, (h.1 (ecS 1 true 0x640002) 10 5 7 (.inl (by decide))).2.2.2.2.2.2.2.2.2.2.2.1 rfl⟩,
   ⟨_, (h.1 (ecS 15 true 0x640002) 15 3 7 (.inr (.inr (by decide)))).2.2.2.2.2.2.2.2.2.2.2.2.1 rfl⟩,
   ⟨_, (h.1 (ecS 4 true 0x640003) 4 3 7 (.inl (by decide))).2.2.2.2.2.2.2.2.2.2.2.2.2 (.inl rfl)⟩,
   ⟨_, (h.1 (ecS 4 true 0x640002) 11 3 7 (.inl (by decide))).2.2.2.2.2.2.2.2.2.2.2.2.2 (.inr rfl)⟩,
   ⟨_, (h.2.1 (rpS 0 0 0) _ _ rfl).1 rfl⟩,
   ⟨_, (h.2.1 (rpS 1 6 0x8005) _ _ rfl).2.1 rfl⟩,
   ⟨_, (h.2.1 (rpS 2 6 0) _ _ rfl).2.2.1 rfl⟩,
   ⟨_, (h.2.1 (rpS 3 0 0) _ _ rfl).2.2.2 rfl⟩⟩

/-- Inject, Inject_none, Scrub, Unknown, Wrap, Wrap_freeze. -/
theorem witness_ErrorsAreCountedAndReported_2 (h : Obligations.ErrorsAreCountedAndReported) :
    (∃ b, Makes (rsS rsRun) (.rasInject (wr 0x22)) b) ∧
    (∃ b, Makes (rsS rsRun) (.rasInject (wr 0x11)) b) ∧
    (∃ p, Gives scS .scrubPass p) ∧
    (∃ b, Makes scS (.memResponseUnknownId true 9) b) ∧
    (∃ b, Makes (cwS 3) (.counterWrap false 35) b) ∧
    (∃ b, Makes (cwS 7) (.counterWrap true 17) b) :=
  ⟨⟨_, (h.2.2.1 (rsS rsRun) (wr 0x22) rfl (by decide)).1 (by decide) (by decide)⟩,
   ⟨_, (h.2.2.1 (rsS rsRun) (wr 0x11) rfl (by decide)).2 (.inr (by decide))⟩,
   ⟨_, (h.2.2.2 scS (by decide)).1 (by decide) (by decide) rfl⟩,
   ⟨_, (h.2.2.2 scS (by decide)).2.1 true 9 (by decide)⟩,
   ⟨_, ((h.2.2.2 (cwS 3) (by decide)).2.2 false 35 (by decide) (by decide) (by decide)).1 (by decide)⟩,
   ⟨_, ((h.2.2.2 (cwS 7) (by decide)).2.2 true 17 (by decide) (by decide) (by decide)).2 (by decide)⟩⟩

end Sys2Proof.Tests
end

namespace Sys2Proof.Machine

/-! ### Running a command -/

/-- What a command answers is one state: a property of the answer holds of the state that `exec` computes. -/
theorem Gives.of_exec {s t : State} {c : Instr} {p : Block → Prop} (h : Gives s c p) (e : exec c s = .next t) : p t.blk := by
  obtain ⟨u, hu, -, hp⟩ := h
  cases hu.symm.trans e
  exact hp

/-- A command makes of the block what its effect on the block is equal to. -/
theorem Makes.of_effect {s : State} {c : Instr} {b b' : Block} (e : exec c s = .next { s with blk := b }) (h : b = b') : Makes s c b' :=
  h ▸ e

/-- A command gives what holds of its effect on the block. -/
theorem Gives.of_effect {s : State} {c : Instr} {p : Block → Prop} {b b' : Block} (e : exec c s = .next { s with blk := b })
    (h : b = b') (hp : p b') : Gives s c p := ⟨_, Makes.of_effect e h, rfl, hp⟩

/-! ### Counting and reporting under an update of another part -/

theorem Block.Notes.setRec {pgs : List Nat} {b b' : Block} (h : Block.Notes pgs b b') (c : CtxNo) (x : Ctx) :
    Block.Notes pgs (b.setRec c x) (b'.setRec c x) :=
  h.map (·.setRec c x) (fun _ _ _ _ _ => rfl) fun _ => ⟨rfl, rfl⟩

theorem Block.Notes.granted {pgs : List Nat} {b b' : Block} (h : Block.Notes pgs b b') (r : Res) (i : Nat) :
    Block.Notes pgs (b.granted r i) (b'.granted r i) :=
  h.map (·.granted r i) (fun _ _ _ _ _ => rfl) fun _ => ⟨rfl, rfl⟩

/-! ### Lists and bit sets -/

theorem modifyFirst_append_cons {α : Type} (p : α → Bool) (f : α → α) (pre post : List α) (a : α)
    (hpre : ∀ x ∈ pre, p x = false) (ha : p a = true) : modifyFirst p f (pre ++ a :: post) = pre ++ f a :: post := by
  induction pre with
  | nil => simp [modifyFirst, ha]
  | cons x l ih =>
    simp [modifyFirst, hpre x (by simp), ih fun y hy => hpre y (by simp [hy])]

theorem firstFrom_zero {w : Nat} (start n : Nat) : firstFrom 0#w start n = none := by
  induction n generalizing start with
  | zero => rfl
  | succ n ih => simp [firstFrom, ih]

/-- An empty spill map has no best bucket. -/
theorem spillBest_of_map_zero {x : Ctx} (h : x.spillMap = 0) : spillBest x = none := by
  simp [spillBest, lowest, h, firstFrom_zero]

/-! ### The insert of R66 -/

theorem rankIn_append (e : Entry) (pre post : List Entry) (hpre : ∀ f ∈ pre, f.prio.toNat ≤ e.prio.toNat)
    (hpost : ∀ f, post.head? = some f → e.prio.toNat < f.prio.toNat) : rankIn e (pre ++ post) = pre ++ e :: post := by
  induction pre with
  | nil =>
    cases post with
    | nil => rfl
    | cons f r => simp [rankIn, hpost f rfl]
  | cons f l ih =>
    have hf : ¬ e.prio.toNat < f.prio.toNat := Nat.not_lt.mpr (hpre f (by simp))
    simp [rankIn, hf, ih fun g hg => hpre g (by simp [hg])]

theorem insertEntry_of_key {x : Ctx} {e i : Entry} {pre post : List Entry} (hl : x.shortlist = pre ++ e :: post)
    (he : sameKey e i = true) (hpre : ∀ f ∈ pre, sameKey f i = false) :
    insertEntry x i = ({ x with shortlist := pre ++ e.mergedWith i :: post }, .merged) := by
  have hany : x.shortlist.any (sameKey · i) = true := by simp [hl, he]
  unfold insertEntry
  rw [if_pos hany, hl, modifyFirst_append_cons _ _ pre post e hpre he]

theorem insertEntry_of_room {x : Ctx} {i : Entry} {pre post : List Entry} (hl : x.shortlist = pre ++ post)
    (hmap : x.spillMap = 0) (hroom : x.shortlist.length < 16) (hkey : ∀ f ∈ x.shortlist, sameKey f i = false)
    (hpre : ∀ f ∈ pre, f.prio.toNat ≤ i.prio.toNat) (hpost : ∀ f, post.head? = some f → i.prio.toNat < f.prio.toNat) :
    insertEntry x i = ({ x with shortlist := pre ++ i :: post }, .placed) := by
  rw [hl] at hkey hroom
  have hany : (pre ++ post).any (sameKey · i) = false := List.any_eq_false.mpr fun f hf => by simp [hkey f hf]
  have hlen : (pre ++ i :: post).length ≤ 16 := by
    simp only [List.length_append, List.length_cons] at hroom ⊢
    omega
  unfold insertEntry
  simp only [hany, spillBest_of_map_zero hmap, hl, rankIn_append i pre post hpre hpost, if_pos hlen, Bool.false_eq_true, if_false]

/-! ### An insert at the port of its context's bank (R160, R226) -/

/-- The insert for a resident context of an ACTIVE owner, of class H or G and without a guard, goes to the shortlist. -/
theorem Block.doInsert_resident {b : Block} {i : Ins} {x : Ctx} (hx : b.rec? i.ctx = some x) (hold : i.old = [])
    (how : b.ownerActive x.owner = true) (hg : i.guard = none) (hcls : i.entry.cls ≠ 2) :
    b.doInsert i = b.insertAt i.ctx x i.entry := by
  unfold Block.doInsert
  simp only [hx, hold, how, hg, if_neg hcls, List.contains_nil, Bool.not_true, Bool.false_eq_true, if_false]

/-- The grant of requester 16's head, an insert of no flight and no record for a resident context in no handoff and no LOAD. -/
theorem effRankInsert_resident {b : Block} {q : Nat} {i : Ins} {rest : List BankOp} {x : Ctx} (hpick : b.bankPick q = some 16)
    (hin : (b.bank q).in16 = .ins i :: rest) (hfl : i.flight = none) (htok : i.recTok = none) (hg : i.guard = none)
    (hold : i.old = []) (hrep : i.report = false) (hcls : i.entry.cls ≠ 2) (hx : b.rec? i.ctx = some x) (hm : x.moving = false)
    (haw : b.awaited i.ctx = false) (how : b.ownerActive x.owner = true) :
    effRankInsert b q 16 =
      ((((b.setBank q { b.bank q with in16 := rest }).pmuEv 0x0B q).insertAt i.ctx x i.entry).1).granted (.ctxBank q) 16 := by
  have hhead : b.bankHead q 16 = some i := by simp [Block.bankHead, headIns, hin]
  have hpop : b.bankPop q 16 = b.setBank q { b.bank q with in16 := rest } := by simp [Block.bankPop, hin]
  have hmv : b.moving i.ctx = false := by simp [Block.moving, hx, hm]
  have hwm : b.withMerge i = i := by simp [Block.withMerge, hfl]
  have hdo : ((b.setBank q { b.bank q with in16 := rest }).pmuEv 0x0B q).doInsert i =
      ((b.setBank q { b.bank q with in16 := rest }).pmuEv 0x0B q).insertAt i.ctx x i.entry :=
    Block.doInsert_resident (by simpa [Block.rec?] using hx) hold (by simpa [Block.ownerActive, Block.vifOf] using how) hg hcls
  unfold effRankInsert
  simp only [hhead, hpick, if_true]
  simp only [Block.grantHead, hwm, hmv, haw, hpop, Block.grantIns, hdo, Block.resolveRec, hfl, htok, hrep]
  simp

/-- Settles O14: the insert merges with its key (R57) or takes its rank (R64); what a grant counts is noted. -/
theorem insertsRankInTheShortlist : Obligations.InsertsRankInTheShortlist := by
  unfold Obligations.InsertsRankInTheShortlist
  intro s q i rest x hpick hin hfl htok hg hold hrep hcls hx hm haw how b
  have heff := effRankInsert_resident hpick hin hfl htok hg hold hrep hcls hx hm haw how
  have hpmu := Block.pmuEv_notes (s.blk.setBank q { s.blk.bank q with in16 := rest }) 0x0B q 1
  refine ⟨fun pre e post hl he hpre => .of_effect rfl heff ?_, fun pre post hl hmap hroom hkey hpre hpost => .of_effect rfl heff ?_⟩
  · simp only [Block.insertAt, insertEntry_of_key hl he hpre]
    exact ((hpmu.setRec i.ctx _).trans (Block.pmuEv_notes _ 0x0C (ctxBank i.ctx) 1)).granted (.ctxBank q) 16
  · simp only [Block.insertAt, insertEntry_of_room hl hmap hroom hkey hpre hpost]
    exact (hpmu.setRec i.ctx _).granted (.ctxBank q) 16

end Sys2Proof.Machine

namespace Sys2Proof.Machine

/-! ### Trackers that come back (R35) -/

theorem pickOldest_of_none (age : Nat → BitVec 10) {elig : Nat → Bool} (h : ∀ i, elig i = false) (n : Nat) :
    pickOldest age elig n = none := by
  induction n with
  | zero => rfl
  | succ n ih => simp [pickOldest, ih, h n]

/-- Where no read waits for a tracker, the trackers of an answered read are simply free again. -/
theorem Block.freeLines_of_no_wait {b : Block} (h : b.xl.trkWait = []) (n : Nat) : b.freeLines n = giveShared b n := by
  have hhead : ∀ i, (giveShared b n).fillHead i = none := by
    intro i
    unfold Block.fillHead
    simp [giveShared, h]
  have helig : ∀ i, (giveShared b n).fillEligible i = false := fun i => by simp [Block.fillEligible, hhead i]
  simp [Block.freeLines, Block.kickTrackers, Block.grantFills, Block.pick, pickOldest_of_none _ helig]

theorem Block.orphanDone_of_no_orphans {b : Block} (h : b.xl.orphans = []) (c : Cont) : b.orphanDone c = none := by
  simp [Block.orphanDone, h]

/-! ### What the writes of a context leave as they are -/

/-- The records of resident contexts, the seats and the pushes of every bank are the same. -/
structure Block.KeepsRecords (b b' : Block) : Prop where
  ctx : b'.ctx = b.ctx
  seat : b'.seat = b.seat
  spills : ∀ q, (b'.bank q).spills = (b.bank q).spills

theorem Block.KeepsRecords.refl (b : Block) : Block.KeepsRecords b b := ⟨rfl, rfl, fun _ => rfl⟩

theorem Block.KeepsRecords.trans {a b c : Block} (h : Block.KeepsRecords a b) (k : Block.KeepsRecords b c) :
    Block.KeepsRecords a c :=
  ⟨k.ctx.trans h.ctx, k.seat.trans h.seat, fun q => (k.spills q).trans (h.spills q)⟩

/-- An update of other parts of the block. -/
theorem Block.KeepsRecords.of_parts {b b' : Block} (hctx : b'.ctx = b.ctx := by rfl) (hseat : b'.seat = b.seat := by rfl)
    (hcb : b'.cb = b.cb := by rfl) : Block.KeepsRecords b b' := ⟨hctx, hseat, fun q => by simp [Block.bank, hcb]⟩

/-- What counts and reports besides keeps them too. -/
theorem Block.KeepsRecords.notes {pgs : List Nat} {a b c : Block} (h : Block.KeepsRecords a b) (n : Block.Notes pgs b c) :
    Block.KeepsRecords a c := by
  refine h.trans (.of_parts ?_ ?_ ?_) <;> rw [n.rest]

theorem Block.xReport_keepsRecords (b : Block) (q : XReq) (cause : BitVec 4) (level : BitVec 3) :
    Block.KeepsRecords b (b.xReport q cause level) := by
  unfold Block.xReport
  dsimp only
  split
  · exact .of_parts
  · exact ((Block.KeepsRecords.refl b).notes (Block.cnt_notes b pgXU 0x0C8 1 (by decide))).notes (Block.flag_notes _ pgXU 1)

theorem xlate_keepsRecords {b b' : Block} {q : XReq} {r : XRes} (h : xlate b q = (b', r)) : Block.KeepsRecords b b' := by
  rw [show b' = (xlate b q).1 by rw [h]]
  unfold xlate
  dsimp only
  split
  · exact Block.xReport_keepsRecords b q _ 0
  · split
    · unfold xHit
      split
      · exact .of_parts
      · refine .trans ?_ (Block.xReport_keepsRecords _ q 4 1)
        exact .of_parts
    · split <;> exact .trans (.notes (.refl b) (Block.pmuEv_notes b 0x15 0 1)) .of_parts

theorem Block.KeepsRecords.ask16 {a b : Block} (h : Block.KeepsRecords a b) (i : Ins) : Block.KeepsRecords a (b.ask16 i) := by
  refine h.trans ⟨rfl, rfl, fun q => ?_⟩
  simp only [Block.ask16, Block.setBank, Block.bank, Map.get_set]
  split
  · next hq => rw [hq]
  · rfl

theorem Block.KeepsRecords.vifCause {a b : Block} (h : Block.KeepsRecords a b) (v i : Nat) :
    Block.KeepsRecords a (b.vifCause v i) := by
  refine h.trans ?_
  unfold Block.vifCause
  dsimp only
  split
  · exact .refl b
  · split
    · refine .notes (.ask16 ?_ _) (Block.flag_notes _ _ _)
      exact .of_parts
    · exact .of_parts

theorem Block.KeepsRecords.logPage {a b : Block} (h : Block.KeepsRecords a b) (w : Nat) (o : OwnerNo) (seg : BitVec 6)
    (pa : BitVec 64) : Block.KeepsRecords a (b.logPage w o seg pa) := by
  refine h.trans ?_
  unfold Block.logPage
  dsimp only
  split
  · exact .refl b
  · split
    · exact .refl b
    · split
      · exact .vifCause (.notes .of_parts (Block.flag_notes _ _ _)) _ _
      · have hthresh : ∀ (p : Prop) [Decidable p] (c : Block) (v : Nat), Block.KeepsRecords b c →
            Block.KeepsRecords b (if p then c.vifCause v 4 else c) := fun p _ c v hc => by
          split
          · exact hc.vifCause v 4
          · exact hc
        split
        · next hx => exact ((hthresh _ _ _ .of_parts).trans (xlate_keepsRecords hx)).trans .of_parts
        · next hx => exact (hthresh _ _ _ .of_parts).trans (xlate_keepsRecords hx)
        · next hx =>
          exact .vifCause (.notes (.trans ((hthresh _ _ _ .of_parts).trans (xlate_keepsRecords hx))
            .of_parts) (Block.flag_notes _ _ _)) _ _

theorem Block.issueWrite_keepsRecords (b : Block) (w : Nat) (m : MemWrite) (seg : BitVec 6) :
    Block.KeepsRecords b (b.issueWrite w m seg) :=
  .logPage (.notes .of_parts (Block.pmuEv_notes _ _ _ _)) _ _ _ _

theorem Block.present_keepsRecords (b : Block) (w : Nat) (p : PortWrite) : Block.KeepsRecords b (b.present w p) := .of_parts

/-- The grants of a writer's memory port. -/
theorem Block.grantPort_keepsRecords (b : Block) (w fuel : Nat) : Block.KeepsRecords b (b.grantPort w fuel) := by
  induction fuel generalizing b with
  | zero => exact .refl b
  | succ fuel ih =>
    unfold Block.grantPort
    split
    · exact .refl b
    · exact .refl b
    · split
      · exact .trans (.trans .of_parts (Block.issueWrite_keepsRecords _ _ _ _)) (ih _)
      · exact .refl b

/-- The writes of a context that take no entry of a full bucket's back. -/
theorem Block.issueWb_keepsRecords (b : Block) {q : WbReq} (h : q.full = false) (pa : BitVec 64) (dev : Bool) :
    Block.KeepsRecords b (b.issueWb q pa dev) := by
  have hpresent : ∀ (l : List (Nat × List Byte)) (f : Nat × List Byte → PortWrite) (c : Block),
      Block.KeepsRecords c (l.foldl (fun b x => b.present (q.ctx.toNat % 4) (f x)) c) := by
    intro l f
    induction l with
    | nil => exact .refl
    | cons x l ih => exact fun c => .trans (Block.present_keepsRecords c _ (f x)) (ih _)
  unfold Block.issueWb
  simp only [h, Bool.false_eq_true, if_false]
  exact (hpresent _ _ b).trans (Block.grantPort_keepsRecords _ _ _)

theorem Block.sendWb_keepsRecords {b b' : Block} {q : WbReq} {op : BitVec 4} {r : WbRes} (h : q.full = false)
    (hs : b.sendWb q op = (b', r)) : Block.KeepsRecords b b' := by
  rw [show b' = (b.sendWb q op).1 by rw [hs]]
  unfold Block.sendWb
  dsimp only
  split
  · next hx => exact (xlate_keepsRecords hx).trans (Block.issueWb_keepsRecords _ h _ _)
  · next hx => exact (xlate_keepsRecords hx).trans .of_parts
  · next hx => exact xlate_keepsRecords hx

end Sys2Proof.Machine

namespace Sys2Proof.Machine

/-! ### The spill map of one bucket -/

theorem firstFrom_of_first {w : Nat} {x : BitVec w} {start n i : Nat} (hi : start ≤ i) (hn : i < start + n)
    (hx : x.getLsbD i = true) (hlow : ∀ j, start ≤ j → j < i → x.getLsbD j = false) : firstFrom x start n = some i := by
  induction n generalizing start with
  | zero => omega
  | succ n ih =>
    by_cases h : start = i
    · simp [firstFrom, h, hx]
    · simp only [firstFrom, hlow start (Nat.le_refl _) (by omega), Bool.false_eq_true, if_false]
      exact ih (by omega) (by omega) fun j hj => hlow j (by omega)

theorem spillBest_of_one_bucket {x : Ctx} {p : Prio} (h : x.spillMap = (1 : BitVec 64) <<< p.toNat) : spillBest x = some p.toNat := by
  have := p.isLt
  refine firstFrom_of_first (by omega) (by omega) ?_ fun j _ hj => ?_
  · simp [h]; omega
  · simp [h]; omega

theorem setBit_of_one_bucket (p : Prio) : setBit (1#64 <<< p.toNat) p.toNat false = 0#64 := by
  simp [setBit, flagAt]

/-! ### Entries that a refill takes (R66) -/

theorem refillEntry_of_new_key {l : List Entry} {e : Entry} (h : ∀ f ∈ l, sameKey f e = false) : refillEntry l e = l ++ [e] := by
  have hany : l.any (sameKey · e) = false := List.any_eq_false.mpr fun f hf => by simp [h f hf]
  simp [refillEntry, hany]

/-- Entries no two of which have one key are appended in order. -/
theorem foldl_refillEntry_of_pairwise {l es : List Entry} (h : (l ++ es).Pairwise (fun e e' => sameKey e e' = false)) :
    es.foldl refillEntry l = l ++ es := by
  induction es generalizing l with
  | nil => simp
  | cons e r ih =>
    have hnew : ∀ f ∈ l, sameKey f e = false := fun f hf => (List.pairwise_append.mp h).2.2 f hf e (by simp)
    have happ : l ++ e :: r = (l ++ [e]) ++ r := by simp
    rw [List.foldl_cons, refillEntry_of_new_key hnew, ih (happ ▸ h), happ]

theorem takeEntries_of_four {l es : List Entry} (hl : l.length < 8) (hes : es.length ≤ 4) (hne : es ≠ [])
    (h : (l ++ es).Pairwise (fun e e' => sameKey e e' = false)) : takeEntries 4 l es = (l ++ es, es.length) := by
  cases es with
  | nil => exact absurd rfl hne
  | cons e r =>
    have htake : (e :: r).take 4 = e :: r := List.take_of_length_le hes
    have hdrop : (e :: r).drop 4 = [] := List.drop_eq_nil_of_le hes
    simp only [takeEntries, if_neg (Nat.not_le.mpr hl), htake, hdrop, foldl_refillEntry_of_pairwise h, Nat.add_zero]

@[simp] theorem bucketEntries_length (bytes : List Byte) (h n : Nat) : (bucketEntries bytes h n).length = n := by
  simp [bucketEntries]

/-! ### The end of a refill -/

theorem Block.kickSpills_of_no_push {b : Block} {q : Nat} (h : (b.bank q).spills = []) : b.kickSpills q = b := by
  simp [Block.kickSpills, h]

theorem Block.spillDrop_resident {b : Block} {c : CtxNo} {x : Ctx} (hx : b.rec? c = some x) :
    b.spillDrop c = ((b.cnt (pgRE (ctxBank c)) 0x074).flag (pgRE (ctxBank c)) 1).setRec c { x with flags := setBit x.flags 4 true } := by
  simp [Block.spillDrop, Block.ctxFlag, hx]

/-- Writing descriptors back leaves a resident context's record as it is, but for flags, and no push and no seat changes. -/
theorem Block.writeDescs_resident (b : Block) (c : CtxNo) (x y : Ctx) (ds : List (Prio × List Byte)) (hy : b.rec? c = some y) :
    (∃ fl, (b.writeDescs c x ds).rec? c = some { y with flags := fl }) ∧ (b.writeDescs c x ds).seat = b.seat ∧
      ∀ q, ((b.writeDescs c x ds).bank q).spills = (b.bank q).spills := by
  unfold Block.writeDescs
  induction ds generalizing b y with
  | nil => exact ⟨⟨y.flags, hy⟩, rfl, fun _ => rfl⟩
  | cons d ds ih =>
    rw [List.foldl_cons]
    split
    · next b' hs =>
      have hk := Block.sendWb_keepsRecords rfl hs
      have hy' : b'.rec? c = some y := by rw [← hy, Block.rec?, Block.rec?, hk.ctx]
      obtain ⟨⟨fl, hr⟩, hseat, hsp⟩ := ih (b'.spillDrop c) { y with flags := setBit y.flags 4 true }
        (by rw [Block.spillDrop_resident hy', Block.rec?_setRec])
      rw [Block.spillDrop_resident hy'] at hseat hsp hr ⊢
      refine ⟨⟨fl, hr⟩, hseat.trans ?_, fun q => (hsp q).trans ?_⟩
      · simpa using hk.seat
      · simpa [Block.bank] using hk.spills q
    · next b' r _ hs =>
      have hk := Block.sendWb_keepsRecords rfl hs
      obtain ⟨hr, hseat, hsp⟩ := ih b' y (by rw [← hy, Block.rec?, Block.rec?, hk.ctx])
      exact ⟨hr, hseat.trans hk.seat, fun q => (hsp q).trans (hk.spills q)⟩

theorem Block.nextBucket_of_map_zero {b : Block} {c : CtxNo} {x : Ctx} {f : Refill} (hmap : x.spillMap = 0)
    (hf : x.refill = some f) :
    (b.setRec c x).nextBucket c = ((b.setRec c { x with refill := none, refillOn := false, dirty := true }).writeDescs c
      { x with refillOn := false, dirty := true } f.descs).kickSpills (ctxBank c) := by
  have hend : (b.setRec c x).nextBucket c = (b.setRec c x).endRefill c := by simp [Block.nextBucket, hmap]
  rw [hend]
  simp [Block.endRefill, Block.modRec, Block.pauseRefill, hf]

/-! ### A bucket reaches its refill -/

/-- The bucket that the spill map names alone, with no push of the bank, is the front of the spill area. -/
theorem Block.bucketStale_of_one_bucket {b : Block} {c : CtxNo} {x : Ctx} {f : Refill}
    (hmap : x.spillMap = (1 : BitVec 64) <<< f.prio.toNat) (hsp : (b.bank (ctxBank c)).spills = []) : b.bucketStale c x f = false := by
  simp [Block.bucketStale, spillBest_of_one_bucket hmap, hsp]

section Refill

variable {b : Block} {c : CtxNo} {x : Ctx} {f : Refill}
  (hmap : x.spillMap = (1 : BitVec 64) <<< f.prio.toNat) (hsp : (b.bank (ctxBank c)).spills = [])
include hmap hsp

/-- An unreadable bucket is taken as empty (R70, Table 10-5), and ends the refill. -/
theorem Block.takeBucket_err (hf : x.refill = some f) (hdescs : f.descs = []) :
    b.takeBucket c x f .err =
      b.setRec c { x with spillMap := 0, flags := setBit x.flags 5 true, refill := none, refillOn := false, dirty := true } := by
  have htake : b.takeBucket c x f .err = (b.setRec c { x with spillMap := 0, flags := setBit x.flags 5 true }).nextBucket c := by
    simp [Block.takeBucket, Block.bucketStale_of_one_bucket hmap hsp, hsp, hmap, setBit_of_one_bucket]
  rw [htake, Block.nextBucket_of_map_zero rfl (by exact hf), hdescs]
  rw [Block.kickSpills_of_no_push]
  · simp [Block.writeDescs]
  · simpa [Block.writeDescs, Block.bank] using hsp

/-- A readable bucket of at most 4 entries with keys of their own gives them all to the shortlist and ends the refill. -/
theorem Block.takeBucket_ok {bytes : List Byte} {h n : Nat} (hlen : x.shortlist.length < 4)
    (hd : descOf (leBits 128 (bytes.take 16)) = some (h, n)) (hn0 : 0 < n) (hn4 : n ≤ 4)
    (hkeys : (x.shortlist ++ bucketEntries bytes h n).Pairwise (fun e e' => sameKey e e' = false)) :
    ∃ fl, (b.takeBucket c x f (.ok bytes)).rec? c = some { x with
        shortlist := x.shortlist ++ bucketEntries bytes h n, spillMap := 0, refill := none, refillOn := false, dirty := true,
        flags := fl } ∧ (b.takeBucket c x f (.ok bytes)).seat = b.seat := by
  have hes : bucketEntries bytes h n ≠ [] := by
    intro he
    have := bucketEntries_length bytes h n
    simp [he] at this
    omega
  have hentries := takeEntries_of_four (by omega) (by simpa using hn4) hes hkeys
  obtain ⟨f', htake⟩ : ∃ f', b.takeBucket c x f (.ok bytes) = (b.setRec c { x with
      shortlist := x.shortlist ++ bucketEntries bytes h n, refill := some f', spillMap := 0 }).nextBucket c := by
    refine ⟨{ f with descs := f.descs ++ [(f.prio, descBytes ((h + n) % 15) 0)] }, ?_⟩
    simp [Block.takeBucket, Block.bucketStale_of_one_bucket hmap hsp, hsp, hmap, setBit_of_one_bucket, hd, hentries,
      show ¬ n = 0 by omega]
  rw [htake, Block.nextBucket_of_map_zero rfl rfl]
  obtain ⟨⟨fl, hr⟩, hseat, hspills⟩ := Block.writeDescs_resident _ c _ _ f'.descs (Block.rec?_setRec ..)
  rw [Block.kickSpills_of_no_push]
  · exact ⟨fl, hr, hseat⟩
  · rw [hspills]
    simpa [Block.bank] using hsp

end Refill

/-- The answer to the one bucket that a refill reads. -/
theorem effRefillDone_one {b : Block} {c : CtxNo} {x : Ctx} {f : Refill} {pa : BitVec 64} {dev sh : Bool} (r : MemResp)
    (hx : b.rec? c = some x) (hf : x.refill = some f) (hph : f.phase = .issued pa dev sh) (hw : b.xl.trkWait = [])
    (ho : b.xl.orphans = []) : effRefillDone b c [⟨f.prio, r⟩] = (giveShared b 4).takeBucket c x f r := by
  simp [effRefillDone, Block.orphanDone_of_no_orphans ho, hx, hf, hph, Phase.isIssued, Block.freeLines_of_no_wait hw]

/-- Settles O17: the bucket is the front of the spill area, so it reaches the refill; with the spill map empty then, the refill
ends. -/
theorem refillsMoveEntriesBack : Obligations.RefillsMoveEntriesBack := by
  unfold Obligations.RefillsMoveEntriesBack
  intro s c x f pa dev sh hx hf hph hdescs hmap hsp hw ho hlen b
  have heff : ∀ r, effRefillDone s.blk c [⟨f.prio, r⟩] = b.takeBucket c x f r := fun r => effRefillDone_one r hx hf hph hw ho
  refine ⟨fun bytes h n hd hn0 hn4 hkeys => .of_effect rfl (heff (.ok bytes)) ?_,
    .of_effect rfl ((heff .err).trans (Block.takeBucket_err (b := b) hmap hsp hf hdescs))⟩
  obtain ⟨fl, hr, hseat⟩ := Block.takeBucket_ok (b := b) hmap hsp hlen hd hn0 hn4 hkeys
  exact ⟨_, hr, rfl, rfl, rfl, rfl, rfl, rfl, rfl, hseat⟩

end Sys2Proof.Machine

namespace Sys2Proof.Machine

/-! ### A translation that is answered at once -/

/-- An address that the TLB answers leaves the block as it is, but for the TLB's order of use. -/
theorem xlate_ok {b b' : Block} {q : XReq} {pa : BitVec 64} {dev : Bool} (h : xlate b q = (b', .ok pa dev)) :
    ∃ t, b' = { b with xl := { b.xl with tlb := t } } := by
  unfold xlate at h
  dsimp only at h
  split at h
  · cases h
  · split at h
    · unfold xHit at h
      split at h
      · cases h; exact ⟨_, rfl⟩
      · cases h
    · split at h <;> cases h

/-! ### Writes of a context leave through their writer's port (R248, R249) -/

/-- One block is another but for the writers, the context banks, the ages of requests, and what it has counted and reported. -/
def Block.WritesOut (b r : Block) : Prop := Block.Notes [pgPMU, pgRM] { b with wr := r.wr, cb := r.cb, ages := r.ages } r

theorem Block.WritesOut.refl (b : Block) : Block.WritesOut b b := Block.Notes.refl _ _

theorem Block.WritesOut.trans {a b c : Block} (h : Block.WritesOut a b) (k : Block.WritesOut b c) : Block.WritesOut a c :=
  Block.Notes.trans (h.map (fun x => { x with wr := c.wr, cb := c.cb, ages := c.ages }) (fun _ _ _ _ _ => rfl) fun _ => ⟨rfl, rfl⟩) k

theorem Block.WritesOut.setWriter {a b : Block} (h : Block.WritesOut a b) (w : Nat) (k : Writer) :
    Block.WritesOut a (b.setWriter w k) := h.trans (Block.Notes.refl _ _)

theorem Block.WritesOut.setBank {a b : Block} (h : Block.WritesOut a b) (q : Nat) (k : CBank) : Block.WritesOut a (b.setBank q k) :=
  h.trans (Block.Notes.refl _ _)

theorem Block.WritesOut.granted {a b : Block} (h : Block.WritesOut a b) (r : Res) (i : Nat) : Block.WritesOut a (b.granted r i) :=
  h.trans (Block.Notes.refl _ _)

theorem Block.WritesOut.pmuEv {a b : Block} (h : Block.WritesOut a b) (ev : BitVec 8) (unit n : Nat) :
    Block.WritesOut a (b.pmuEv ev unit n) := by
  refine h.trans ?_
  have hn := Block.pmuEv_notes b ev unit n
  have hb : ({ b with wr := (b.pmuEv ev unit n).wr, cb := (b.pmuEv ev unit n).cb, ages := (b.pmuEv ev unit n).ages } : Block) = b := by
    simp
  unfold Block.WritesOut
  rw [hb]
  exact hn

/-- A write of 16 bytes of the PMF that waits for requester 1's grant. -/
def PortWrite.plain (p : PortWrite) : Prop := p.req = 1 ∧ p.m.bytes.length = 16 ∧ p.m.tag.owner = 0

/-- A writer to which only requester 1 presents writes, with bandwidth for them all. -/
structure Writer.Serves (k : Writer) (ps : List PortWrite) : Prop where
  ready : k.ready = ps
  recs : k.recs = []
  idxWait : k.idxWait = []
  plain : ∀ p ∈ ps, p.plain
  tokens : 128 * ps.length ≤ k.tokens

theorem Writer.Serves.headWrite {k : Writer} {ps : List PortWrite} (h : k.Serves ps) : k.headWrite = none := by
  simp [Writer.headWrite, Writer.heads, h.recs, h.idxWait, oldestWrite]

theorem Writer.Serves.eligible {k : Writer} {ps : List PortWrite} (h : k.Serves ps) (i : Nat) :
    k.eligible i = (decide (i = 1) && !ps.isEmpty) := by
  by_cases h0 : i = 0
  · simp [Writer.eligible, h0, h.headWrite]
  · cases ps with
    | nil => simp [Writer.eligible, h0, Writer.portHead, h.ready]
    | cons p ps =>
      obtain ⟨hreq, hlen, -⟩ := h.plain p (by simp)
      by_cases h1 : i = 1
      · have htok : 128 ≤ k.tokens := by
          have := h.tokens
          simp only [List.length_cons] at this
          omega
        simp [Writer.eligible, h1, Writer.portHead, h.ready, hreq, hlen, htok]
      · have hnone : k.portHead i = none := by
          rw [Writer.portHead, h.ready, List.find?_eq_none]
          intro p' hp'
          simpa [(h.plain p' hp').1] using fun e => h1 e.symm
        simp [Writer.eligible, h0, hnone, h1]

theorem Block.wmemPick_of_serves {b : Block} {w : Nat} {ps : List PortWrite} (h : (b.writer w).Serves ps) :
    b.wmemPick w = if ps.isEmpty then none else some 1 := by
  have helig := fun i => h.eligible i
  cases ps <;> simp [Block.wmemPick, Block.pick, Res.requesters, pickOldest, helig]

/-- A write of the PMF is in no dirty log. -/
theorem Block.issueWrite_of_pmf (b : Block) (w : Nat) (m : MemWrite) (seg : BitVec 6) (h : m.tag.owner = 0) :
    b.issueWrite w m seg = (b.setWriter w { (b.writer w).spend m.bytes.length with out := (b.writer w).out ++ [m] }).pmuEv 0x13 w
      (beats32 m.bytes.length) := by
  simp [Block.issueWrite, Block.logPage, h]

/-- The port grants the writes it serves one after the other, in order. -/
theorem Block.grantPort_of_serves {b : Block} {w fuel : Nat} {ps : List PortWrite} (h : (b.writer w).Serves ps)
    (hfuel : ps.length ≤ fuel) :
    ((b.grantPort w fuel).writer w).out = (b.writer w).out ++ ps.map PortWrite.m ∧ Block.WritesOut b (b.grantPort w fuel) := by
  induction ps generalizing b fuel with
  | nil =>
    have hr : b.grantPort w fuel = b := by cases fuel <;> simp [Block.grantPort, Block.wmemPick_of_serves h]
    rw [hr]
    exact ⟨by simp, .refl b⟩
  | cons p ps ih =>
    obtain _ | fuel := fuel
    · simp at hfuel
    obtain ⟨hreq, hlen, hown⟩ := h.plain p (by simp)
    have hhead : (b.writer w).portHead 1 = some p := by simp [Writer.portHead, h.ready, hreq]
    have hrest : (b.writer w).ready.erase p = ps := by simp [h.ready]
    have htok := h.tokens
    simp only [List.length_cons] at htok
    unfold Block.grantPort
    simp only [Block.wmemPick_of_serves h, hhead, hrest, List.isEmpty_cons, Bool.false_eq_true, if_false,
      Block.issueWrite_of_pmf _ _ _ _ hown, hlen]
    set b' := (((b.setWriter w { b.writer w with ready := ps }).granted (.wmem w) 1).setWriter w _).pmuEv 0x13 w _ with hb'
    have hserves : (b'.writer w).Serves ps := by
      have hw : b'.writer w = { b.writer w with
          tokens := (b.writer w).tokens - 128, ready := ps, out := (b.writer w).out ++ [p.m] } := by
        rw [hb']
        simp [Block.writer, Block.setWriter, Block.granted, Writer.spend]
      rw [hw]
      exact ⟨rfl, h.recs, h.idxWait, fun q hq => h.plain q (by simp [hq]), by dsimp only; omega⟩
    obtain ⟨hout, hwrites⟩ := ih hserves (by simpa using hfuel)
    have hstep : Block.WritesOut b b' := by
      rw [hb']
      exact ((((Block.WritesOut.refl b).setWriter w _).granted _ 1).setWriter w _).pmuEv 0x13 w _
    refine ⟨?_, hstep.trans hwrites⟩
    rw [hout, hb']
    simp [Block.writer, Block.setWriter, Block.granted]

/-- A write of a context as it goes to memory. -/
def WbReq.memWrite (q : WbReq) (pa : BitVec 64) (dev : Bool) (x : Nat × List Byte) : MemWrite :=
  { kind := q.kind, pa := (pa &&& ~~~0xFFF#64) + BitVec.ofNat 64 x.1, bytes := x.2, dev, tag := q.tag }

/-- A write of a context as its writer's requester 1 presents it. -/
def WbReq.portWrite (q : WbReq) (pa : BitVec 64) (dev : Bool) (x : Nat × List Byte) : PortWrite :=
  { req := 1, seg := q.seg, m := q.memWrite pa dev x }

/-- Two writes of 16 bytes of the PMF, translated together, leave through an empty port one after the other. -/
theorem Block.issueWb_of_two {b : Block} {q : WbReq} {pa : BitVec 64} {dev : Bool} {x y : Nat × List Byte} (hfull : q.full = false)
    (hq : q.writes = [x, y]) (hown : q.tag.owner = 0) (hx : x.2.length = 16) (hy : y.2.length = 16)
    (hready : (b.writer (q.ctx.toNat % 4)).ready = []) (hrecs : (b.writer (q.ctx.toNat % 4)).recs = [])
    (hidx : (b.writer (q.ctx.toNat % 4)).idxWait = []) (htok : 256 ≤ (b.writer (q.ctx.toNat % 4)).tokens) :
    ((b.issueWb q pa dev).writer (q.ctx.toNat % 4)).out = (b.writer (q.ctx.toNat % 4)).out ++ [x, y].map (q.memWrite pa dev) ∧
      Block.WritesOut b (b.issueWb q pa dev) := by
  have hserves : ((b.setWriter (q.ctx.toNat % 4) { b.writer (q.ctx.toNat % 4) with
      ready := [x, y].map (q.portWrite pa dev) }).writer (q.ctx.toNat % 4)).Serves ([x, y].map (q.portWrite pa dev)) := by
    rw [Block.writer_setWriter]
    refine ⟨rfl, hrecs, hidx, ?_, by simpa using htok⟩
    simp [PortWrite.plain, WbReq.portWrite, WbReq.memWrite, hown, hx, hy]
  obtain ⟨hout, hwrites⟩ := Block.grantPort_of_serves (fuel := 64) hserves (by simp)
  have hissue : b.issueWb q pa dev = (b.setWriter (q.ctx.toNat % 4) { b.writer (q.ctx.toNat % 4) with
      ready := [x, y].map (q.portWrite pa dev) }).grantPort (q.ctx.toNat % 4) 64 := by
    simp [Block.issueWb, hfull, hq, Block.present, hready, WbReq.portWrite, WbReq.memWrite]
  rw [hissue]
  exact ⟨by simpa [WbReq.portWrite, Function.comp_def] using hout, ((Block.WritesOut.refl b).setWriter _ _).trans hwrites⟩

theorem Block.sendWb_ok {b b' : Block} {q : WbReq} {op : BitVec 4} {pa : BitVec 64} {dev : Bool}
    (h : xlate b { seg := q.seg, off := q.off, op, owner := q.tag.owner, obj := q.ctx, cont := .wb (q.ctx.toNat % 4) } =
      (b', .ok pa dev)) : b.sendWb q op = (b'.issueWb q pa dev, .issued) := by
  simp only [Block.sendWb, h]

/-! ### What waits for a context's spill area -/

theorem Block.maybeRefill_of_no_rec {b : Block} {c : CtxNo} (h : b.rec? c = none) : b.maybeRefill c = b := by
  simp [Block.maybeRefill, h]

/-- While a push of the context is in the engine, no refill of it starts. -/
theorem Block.maybeRefill_of_push {b : Block} {c : CtxNo} {x : Spill} (h : b.spillOf c = some x) : b.maybeRefill c = b := by
  unfold Block.maybeRefill
  split <;> simp [h]

/-- A push that has started does not start again. -/
theorem Block.kickSpills_of_started {b : Block} {q : Nat} {x : Spill} (hx : (b.bank q).spills = [x]) (hq : ctxBank x.ctx = q)
    (hph : x.ph ≠ .queued) : b.kickSpills q = b := by
  subst hq
  have hof : b.spillOf x.ctx = some x := by simp [Block.spillOf, hx]
  simp [Block.kickSpills, hx, Block.startSpill, hof, hph]

theorem Block.kickLoad_of_no_load {b : Block} {c : CtxNo} (h : b.loads.find? c.toNat = none) : b.kickLoad c = b := by
  have hstart : b.startLoad c = b := by simp [Block.startLoad, h]
  have hread : b.readDescs c 128 = b := by simp [Block.readDescs, h]
  simp [Block.kickLoad, hstart, hread, h]

/-- Where neither a push nor a refill can start, and the context neither leaves nor loads, nothing goes on. -/
theorem Block.kickCtx_of_quiet {b : Block} {c : CtxNo} (hspills : b.kickSpills (ctxBank c) = b) (hrefill : b.maybeRefill c = b)
    (hleave : b.leave.find? c.toNat = none) (hloads : b.loads.find? c.toNat = none) : b.kickCtx c = b := by
  have hkick : b.kickLeave c = b := by simp [Block.kickLeave, hleave]
  simp [Block.kickCtx, hspills, hrefill, hkick, Block.kickLoad_of_no_load hloads]

/-! ### The push of an entry at the back of its bucket (R69 to R71) -/

/-- The descriptor of a push is read, and nothing waits for its tracker: the entry is pushed. -/
theorem effSpillPush_of_desc {b : Block} {c : CtxNo} {x : Spill} {ph : BitVec 64} {dv sh : Bool} {bytes : List Byte} {d : Nat × Nat}
    {seg : BitVec 6} {page : BitVec 36} {o : OwnerNo} (hx : (b.bank (ctxBank c)).spills = [x]) (hc : x.ctx = c)
    (hph : x.ph = .descRead (.issued ph dv sh)) (hk : x.known = some (seg, page, o)) (hd : descOf (leBits 128 (bytes.take 16)) = some d)
    (hw : b.xl.trkWait = []) (ho : b.xl.orphans = []) :
    effSpillPush b c (.ok bytes) = ((giveShared b 1).pushEntry x seg page (some d)).kickCtx c := by
  have hof : b.spillOf c = some x := by simp [Block.spillOf, hx, hc]
  simp [effSpillPush, Block.orphanDone_of_no_orphans ho, hof, hph, Phase.isIssued, Block.freeLines_of_no_wait hw, Block.pushDesc, hk, hd]

/-- A full bucket drops the entry of a context that is not resident and not leaving. -/
theorem Block.pushEntry_full {b : Block} {x : Spill} {seg : BitVec 6} {page : BitVec 36} {h : Nat} (hfront : x.front = false)
    (hx : (b.bank (ctxBank x.ctx)).spills = [x]) (hrec : b.rec? x.ctx = none) (hleave : b.leave.find? x.ctx.toNat = none) :
    b.pushEntry x seg page (some (h, 15)) =
      ((((b.setBank (ctxBank x.ctx) { b.bank (ctxBank x.ctx) with spills := [] }).cnt (pgRE (ctxBank x.ctx)) 0x074).flag
        (pgRE (ctxBank x.ctx)) 1).reErr x.ctx 2) := by
  have hdrop : b.dropSpill x.ctx = b.setBank (ctxBank x.ctx) { b.bank (ctxBank x.ctx) with spills := [] } := by
    simp [Block.dropSpill, hx, eraseFirst]
  have hrec' : (b.setBank (ctxBank x.ctx) { b.bank (ctxBank x.ctx) with spills := [] }).rec? x.ctx = none := by
    simpa [Block.rec?] using hrec
  simp [Block.pushEntry, hfront, hdrop, Block.spillDrop, Block.ctxFlag, hrec', hleave]

/-- The writes of an entry at the back of a bucket with room, and of its descriptor. -/
def Spill.backWrites (s : Spill) (seg : BitVec 6) (page : BitVec 36) (h n : Nat) : WbReq :=
  { kind := .spill s.ctx, ctx := s.ctx, seg, off := bucketOff page s.entry.prio + BitVec.ofNat 64 (16 + 16 * ((h + n) % 15)), tag := s.tag
    writes := [(inPage (bucketOff page s.entry.prio) + 16 + 16 * ((h + n) % 15), leBytes 16 (entryBits s.entry).toNat),
               (inPage (bucketOff page s.entry.prio), descBytes h (n + 1))] }

/-- The push of an entry of the PMF into a bucket with room, whose address is known. -/
theorem Block.pushEntry_room {b b' : Block} {x : Spill} {seg : BitVec 6} {page : BitVec 36} {h n : Nat} {pa : BitVec 64} {dev : Bool}
    (hfront : x.front = false) (hn : n < 15) (hown : x.tag.owner = 0)
    (hxl : xlate b { seg, off := bucketOff page x.entry.prio + BitVec.ofNat 64 (16 + 16 * ((h + n) % 15)), op := opSpillW,
                     obj := x.ctx, cont := .wb (x.ctx.toNat % 4) } = (b', .ok pa dev)) :
    b.pushEntry x seg page (some (h, n)) =
      ((b'.issueWb (x.backWrites seg page h n) pa dev).modSpill x.ctx fun s => { s with ph := .written 2 }).pmuEv 0x0D
        (ctxBank x.ctx) := by
  have hne : ¬ n = 15 := by omega
  have hsend : b.sendWb (x.backWrites seg page h n) opSpillW = (b'.issueWb (x.backWrites seg page h n) pa dev, .issued) :=
    Block.sendWb_ok (by simpa only [Spill.backWrites, hown] using hxl)
  unfold Spill.backWrites at hsend ⊢
  simp [Block.pushEntry, hne, hfront, hsend]

/-- The first push of a context's bank changes, where it is the only one. -/
theorem Block.spills_modSpill_of_only {b : Block} {x : Spill} (f : Spill → Spill) (h : (b.bank (ctxBank x.ctx)).spills = [x]) :
    ((b.modSpill x.ctx f).bank (ctxBank x.ctx)).spills = [f x] := by
  simp [Block.modSpill, h, modifyFirst]

theorem Block.writer_modSpill (b : Block) (c : CtxNo) (f : Spill → Spill) (w : Nat) : (b.modSpill c f).writer w = b.writer w := rfl

@[simp] theorem leBytes_length (n x : Nat) : (leBytes n x).length = n := by
  induction n generalizing x with
  | zero => rfl
  | succ n ih => simp [leBytes, ih]

/-- Settles O16: the port serves the entry's and the descriptor's write at once (R249), and no other push or refill of the context
can start before they are accepted (R66); of a full bucket only the counts stay. -/
theorem pushesWriteTheBucket : Obligations.PushesWriteTheBucket := by
  unfold Obligations.PushesWriteTheBucket
  intro s c x ph dv sh bytes h n seg page o hx hc hph hfront hk hd hleave hloads hw ho b w off slot
  have heff : effSpillPush s.blk c (.ok bytes) = (b.pushEntry x seg page (some (h, n))).kickCtx c :=
    effSpillPush_of_desc hx hc hph hk hd hw ho
  subst hc
  refine ⟨fun hn hown b' pa dev hxl hready hrecs hidx htok => .of_effect rfl heff ?_, fun hn hrec => .of_effect rfl (heff.trans ?_)⟩
  · obtain ⟨t, hb'⟩ := xlate_ok hxl
    obtain ⟨hout, hwrites⟩ := Block.issueWb_of_two (b := b') (q := x.backWrites seg page h n) (pa := pa) (dev := dev) rfl rfl hown
      (by simp) (by simp [descBytes]) hready hrecs hidx htok
    have hspills : ((b'.issueWb (x.backWrites seg page h n) pa dev).bank (ctxBank x.ctx)).spills = [x] := by
      rw [(Block.issueWb_keepsRecords b' rfl pa dev).spills, ← hx, hb']
      rfl
    rw [Block.pushEntry_room hfront hn hown hxl]
    generalize hr : ((b'.issueWb (x.backWrites seg page h n) pa dev).modSpill x.ctx fun s => { s with ph := .written 2 }).pmuEv 0x0D
      (ctxBank x.ctx) = r
    have hnow : (r.bank (ctxBank x.ctx)).spills = [{ x with ph := .written 2 }] := by
      rw [← hr, Block.bank_pmuEv, Block.spills_modSpill_of_only _ hspills]
    have hrw : Block.WritesOut b' r := by
      rw [← hr]
      exact (hwrites.setBank _ _).pmuEv _ _ _
    rw [Block.kickCtx_of_quiet]
    · refine ⟨?_, hnow, hrw⟩
      rw [← hr, Block.writer_pmuEv, Block.writer_modSpill]
      exact hout
    · exact Block.kickSpills_of_started hnow rfl (by simp)
    · exact Block.maybeRefill_of_push (x := { x with ph := .written 2 }) (by simp [Block.spillOf, hnow])
    · rw [hrw.rest, hb']; exact hleave
    · rw [hrw.rest, hb']; exact hloads
  · subst hn
    rw [Block.pushEntry_full (b := b) hfront hx hrec hleave, Block.kickCtx_of_quiet]
    · exact Block.kickSpills_of_no_push (by simp [Block.reErr])
    · refine Block.maybeRefill_of_no_rec ?_
      simpa [Block.reErr, Block.rec?] using hrec
    · simpa [Block.reErr] using hleave
    · simpa [Block.reErr] using hloads

end Sys2Proof.Machine

namespace Sys2Proof.Machine

/-! ### The address of a register (R320) -/

/-- The address of a register in an alias part of its page. -/
def regAddr (pg off : Nat) (al : Alias) : Nat := 0x4000 * pg + 0x1000 * aliasNum al + off

theorem aliasNum_lt (al : Alias) : aliasNum al < 4 := by cases al <;> decide

@[simp] theorem aliasOf_aliasNum (al : Alias) : aliasOf (aliasNum al) = al := by cases al <;> rfl

section Address

variable {pg off : Nat} (al : Alias)

theorem pageOf_regAddr (hpg : pg < 128) (hoff : off < 0x1000) : pageOf (regAddr pg off al) = pg := by
  have := aliasNum_lt al
  unfold pageOf regAddr
  omega

theorem partOf_regAddr (hoff : off < 0x1000) : partOf (regAddr pg off al) = al := by
  have hal := aliasNum_lt al
  have hnum : regAddr pg off al / 0x1000 % 4 = aliasNum al := by
    unfold regAddr
    omega
  rw [partOf, hnum, aliasOf_aliasNum]

theorem regAddr_mod (hoff : off < 0x1000) : regAddr pg off al % 0x1000 = off := by
  unfold regAddr
  omega

theorem offOf_regAddr (hoff : off < 0x1000) (h4 : off % 4 = 0) : offOf (regAddr pg off al) = off := by
  rw [offOf, regAddr_mod al hoff]
  omega

theorem regAccess_addr (hpg : pg < 128) (hoff : off < 0x1000) (id : BitVec 5) (d : Word) :
    (regAccess pg off al id d).addr.toNat = regAddr pg off al := by
  have := aliasNum_lt al
  simp only [regAccess, regAddr, BitVec.toNat_ofNat]
  omega

/-- The word of a register access stands in the lanes of its address. -/
theorem laneWord_regAccess (id : BitVec 5) (d : Word) :
    laneWord (regAddr pg off al) (regAccess pg off al id d).data = d := by
  have hlane : regAddr pg off al % 8 = off % 8 := by
    unfold regAddr
    omega
  have hlow : fld (d.setWidth 64) 31 0 = d := by
    apply BitVec.eq_of_toNat_eq
    simp [fld]
    omega
  have hhigh : fld (at' d 32 : BitVec 64) 63 32 = d := by
    apply BitVec.eq_of_toNat_eq
    have := d.isLt
    simp [fld, at', Nat.shiftLeft_eq, Nat.shiftRight_eq_div_pow]
    omega
  simp only [laneWord, hlane, regAccess, inLane]
  split
  · exact hlow
  · exact hhigh

end Address

/-! ### A register write at a free port (R324, R326) -/

section Port

variable {b : Block} {pg off : Nat} {al : Alias} {id : BitVec 5} {d : Word}

theorem Block.nextPart_regAccess (hpg : pg < 128) (hoff : off < 0x1000) (h4 : off % 4 = 0) :
    b.nextPart (regAccess pg off al id d) = regAddr pg off al := by
  have haddr := regAccess_addr al hpg hoff id d
  have hsize : ¬ (regAccess pg off al id d).size.toNat = 3 := by simp [regAccess]
  rw [Block.nextPart, if_neg hsize, haddr]
  unfold regAddr
  omega

theorem badAccess_regAccess (hpg : pg < 128) (hoff : off < 0x1000) (h4 : off % 4 = 0) :
    badAccess (regAccess pg off al id d) true = none := by
  have haddr := regAccess_addr al hpg hoff id d
  have halign : misaligned (regAccess pg off al id d).addr.toNat (regAccess pg off al id d).size.toNat = false := by
    have hsize : (regAccess pg off al id d).size.toNat = 2 := rfl
    rw [misaligned, haddr, hsize]
    unfold regAddr
    simp
    omega
  simp only [badAccess, halign]
  rfl

theorem Block.admitsPart_regAccess (hpg : pg < 128) (hoff : off < 0x1000) :
    b.admitsPart (regAccess pg off al id d) true (regAddr pg off al) = b.admits true id pg (off / 4) true := by
  have htpn : tpnOf (regAccess pg off al id d) (regAddr pg off al) = pg := pageOf_regAddr al hpg hoff
  rw [Block.admitsPart, htpn, regAddr_mod al hoff]
  rfl

theorem Block.partAsk_regAccess (hpg : pg < 128) (hoff : off < 0x1000) (h4 : off % 4 = 0) :
    b.partAsk (regAccess pg off al id d) true (regAddr pg off al) = b.regAsk pg off := by
  have hask : b.partAsk (regAccess pg off al id d) true (regAddr pg off al) =
      b.regAsk (pageOf (regAddr pg off al)) (offOf (regAddr pg off al)) := rfl
  rw [hask, pageOf_regAddr al hpg hoff, offOf_regAddr al hoff h4]

theorem Block.openPart_regAccess (hpg : pg < 128) (hoff : off < 0x1000) (h4 : off % 4 = 0) :
    b.openPart (regAccess pg off al id d) true (regAddr pg off al) =
      ((b.writeOpen id pg al off d).1, (b.writeOpen id pg al off d).2, 0) := by
  have hpart : b.openPart (regAccess pg off al id d) true (regAddr pg off al) =
      ((b.writeOpen id (pageOf (regAddr pg off al)) (partOf (regAddr pg off al)) (offOf (regAddr pg off al))
          (laneWord (regAddr pg off al) (regAccess pg off al id d).data)).1,
        (b.writeOpen id (pageOf (regAddr pg off al)) (partOf (regAddr pg off al)) (offOf (regAddr pg off al))
          (laneWord (regAddr pg off al) (regAccess pg off al id d).data)).2, 0) := rfl
  rw [hpart, pageOf_regAddr al hpg hoff, partOf_regAddr al hoff, offOf_regAddr al hoff h4, laneWord_regAccess al]

/-- A register write stands alone at the port. -/
def Block.arrived (b : Block) (a : Access) : Block := { b with fab := { b.fab with q := [(a, true)] } }

theorem Block.portFree_iff : b.portFree = true ↔ b.fab.q = [] ∧ b.fab.ask = .none ∧ b.fab.done = none := by
  simp [Block.portFree, and_assoc]

theorem Block.regCmd_of_free {w : RegAcc} (hfree : b.portFree = true) :
    b.regCmd pg off w = (b.arrived (regAccess pg off w.als w.rid w.data)).servePort 4 := by
  obtain ⟨hq, -, -⟩ := Block.portFree_iff.mp hfree
  simp [Block.regCmd, Block.access, regAccess, Block.runPort, Block.arrived, hq]

theorem Block.popHead_arrived (hfree : b.portFree = true) (a : Access) : (b.arrived a).popHead = b := by
  obtain ⟨hq, -, hdone⟩ := Block.portFree_iff.mp hfree
  simp only [Block.popHead, Block.arrived, List.drop_succ_cons, List.drop_zero, ← hq, ← hdone]

/-- A port at which nothing stands does nothing. -/
theorem Block.servePort_of_empty (hq : b.fab.q = []) (fuel : Nat) : b.servePort fuel = b := by
  cases fuel <;> simp [Block.servePort, Block.portStep, hq]

/-- A step of the port that serves a register write: the write is checked, or gets the grant that it asked for, or waits. -/
theorem Block.portStep_regAccess (hpg : pg < 128) (hoff : off < 0x1000) (h4 : off % 4 = 0)
    (hq : b.fab.q = [(regAccess pg off al id d, true)]) (hmode : b.portMode = .serve) (hadm : b.admits true id pg (off / 4) true = true) :
    b.portStep =
      if b.fab.ask = .none then some (b.tryPart (regAccess pg off al id d) true (regAddr pg off al) .none)
      else if b.askPicked then some (b.takeGrant.tryPart (regAccess pg off al id d) true (regAddr pg off al) b.fab.ask)
      else none := by
  have hserve : b.modeOf (regAccess pg off al id d) = .serve := by simp [Block.modeOf, hmode, regAccess]
  unfold Block.portStep
  simp only [hq, hserve, Block.nextPart_regAccess hpg hoff h4, badAccess_regAccess hpg hoff h4, Block.admitsPart_regAccess hpg hoff,
    hadm, if_true]

/-- A register write that waits for nothing, or has the grant that it waited for, is performed and answered. -/
theorem Block.tryPart_regAccess (hpg : pg < 128) (hoff : off < 0x1000) (h4 : off % 4 = 0) (hfree : b.portFree = true) {q : PortAsk}
    (hask : b.regAsk pg off = .none ∨ b.regAsk pg off = q) :
    (b.arrived (regAccess pg off al id d)).tryPart (regAccess pg off al id d) true (regAddr pg off al) q =
      (b.oneSeq (b.writeOpen id pg al off d).1).answer (b.writeOpen id pg al off d).2 0 := by
  obtain ⟨-, -, hdone⟩ := Block.portFree_iff.mp hfree
  have hpart : (b.arrived (regAccess pg off al id d)).partAsk (regAccess pg off al id d) true (regAddr pg off al) = b.regAsk pg off := by
    rw [Block.partAsk_regAccess hpg hoff h4]
    rfl
  have hsize : (regAccess pg off al id d).size.toNat ≠ 3 := by simp [regAccess]
  have hdone' : (b.arrived (regAccess pg off al id d)).fab.done = none := hdone
  unfold Block.tryPart
  simp only [hpart]
  rw [if_pos (by simpa using hask)]
  unfold Block.doPart
  simp only [Block.popHead_arrived hfree, Block.openPart_regAccess hpg hoff h4, hdone']
  simp [hsize, Block.answer]

end Port

/-! ### A mask write asks for the bank of its event (R56, R443) -/

/-- The resources that a register write of an engine's page may have to wait for (R56). -/
def PortAsk.isMask : PortAsk → Prop
  | .none | .mask _ => True
  | _ => False

theorem Block.turn_none (b : Block) : b.turn .none = b := by simp [Block.turn]

/-- The grant of a mask write touches the port's request and ages only. -/
theorem Block.turn_parts (b : Block) {q : PortAsk} (hq : q.isMask) :
    ∃ o g, b.turn q = { b with fab := { b.fab with ask := if q = .none then b.fab.ask else .none, askOld := o }, ages := g } := by
  cases q with
  | none => exact ⟨b.fab.askOld, b.ages, by simp [Block.turn_none]⟩
  | mask e => exact ⟨false, (b.turn (.mask e)).ages, by simp [Block.turn, Block.putAsk, Block.takeGrant, Block.granted]⟩
  | ring r => exact hq.elim
  | bank q => exact hq.elim

section Waits

variable {b : Block} {pg off : Nat} {w : RegAcc}

theorem Block.portFree_turn {q : PortAsk} (hq : q.isMask) (h : b.portFree = true) : (b.turn q).portFree = true := by
  obtain ⟨hempty, hask, hdone⟩ := Block.portFree_iff.mp h
  obtain ⟨o, g, hturn⟩ := Block.turn_parts b hq
  rw [Block.portFree_iff, hturn]
  exact ⟨hempty, by simp [hask], hdone⟩

theorem Block.oneSeq_turn {q : PortAsk} (hq : q.isMask) (c : Block) : (b.turn q).oneSeq c = b.oneSeq c := by
  obtain ⟨o, g, hturn⟩ := Block.turn_parts b hq
  rw [hturn]
  rfl

theorem Block.regAsk_turn {q : PortAsk} (hq : q.isMask) : (b.turn q).regAsk pg off = b.regAsk pg off := by
  obtain ⟨o, g, hturn⟩ := Block.turn_parts b hq
  rw [hturn]
  rfl

/-- A register write that needs the bank of an event asks for it. -/
theorem Block.tryPart_asks (hpg : pg < 128) (hoff : off < 0x1000) (h4 : off % 4 = 0) {e : Event}
    (hwant : b.regAsk pg off = .mask e) :
    (b.arrived (regAccess pg off w.als w.rid w.data)).tryPart (regAccess pg off w.als w.rid w.data) true (regAddr pg off w.als) .none =
      (b.putAsk (.mask e)).arrived (regAccess pg off w.als w.rid w.data) := by
  have hpart : (b.arrived (regAccess pg off w.als w.rid w.data)).partAsk (regAccess pg off w.als w.rid w.data) true
      (regAddr pg off w.als) = .mask e := by
    rw [Block.partAsk_regAccess hpg hoff h4, ← hwant]
    rfl
  simp only [Block.tryPart, hpart, reduceCtorEq, decide_false, Bool.or_self, Bool.false_eq_true, if_false]
  rfl

variable (hpg : pg < 128) (hoff : off < 0x1000) (h4 : off % 4 = 0) (hfree : b.portFree = true) (hmode : b.portMode = .serve)
  (hadm : b.admits true w.rid pg (off / 4) true = true)
include hpg hoff h4 hfree hmode hadm

/-- The first step of the port with a register write. -/
theorem Block.regCmd_eq_servePort : b.regCmd pg off w =
    ((b.arrived (regAccess pg off w.als w.rid w.data)).tryPart (regAccess pg off w.als w.rid w.data) true (regAddr pg off w.als)
      .none).servePort 3 := by
  obtain ⟨-, hask, -⟩ := Block.portFree_iff.mp hfree
  have hstep := Block.portStep_regAccess (b := b.arrived (regAccess pg off w.als w.rid w.data)) hpg hoff h4 rfl hmode hadm
  rw [if_pos (show (b.arrived (regAccess pg off w.als w.rid w.data)).fab.ask = .none from hask)] at hstep
  rw [Block.regCmd_of_free hfree, Block.servePort, hstep]

/-- A mask write whose bank's arbiter does not pick it waits at the head of the port. -/
theorem Block.regCmd_of_not_picked {e : Event} (hwant : b.regAsk pg off = .mask e) (hpick : (b.putAsk (.mask e)).askPicked = false) :
    b.regCmd pg off w = (b.putAsk (.mask e)).arrived (regAccess pg off w.als w.rid w.data) := by
  have hstep := Block.portStep_regAccess (b := (b.putAsk (.mask e)).arrived (regAccess pg off w.als w.rid w.data)) hpg hoff h4
    rfl hmode hadm
  have hnot : ¬ ((b.putAsk (.mask e)).arrived (regAccess pg off w.als w.rid w.data)).askPicked = true := by
    rw [Bool.not_eq_true]
    exact hpick
  rw [if_neg (by simp [Block.arrived, Block.putAsk]), if_neg hnot] at hstep
  rw [Block.regCmd_eq_servePort hpg hoff h4 hfree hmode hadm, Block.tryPart_asks hpg hoff h4 hwant, Block.servePort, hstep]

/-- A register write at a free port, which serves it, is performed with the grant that it needs, where it has it at once. -/
theorem Block.regCmd_of_turn (hq : (b.regAsk pg off).isMask) (hturn : b.turnFree (b.regAsk pg off) = true)
    (hempty : ((b.turn (b.regAsk pg off)).writeOpen w.rid pg w.als off w.data).1.fab.q = []) :
    b.regCmd pg off w = (b.oneSeq ((b.turn (b.regAsk pg off)).writeOpen w.rid pg w.als off w.data).1).answer
      ((b.turn (b.regAsk pg off)).writeOpen w.rid pg w.als off w.data).2 0 := by
  have htry := Block.tryPart_regAccess (al := w.als) (id := w.rid) (d := w.data) hpg hoff h4 (Block.portFree_turn hq hfree)
    (q := b.regAsk pg off) (.inr (Block.regAsk_turn hq))
  rw [Block.oneSeq_turn hq] at htry
  have hend : ((b.oneSeq ((b.turn (b.regAsk pg off)).writeOpen w.rid pg w.als off w.data).1).answer
      ((b.turn (b.regAsk pg off)).writeOpen w.rid pg w.als off w.data).2 0).fab.q = [] := hempty
  rw [Block.regCmd_eq_servePort hpg hoff h4 hfree hmode hadm]
  cases hwant : b.regAsk pg off with
  | none =>
    rw [hwant, Block.turn_none] at htry hend
    rw [htry, Block.turn_none]
    exact Block.servePort_of_empty hend 3
  | mask e =>
    rw [hwant] at htry hend hturn
    have hstep := Block.portStep_regAccess (b := (b.putAsk (.mask e)).arrived (regAccess pg off w.als w.rid w.data)) hpg hoff h4
      rfl hmode hadm
    have hpick : (b.putAsk (.mask e)).askPicked = true := by simpa [Block.turnFree] using hturn
    have hgrant : ((b.putAsk (.mask e)).arrived (regAccess pg off w.als w.rid w.data)).takeGrant =
        (b.turn (.mask e)).arrived (regAccess pg off w.als w.rid w.data) := rfl
    rw [if_neg (by simp [Block.arrived, Block.putAsk]), if_pos (by exact hpick), hgrant] at hstep
    rw [Block.tryPart_asks hpg hoff h4 hwant, Block.servePort, hstep, ← htry]
    rw [← htry] at hend
    exact Block.servePort_of_empty hend 2
  | ring r => simp [hwant, PortAsk.isMask] at hq
  | bank q => simp [hwant, PortAsk.isMask] at hq

end Waits

end Sys2Proof.Machine

namespace Sys2Proof.Machine

/-! ### A write to a page of an engine and its partition (R172) -/

/-- The block in which a register write takes effect: its grant had, the page locked, its units awake. -/
def Block.opened (b : Block) (pg off : Nat) : Block := ((b.turn (b.regAsk pg off)).relock pg).wakeUnits pg off

theorem Block.regAsk_re_isMask (b : Block) (n : Fin 16) (off : Nat) : (b.regAsk (pgRE n) off).isMask := by
  have hne : pgRE n ≠ pgERW := by
    simp only [pgRE, pgERW]
    omega
  unfold Block.regAsk
  simp only [hne, false_and, if_false]
  split
  · trivial
  · split
    · split <;> trivial
    · trivial

/-- Opening a page of an engine changes the port's request, ages, the page's key and clock gates. -/
theorem Block.opened_parts (b : Block) (n : Fin 16) (off : Nat) : ∃ a o g k, b.opened (pgRE n) off =
    { b with fab := { b.fab with ask := a, askOld := o, hdr := (b.relock (pgRE n)).fab.hdr }, ages := g, clk := k } := by
  obtain ⟨o, g, hturn⟩ := Block.turn_parts b (Block.regAsk_re_isMask b n off)
  obtain ⟨gs, m, hwake⟩ := Block.wakeUnits_clk ((b.turn (b.regAsk (pgRE n) off)).relock (pgRE n)) (pgRE n) off
  rw [Block.opened, hwake, hturn]
  exact ⟨_, _, _, _, rfl⟩

theorem Block.writeOpen_re {b : Block} {n : Fin 16} {off : Nat} (h40 : 0x40 ≤ off) (hpost : b.fab.posted.find? (pgRE n) = none)
    (id : BitVec 5) (al : Alias) (d : Word) : b.writeOpen id (pgRE n) al off d =
      (((b.relock (pgRE n)).wakeUnits (pgRE n) off).writeFields id (pgRE n) .re al off d (!(b.hdr (pgRE n)).unlocked), false) := by
  have hne : pgRE n ≠ pgRM := by
    simp only [pgRE, pgRM]
    omega
  have hkey : ¬ (off = 0x014 ∧ al = .base) := by omega
  have hpost' : ((b.relock (pgRE n)).fab.posted.find? (pgRE n)).isSome = false := by
    rw [show (b.relock (pgRE n)).fab.posted = b.fab.posted from rfl, hpost]
    rfl
  have hlock : b.setHdr (pgRE n) { b.hdr (pgRE n) with unlocked := false } = b.relock (pgRE n) := rfl
  unfold Block.writeOpen
  simp only [pgClass_re, hkey, if_false, hlock, hpost', Block.mbxTouch, hne, false_and, reduceCtorEq, Bool.false_eq_true]

/-- What a write takes effect as does not touch the queue of the port. -/
theorem Block.applyRe_queue (b : Block) (n off sub : Nat) (v : Word) : (b.applyRe n off sub v).fab.q = b.fab.q := by
  have hmask : ∀ (e : Event) (m : Bool), (b.writeMask e m).fab.q = b.fab.q := by
    intro e m
    unfold Block.writeMask
    dsimp only
    split
    · rfl
    · split <;> rfl
  have hpin : (b.pinCmd n v).fab.q = b.fab.q := by
    unfold Block.pinCmd
    dsimp only
    split
    · rfl
    · split
      · rfl
      · split
        · rfl
        · split
          · rfl
          · split
            · exact (Block.flag_notes _ (pgRE n) 3).eq_field (·.fab.q) (fun _ _ _ _ _ => rfl)
            · rfl
  unfold Block.applyRe
  split
  · dsimp only
    split <;> rfl
  · exact hmask _ _
  · exact hpin
  · rfl

theorem pgRE_lt (n : Fin 16) : pgRE n < 128 := by
  simp only [pgRE]
  omega

theorem earlyPage_re (n : Fin 16) : earlyPage (pgRE n) = false := by revert n; decide

theorem Block.selBad_re (b : Block) (n : Fin 16) (off : Nat) :
    (b.selBad (pgRE n) off).2 = (decide (off = 0x054) && !b.evselOk (pgRE n)) := by
  unfold Block.selBad
  simp only [pgClass_re]
  split <;> simp_all

/-- What Table 12-3 asks of a write to a page of an engine that acts at once, condition by condition. -/
structure Block.Accepts (b : Block) (n : Fin 16) (off : Nat) (w : RegAcc) : Prop where
  free : b.portFree = true
  high : 0x40 ≤ off
  serves : b.portMode = .serve
  admitted : b.admits true w.rid (pgRE n) (off / 4) true = true
  unposted : b.fab.posted.find? (pgRE n) = none
  enabled : (b.hdr (pgRE n)).enable = true
  key : (!(defOf .re off).key || (b.hdr (pgRE n)).unlocked) = true
  unheld : b.isHeld (pgRE n) = false
  level : b.expertOf w.rid (pgRE n) .re (defOf .re off) = 0
  once : (!(defOf .re off).wonce || !b.fab.instSet) = true
  part : (if w.als = .base then (defOf .re off).rw ||| (defOf .re off).wo != 0
    else (defOf .re off).rw != 0 && w.data &&& ~~~(defOf .re off).rw == 0) = true
  turn : b.turnFree (b.regAsk (pgRE n) off) = true
  selection : (b.selBad (pgRE n) off).2 = false
  unslowed : (defOf .re off).pst = false
  immediate : (b.hdr (pgRE n)).apply = false

theorem Block.accepts_of_writes {b : Block} {n : Fin 16} {off : Nat} {w : RegAcc} (h : b.writes (pgRE n) off w = true) :
    b.Accepts n off w := by
  simp only [Block.writes, Block.takes, Block.immediate, pgClass_re, earlyPage_re, Bool.and_eq_true, Bool.and_false, Bool.or_false,
    beq_iff_eq, decide_eq_true_eq, Option.isNone_iff_eq_none, Bool.not_eq_true', and_assoc] at h
  obtain ⟨hfree, h40, hmode, hadm, -, hpost, hen, hkey, hheld, hex, honce, hals, hturn, hsel, -, -, hpst, happ⟩ := h
  exact ⟨hfree, h40, hmode, hadm, hpost, hen, hkey, hheld, hex, honce, hals, hturn, hsel, hpst, happ⟩

section Accepts

variable {b : Block} {n : Fin 16} {off : Nat} {w : RegAcc}

theorem Block.hdr_opened : (b.opened (pgRE n) off).hdr (pgRE n) = { b.hdr (pgRE n) with unlocked := false } := by
  obtain ⟨a, o, g, k, hc⟩ := Block.opened_parts b n off
  rw [hc]
  exact Block.hdr_setHdr b (pgRE n) _

variable (h : b.Accepts n off w)
include h

/-- Rows 6 to 8 of Table 12-3 let the write of the opened page take effect at once. -/
theorem Block.Accepts.writeFields_opened :
    (b.opened (pgRE n) off).writeFields w.rid (pgRE n) .re w.als off w.data (!(b.hdr (pgRE n)).unlocked) =
      (b.opened (pgRE n) off).applyRe n off (b.subOf (pgRE n) off) ((b.opened (pgRE n) off).wval (pgRE n) off w) := by
  obtain ⟨a, o, g, k, hc⟩ := Block.opened_parts b n off
  have hheld : (b.opened (pgRE n) off).isHeld (pgRE n) = false := by
    rw [hc]
    exact h.unheld
  have hcommit : (b.opened (pgRE n) off).writeFields w.rid (pgRE n) .re w.als off w.data (!(b.hdr (pgRE n)).unlocked) =
      (b.opened (pgRE n) off).commitWrite w.rid (pgRE n) .re w.als off (defOf .re off) ((b.opened (pgRE n) off).wval (pgRE n) off w) := by
    refine Block.writeFields_ok _ _ _ _ _ _ (pgClass_re n) h.high ?_ ?_ ?_ hheld ?_ ?_ ?_ ?_ (by simp) (by simp)
    · rw [Block.hdr_opened, h.enabled]
    · intro hk
      simpa [hk] using h.key
    · intro hw
      rw [hc]
      simpa [hw] using h.once
    · rw [hc]
      simpa using h.unposted
    · have hlevel := h.level
      unfold Block.expertOf at hlevel ⊢
      rw [Block.hdr_opened]
      exact hlevel
    · by_cases hb : w.als = .base <;> simpa [hb] using h.part
    · have hsel := h.selection
      rw [Block.selBad_re] at hsel ⊢
      rw [hc]
      exact hsel
  have hsub : (b.opened (pgRE n) off).subOf (pgRE n) off = b.subOf (pgRE n) off := by
    rw [hc]
    rfl
  have hunit : pgRE n - 0x28 = n := by simp [pgRE]
  rw [hcommit, Block.commitWrite_now _ _ _ _ _ _ _ h.unslowed (by rw [Block.hdr_opened, h.immediate]) hheld, hsub]
  simp only [Block.applyReg, hunit, storedVal]

theorem Block.Accepts.writeOpen_turn :
    (b.turn (b.regAsk (pgRE n) off)).writeOpen w.rid (pgRE n) w.als off w.data =
      ((b.opened (pgRE n) off).applyRe n off (b.subOf (pgRE n) off) ((b.opened (pgRE n) off).wval (pgRE n) off w), false) := by
  obtain ⟨o, g, hturned⟩ := Block.turn_parts b (Block.regAsk_re_isMask b n off)
  have hlock : (b.turn (b.regAsk (pgRE n) off)).hdr (pgRE n) = b.hdr (pgRE n) := by
    rw [hturned]
    rfl
  rw [Block.writeOpen_re h.high (by rw [hturned]; exact h.unposted), hlock, ← h.writeFields_opened]
  rfl

/-- A write to a page of an engine to which Table 12-3 has no objection takes effect at once (R326, R333). -/
theorem Block.Accepts.regCmd (hoff : off < 0x1000) (h4 : off % 4 = 0) : b.regCmd (pgRE n) off w =
      b.oneSeq (((b.opened (pgRE n) off).applyRe n off (b.subOf (pgRE n) off) ((b.opened (pgRE n) off).wval (pgRE n) off w)).answer
        false 0) := by
  rw [Block.regCmd_of_turn (pgRE_lt n) hoff h4 h.free h.serves h.admitted (Block.regAsk_re_isMask b n off) h.turn, h.writeOpen_turn]
  · rfl
  · obtain ⟨a, o, g, k, hc⟩ := Block.opened_parts b n off
    rw [h.writeOpen_turn, Block.applyRe_queue, hc]
    exact (Block.portFree_iff.mp h.free).1

end Accepts

end Sys2Proof.Machine

namespace Sys2Proof.Machine

/-! ### What a write of an engine's page answers -/

theorem Block.wrote_re (b : Block) (n : Fin 16) (off : Nat) (w : RegAcc) :
    b.wrote (pgRE n) off w = (b.opened (pgRE n) off).answer false 0 := by
  have hne : pgRE n ≠ pgRM := by
    simp only [pgRE, pgRM]
    omega
  simp only [Block.wrote, Block.mbxTouch, hne, false_and, if_false]
  rfl

/-- A register write of an engine's page that meets no obstacle puts its effect. -/
theorem Puts.of_writes_re {s : State} {c : Instr} {n : Fin 16} {off : Nat} {w : RegAcc} {r : Block}
    (e : exec c s = .next { s with blk := s.blk.regCmd (pgRE n) off w }) (hoff : off < 0x1000) (h4 : off % 4 = 0)
    (h : s.blk.writes (pgRE n) off w = true)
    (hr : ((s.blk.opened (pgRE n) off).applyRe n off (s.blk.subOf (pgRE n) off)
      ((s.blk.opened (pgRE n) off).wval (pgRE n) off w)).answer false 0 = r) : Puts s c r :=
  .of_effect e (hr ▸ (Block.accepts_of_writes h).regCmd hoff h4)

/-! ### RE_EVSTAT (R55, R56) -/

theorem defOf_re_evstat : defOf .re 0x054 = { rw := 4 } := by decide

theorem Block.wval_evstat_set (b : Block) (n : Fin 16) (w : RegAcc) :
    bit (b.wval (pgRE n) 0x054 { withOp w 4 4 with als := .set }) 2 = true := by
  simp [Block.wval, pgClass_re, defOf_re_evstat, aliasVal, withOp, blend, bit]

theorem Block.wval_evstat_clear (b : Block) (n : Fin 16) (w : RegAcc) :
    bit (b.wval (pgRE n) 0x054 { withOp w 4 4 with als := .clear }) 2 = false := by
  simp [Block.wval, pgClass_re, defOf_re_evstat, aliasVal, withOp, blend, bit]

/-- A write of RE_EVSTAT that meets no obstacle selects an event with state (R172). -/
theorem Block.hasState_of_writes {b : Block} {n : Fin 16} {w : RegAcc} (h : b.writes (pgRE n) 0x054 w = true) :
    hasState (b.regFld (pgRE n) 0x050 19 0) = true := by
  have hok : b.evselOk (pgRE n) = true := by simpa [Block.selBad_re] using (Block.accepts_of_writes h).selection
  simp only [Block.evselOk, Bool.and_eq_true] at hok
  exact hok.2

theorem Block.writeMask_of_not_held {b : Block} {e : Event} {m : Bool} (hst : hasState e = true)
    (h : ¬ ((b.pendOf e).m = true ∧ m = false ∧ (b.pendOf e).held = true)) :
    b.writeMask e m = b.setPend e { b.pendOf e with m } := by
  have hcond : ((b.pendOf e).m && !m && (b.pendOf e).held) = false := by
    rw [Bool.eq_false_iff]
    simpa [and_assoc] using h
  simp [Block.writeMask, hst, hcond]

/-- Clearing the mask of a held arrival makes it look again and join the re-entry queue of its station. -/
theorem Block.writeMask_of_held {b : Block} {e : Event} (hst : hasState e = true) (hm : (b.pendOf e).m = true)
    (hheld : (b.pendOf e).held = true) :
    b.writeMask e false =
      (b.setPend e { b.pendOf e with m := false, fl := some { (b.pendOf e).fl.getD {} with looking := true, scan := false } }).setStation
        (evBank e % 8) { b.station (evBank e % 8) with reentry := (b.station (evBank e % 8)).reentry ++
          [{ kind := .reentry, src := if e.toNat < 0x800 then .line (e.setWidth 11) else .self e, pevent := e }] } := by
  have hp : (b.pendOf e).p = true := by
    simp only [Pend.held, Bool.and_eq_true] at hheld
    exact hheld.1
  simp only [Block.writeMask, hst, hm, hheld, Bool.not_true, Bool.not_false, Bool.false_eq_true, Bool.and_self, if_false, if_true,
    Block.reenter, Block.pendOf_setPend, Block.setPend_setPend, wiredRange, decide_eq_true_eq, hp]
  rfl

/-- A mask write with the grant of its bank. -/
theorem Block.applyRe_evstat (b : Block) (n : Fin 16) (v : Word) :
    (b.opened (pgRE n) 0x054).applyRe n 0x054 (b.subOf (pgRE n) 0x054) v =
      (b.opened (pgRE n) 0x054).writeMask (b.regFld (pgRE n) 0x050 19 0) (bit v 2) := by
  have hsub : BitVec.ofNat 20 (b.subOf (pgRE n) 0x054) = b.regFld (pgRE n) 0x050 19 0 := by
    simp only [Block.subOf, pgClass_re, if_true]
    exact BitVec.ofNat_toNat ..
  simp only [Block.applyRe, hsub]

@[simp] theorem Block.pendOf_opened (b : Block) (n : Fin 16) (off : Nat) (e : Event) : (b.opened (pgRE n) off).pendOf e = b.pendOf e := by
  obtain ⟨a, o, g, k, hc⟩ := Block.opened_parts b n off
  rw [hc]
  rfl

@[simp] theorem Block.station_opened (b : Block) (n : Fin 16) (off k : Nat) : (b.opened (pgRE n) off).station k = b.station k := by
  obtain ⟨a, o, g, k', hc⟩ := Block.opened_parts b n off
  rw [hc]
  rfl

@[simp] theorem Block.rec?_opened (b : Block) (n : Fin 16) (off : Nat) (c : CtxNo) : (b.opened (pgRE n) off).rec? c = b.rec? c := by
  obtain ⟨a, o, g, k, hc⟩ := Block.opened_parts b n off
  rw [hc]
  rfl

@[simp] theorem Block.pinnedIn_opened (b : Block) (n : Fin 16) (off q : Nat) : (b.opened (pgRE n) off).pinnedIn q = b.pinnedIn q := by
  obtain ⟨a, o, g, k, hc⟩ := Block.opened_parts b n off
  rw [hc]
  rfl

@[simp] theorem Block.reg_opened (b : Block) (n : Fin 16) (off pg o : Nat) : (b.opened (pgRE n) off).reg pg o = b.reg pg o := by
  obtain ⟨a, o', g, k, hc⟩ := Block.opened_parts b n off
  rw [hc]
  rfl

@[simp] theorem Block.bank_opened (b : Block) (n : Fin 16) (off q : Nat) : (b.opened (pgRE n) off).bank q = b.bank q := by
  obtain ⟨a, o, g, k, hc⟩ := Block.opened_parts b n off
  rw [hc]
  rfl

/-! ### A mask write waits (R443, R129) -/

theorem pickOldest_eligible {age : Nat → BitVec 10} {elig : Nat → Bool} {n i : Nat} (h : pickOldest age elig n = some i) :
    elig i = true := by
  induction n with
  | zero => cases h
  | succ n ih =>
    simp only [pickOldest] at h
    split at h
    · split at h
      · cases h; assumption
      · cases h
    · next j hj =>
      split at h
      · next hc =>
        cases h
        simp only [Bool.and_eq_true] at hc
        exact hc.1
      · cases h
        exact ih hj

/-- The mask write that a bank sees is of an event of that bank. -/
theorem Block.evBank_maskAsk {b : Block} {q : Nat} {e : Event} (h : b.maskAsk q = some e) : evBank e = q := by
  unfold Block.maskAsk at h
  split at h
  · next m hm =>
    cases h
    simpa using List.find?_some hm
  · split at h
    · split at h
      · cases h; assumption
      · cases h
    · cases h

/-- No mask write is granted during the pause of a switch, or while the re-entry queue of its event's station is full. -/
theorem Block.not_askPicked_of_full {b : Block} {e : Event} (hask : b.fab.ask = .mask e)
    (h : b.last.paused = true ∨ 16 ≤ (b.station (evBank e % 8)).reentry.length) : b.askPicked = false := by
  have hno : b.pendElig (evBank e) 13 = false := by
    have hroom : ∀ m, b.maskAsk (evBank e) = some m → b.last.paused = false → b.reentryRoom m = false := by
      intro m hm hp
      rw [Block.reentryRoom, Block.evBank_maskAsk hm]
      simpa [hp] using h
    cases hp : b.last.paused with
    | true => simp [Block.pendElig, hp]
    | false =>
      cases hm : b.maskAsk (evBank e) with
      | none => simp [Block.pendElig, hm]
      | some m => simp [Block.pendElig, hm, hroom m hm hp]
  have hpick : b.pendPick (evBank e) ≠ some 13 := fun hc => by
    simp [pickOldest_eligible hc] at hno
  simp [Block.askPicked, hask, hpick]

theorem Block.regCmd_waits {b : Block} {n : Fin 16} {w : RegAcc} (hfree : b.portFree = true) (hmode : b.portMode = .serve)
    (hadm : b.admits true w.rid (pgRE n) 0x15 true = true) (hen : (b.hdr (pgRE n)).enable = true)
    (happ : (b.hdr (pgRE n)).apply = false) (hpost : b.fab.posted.find? (pgRE n) = none) (hsel : b.evselOk (pgRE n) = true)
    (h : b.last.paused = true ∨ 16 ≤ (b.station (evBank (b.regFld (pgRE n) 0x050 19 0) % 8)).reentry.length) :
    b.regCmd (pgRE n) 0x054 w =
      { b with fab := { b.fab with q := [(regAccess (pgRE n) 0x054 w.als w.rid w.data, true)]
                                   ask := .mask (b.regFld (pgRE n) 0x050 19 0) } } := by
  have hask : b.regAsk (pgRE n) 0x054 = .mask (b.regFld (pgRE n) 0x050 19 0) := by
    simp [Block.regAsk, hen, happ, hpost, hsel, pgClass_re]
  rw [Block.regCmd_of_not_picked (pgRE_lt n) (by decide) (by decide) hfree hmode hadm hask (Block.not_askPicked_of_full rfl h)]
  rfl

end Sys2Proof.Machine

namespace Sys2Proof.Machine

/-! ### RE_PIN and RE_WAKE.FILT_CLR (R165, R162) -/

theorem defOf_re_pin : defOf .re 0x058 = { wo := 0x3FFFF, key := true, atOnce := true } := by decide
theorem defOf_re_wake : defOf .re 0x04C = { rw := 0x3F, wo := 0x100 } := by decide

theorem Block.wval_pin (b : Block) (n : Fin 16) {w : RegAcc} (ha : w.als = .base) (op : Word) :
    b.wval (pgRE n) 0x058 (withOp w 0x30000 op) = blend 0x30000 w.data op &&& 0x3FFFF := by
  rw [Block.wval_base b _ _ (withOp w 0x30000 op) .re (pgClass_re n) ha, defOf_re_pin]
  simp [withOp]

theorem Block.wval_wake (b : Block) (n : Fin 16) {w : RegAcc} (ha : w.als = .base) :
    b.wval (pgRE n) 0x04C (withOp w 0x100 0x100) = blend 0x100 w.data 0x100 &&& 0x13F := by
  rw [Block.wval_base b _ _ (withOp w 0x100 0x100) .re (pgClass_re n) ha, defOf_re_wake]
  simp [withOp]

theorem fld_pin_ctx (d op : Word) : fld (blend 0x30000 d op &&& 0x3FFFF) 15 0 = fld d 15 0 := by
  have hkept : BitVec.extractLsb' 0 (15 - 0 + 1) (~~~(0x30000 : Word)) = BitVec.allOnes _ := by decide
  have hop : BitVec.extractLsb' 0 (15 - 0 + 1) (0x30000 : Word) = 0#_ := by decide
  have hall : BitVec.extractLsb' 0 (15 - 0 + 1) (0x3FFFF : Word) = BitVec.allOnes _ := by decide
  simp only [fld, blend, BitVec.extractLsb'_and, BitVec.extractLsb'_or, hkept, hop, hall, BitVec.and_allOnes, BitVec.and_zero,
    BitVec.or_zero]

theorem fld_pin_op (d op : Word) : fld (blend 0x30000 d op &&& 0x3FFFF) 17 16 = fld op 17 16 := by
  have hkept : BitVec.extractLsb' 16 (17 - 16 + 1) (~~~(0x30000 : Word)) = 0#_ := by decide
  have hop : BitVec.extractLsb' 16 (17 - 16 + 1) (0x30000 : Word) = BitVec.allOnes _ := by decide
  have hall : BitVec.extractLsb' 16 (17 - 16 + 1) (0x3FFFF : Word) = BitVec.allOnes _ := by decide
  simp only [fld, blend, BitVec.extractLsb'_and, BitVec.extractLsb'_or, hkept, hop, hall, BitVec.and_allOnes, BitVec.and_zero,
    BitVec.zero_or]

theorem bit_wake_clr (d : Word) : bit (blend 0x100 d 0x100 &&& 0x13F) 8 = true := by
  simp [bit, blend]

theorem blend_wake_prio (old d : Word) : blend 0x3F old (blend 0x100 d 0x100 &&& 0x13F) = blend 0x3F old d := by
  have hkept : ~~~(0x100 : Word) &&& (0x13F &&& 0x3F) = 0x3F := by decide
  have hclr : (0x100 : Word) &&& (0x100 &&& (0x13F &&& 0x3F)) = 0#32 := by decide
  simp only [blend, BitVec.and_assoc, BitVec.and_or_distrib_right, hkept, hclr, BitVec.or_zero]

section Pin

variable {b : Block} {n : Nat} {v : Word} (hbank : ctxBank (fld v 15 0) = n)
include hbank

/-- OP 1 pins a resident context of a partition with room for it. -/
theorem Block.pinCmd_pin {x : Ctx} (hop : fld v 17 16 = 1) (hx : b.rec? (fld v 15 0) = some x) (hroom : b.pinnedIn n < 2304) :
    b.pinCmd n v = (b.setRec (fld v 15 0) { x with pinned := true }).setReg (pgRE n) 0x05C (0 ||| at' (fld v 15 0) 16) := by
  simp [Block.pinCmd, hop, hbank, hx, Nat.not_le.mpr hroom]

theorem Block.pinCmd_pin_absent (hop : fld v 17 16 = 1) (hx : b.rec? (fld v 15 0) = none) :
    b.pinCmd n v = b.setReg (pgRE n) 0x05C (1 ||| at' (fld v 15 0) 16) := by
  simp [Block.pinCmd, hop, hbank, hx]

/-- OP 2 unpins a resident context. -/
theorem Block.pinCmd_unpin {x : Ctx} (hop : fld v 17 16 = 2) (hx : b.rec? (fld v 15 0) = some x) :
    b.pinCmd n v = (b.setRec (fld v 15 0) { x with pinned := false }).setReg (pgRE n) 0x05C (0 ||| at' (fld v 15 0) 16) := by
  simp [Block.pinCmd, hop, hbank, hx]

theorem Block.pinCmd_unpin_absent (hop : fld v 17 16 = 2) (hx : b.rec? (fld v 15 0) = none) :
    b.pinCmd n v = b.setReg (pgRE n) 0x05C (0 ||| at' (fld v 15 0) 16) := by
  simp [Block.pinCmd, hop, hbank, hx]

end Pin

/-! ### The writes of a mask, a pin and a filter -/

section Writes

variable {s : State} {n : Fin 16} {w : RegAcc}

/-- A mask write that meets no obstacle. -/
theorem Puts.of_writes_evstat {c : Instr} {m : Bool} {r : Block}
    (e : exec c s = .next { s with blk := s.blk.regCmd (pgRE n) 0x054 w }) (h : s.blk.writes (pgRE n) 0x054 w = true)
    (hm : ∀ b : Block, bit (b.wval (pgRE n) 0x054 w) 2 = m)
    (hr : ((s.blk.opened (pgRE n) 0x054).writeMask (s.blk.regFld (pgRE n) 0x050 19 0) m).answer false 0 = r) : Puts s c r := by
  refine .of_writes_re e (by decide) (by decide) h ?_
  rw [Block.applyRe_evstat, hm, hr]

/-- A write of RE_PIN that meets no obstacle. -/
theorem Puts.of_writes_pin {c : Instr} {op : Word} {r : Block}
    (e : exec c s = .next { s with blk := s.blk.regCmd (pgRE n) 0x058 (withOp w 0x30000 op) }) (ha : w.als = .base)
    (h : s.blk.writes (pgRE n) 0x058 (withOp w 0x30000 op) = true)
    (hr : ((s.blk.opened (pgRE n) 0x058).pinCmd n (blend 0x30000 w.data op &&& 0x3FFFF)).answer false 0 = r) : Puts s c r := by
  refine .of_writes_re e (by decide) (by decide) h ?_
  rw [Block.wval_pin _ n ha]
  exact hr

/-- RE_WAKE with FILT_CLR stores the priority and empties the filter. -/
theorem Block.applyRe_wake_clr (b : Block) (sub : Nat) (d : Word) : b.applyRe n 0x04C sub (blend 0x100 d 0x100 &&& 0x13F) =
    (b.setReg (pgRE n) 0x04C (blend 0x3F (b.reg (pgRE n) 0x04C) d)).filtClr n := by
  simp only [Block.applyRe, Block.store, defOf_re_wake, blend_wake_prio, bit_wake_clr, if_true]

end Writes

/-- Settles O18: each write passes the register port as it stands free (R324), has the grant of its bank where it needs one
(R443), and takes effect as its register says. -/
theorem maskAndPinRegisters : Obligations.MaskAndPinRegisters := by
  unfold Obligations.MaskAndPinRegisters
  refine ⟨fun s n w h => ?_, fun s n w hfree hmode hadm hen happ hpost hsel hfull => ?_, fun s n w h => ?_, fun s n w x ha => ?_,
    fun s n w ha h => ?_⟩
  · refine .of_writes_evstat rfl h (fun b => Block.wval_evstat_set b n w) ?_
    rw [Block.writeMask_of_not_held (Block.hasState_of_writes h) (by simp), Block.pendOf_opened, Block.wrote_re]
    rfl
  · exact ⟨.of_effect rfl (Block.regCmd_waits hfree hmode hadm hen happ hpost hsel hfull),
      .of_effect rfl (Block.regCmd_waits hfree hmode hadm hen happ hpost hsel hfull)⟩
  · refine ⟨fun hnot => ?_, fun hm hheld => ?_⟩
    · refine .of_writes_evstat rfl h (fun b => Block.wval_evstat_clear b n w) ?_
      rw [Block.writeMask_of_not_held (Block.hasState_of_writes h) (by simpa [Block.pendOf_opened] using hnot), Block.pendOf_opened,
        Block.wrote_re]
      rfl
    · refine .of_writes_evstat rfl h (fun b => Block.wval_evstat_clear b n w) ?_
      rw [Block.writeMask_of_held (Block.hasState_of_writes h) (by rwa [Block.pendOf_opened]) (by rwa [Block.pendOf_opened]),
        Block.pendOf_opened, Block.station_opened, Block.wrote_re]
      rfl
  · refine ⟨fun h hbank => ⟨fun hx hroom => ?_, fun hx => ?_⟩, fun h hbank => ⟨fun hx => ?_, fun hx => ?_⟩⟩
    · refine .of_writes_pin rfl ha h ?_
      rw [Block.pinCmd_pin (x := x) (by rwa [fld_pin_ctx]) (by rw [fld_pin_op]; decide) (by rwa [Block.rec?_opened, fld_pin_ctx])
        (by rwa [Block.pinnedIn_opened]), fld_pin_ctx]
      dsimp only
      rw [Block.wrote_re]
      rfl
    · refine .of_writes_pin rfl ha h ?_
      rw [Block.pinCmd_pin_absent (by rwa [fld_pin_ctx]) (by rw [fld_pin_op]; decide) (by rwa [Block.rec?_opened, fld_pin_ctx]),
        fld_pin_ctx]
      dsimp only
      rw [Block.wrote_re]
      rfl
    · refine .of_writes_pin rfl ha h ?_
      rw [Block.pinCmd_unpin (x := x) (by rwa [fld_pin_ctx]) (by rw [fld_pin_op]; decide) (by rwa [Block.rec?_opened, fld_pin_ctx]),
        fld_pin_ctx]
      dsimp only
      rw [Block.wrote_re]
      rfl
    · refine .of_writes_pin rfl ha h ?_
      rw [Block.pinCmd_unpin_absent (by rwa [fld_pin_ctx]) (by rw [fld_pin_op]; decide) (by rwa [Block.rec?_opened, fld_pin_ctx]),
        fld_pin_ctx]
      dsimp only
      rw [Block.wrote_re]
      rfl
  · refine .of_writes_re rfl (by decide) (by decide) h ?_
    rw [Block.wval_wake _ n ha, Block.applyRe_wake_clr, Block.reg_opened, Block.wrote_re]
    simp only [← Block.bank_opened s.blk n 0x04C n]
    rfl

end Sys2Proof.Machine

namespace Sys2Proof.Machine

/-! ### Statements that a state outside the block's own bookkeeping refutes

Each statement below quantifies over every value of the state type. Each counterexample is a state whose parts do not agree with one
another in a way that the statement's hypotheses leave open, written out and evaluated by the model. -/

/-- A running block in which station 2 presents at bank 3 an event of bank 4, which is held under its mask. -/
def strayArrival : State :=
  { blk := { pwr := { stage := .run, intermission := false }
             pend := ⟨[(0x2004, { p := true, m := true })]⟩
             stn := ⟨[(2, { outq := ⟨[(3, [({ kind := .message, src := .tag 7, pevent := 0x2004 },
                { vevent := 0x2004, prio := 9, type := 1, cls := 5, owner := 0 })])]⟩ })]⟩ } }

/-- Refutes O11: a merge under the mask counts in the page of the event's own bank (`Block.mergeArrival`), while the statement's last
clause counts it in the page of the bank whose port granted it. Nothing in the hypotheses says that a station's queue to a bank
holds events of that bank only: in `strayArrival`, RE_HELD_MERGE of engine 3 stays 0. -/
theorem not_admissionSetsHoldsOrMerges : ¬ Obligations.AdmissionSetsHoldsOrMerges := by
  unfold Obligations.AdmissionSetsHoldsOrMerges
  intro h
  have hnotes := ((h strayArrival 3 2 _ _ [] (by decide) rfl (by decide)).2.2.2 (by decide) (by decide) rfl).of_exec rfl
  exact absurd (hnotes.reg (pgRE 3) 0x070 (by decide) (by decide)) (by decide)

/-- A running block whose context 3 is due for a re-notification, and whose map of context banks lists bank 3 twice: first with what
an unlisted bank holds, which is what reads see, then with an operation in its intake. -/
def twiceListedBank : State :=
  { blk := { pwr := { stage := .run, intermission := false }
             clk := { gt := 1000000 }
             car := { cur := 100 }
             up := [0]
             seat := ⟨[(0, { ctx := some 3, out := true })]⟩
             ctx := ⟨[(3, { seat := some 0, lastSent := some 0
                            shortlist := [{ pevent := 0x2003, prio := 3, cls := 0, vevent := 0x2003 }] })]⟩
             cb := ⟨[(3, {}), (3, { in16 := [.port] })]⟩ } }

/-- Refutes O19 in its second part: `Block.ask` filters the listed banks and unlists those that become empty (`Map.remap`), so asked
of a map that is not in canonical form it brings the second listing of bank 3 to light; the check itself writes bank 3 before, which
removes that listing. The banks that the statement names and those of the answer differ. -/
theorem not_reevaluationAsksForTheLine : ¬ Obligations.ReevaluationAsksForTheLine := by
  unfold Obligations.ReevaluationAsksForTheLine
  rintro ⟨-, h⟩
  have hbanks := ((h twiceListedBank 3 _ 0 0 _ [] (by decide) rfl rfl (by decide) rfl (by decide) (by decide) (by decide) rfl rfl
    rfl (by decide) rfl rfl (by decide)).of_exec rfl).2
  exact absurd (hbanks 3) (by decide)

/-- A running block with nothing at its register port, in whose bank 3 a request of the port still stands at the head of requester
16's intake, before an operation of thread 0; context 3, in the host seat of thread 0, has nothing in it. -/
def leftPortRequest : State :=
  { blk := { pwr := { stage := .run, intermission := false }
             seat := ⟨[(0, { ctx := some 3 })]⟩
             ctx := ⟨[(3, { seat := some 0 })]⟩
             cb := ⟨[(3, { in16 := [.port, .thread 0] })]⟩ } }

/-- An operation through the host window of thread 0's absolute page, under identity 1. -/
def absoluteHost : TifOp := { thread := 0, win := .host, via := .absolute 1 }

/-- Refutes O23: an ACK through an absolute page asks at the end of its bank's intake and, granted, takes the intake's head
(`Block.takeGrant`). `Block.reaches` asks that the port's request be the head, which the one left in `leftPortRequest` is too: the
intake then holds the thread's operation before the new request, and is not the one that stood there. -/
theorem not_ackTakesTheBestEntry : ¬ Obligations.AckTakesTheBestEntry := by
  unfold Obligations.AckTakesTheBestEntry
  intro h
  have hanswers := (((h leftPortRequest absoluteHost 3 _ ⟨rfl, rfl⟩).1 (by decide) rfl rfl).2 rfl).of_exec rfl
  exact absurd (hanswers.1.bank 3) (by decide)

/-- Refutes O24 by the same state: an EOI without an activation leaves bank 3's intake in another order. -/
theorem not_eoiAndDeactEndActivations : ¬ Obligations.EoiAndDeactEndActivations := by
  unfold Obligations.EoiAndDeactEndActivations
  intro h
  have hanswers := (((h leftPortRequest absoluteHost 0 3 _ ⟨rfl, rfl⟩).1 (by decide)).2 (by decide)).of_exec rfl
  exact absurd (hanswers.bank 3) (by decide)

end Sys2Proof.Machine

namespace Sys2Proof.Machine

/-! ### Lines of a collector (R79 to R82, R54) -/

@[simp] theorem Block.lcBits_setColl (b : Block) (c : Nat) (v : Collector) (d base : Nat) :
    (b.setColl c v).lcBits d base = b.lcBits d base := rfl
@[simp] theorem Block.active_setColl (b : Block) (c : Nat) (v : Collector) (d : Nat) (lv : BitVec 128) :
    (b.setColl c v).active d lv = b.active d lv := rfl

theorem popCount_zero {w : Nat} : popCount (0#w) = 0 := by
  simp [popCount]

/-- Arrivals that are raised without an edge count no merge. -/
theorem Block.raiseLines_no_edge (b : Block) (c : Nat) (m : BitVec 128) :
    b.raiseLines c m 0 = b.setColl c { b.coll c with raise := (b.coll c).raise ||| m } := by
  simp [Block.raiseLines, popCount_zero]

/-- A sample while the data plane runs raises the enabled lines whose active level has risen, and counts the merged ones. -/
theorem sampleLines_of_dpOn {b : Block} (h : b.dpOn = true) (c : Nat) (lv : BitVec 128) :
    sampleLines b c lv =
      (b.setColl c { b.coll c with sync := lv }).raiseLines c
        (b.active c lv &&& ~~~b.active c (b.coll c).sync &&& b.lcBits c 0x040)
        (b.active c lv &&& ~~~b.active c (b.coll c).sync &&& b.lcBits c 0x040) := by
  simp [sampleLines, h]

/-- Where every line from the scan pointer on is down, the search finds none. -/
theorem firstFrom_of_none {w : Nat} {x : BitVec w} {start : Nat} (h : ∀ j, start ≤ j → x.getLsbD j = false) (n : Nat) :
    firstFrom x start n = none := by
  induction n generalizing start with
  | zero => rfl
  | succ n ih =>
    simp only [firstFrom, h start (Nat.le_refl _), Bool.false_eq_true, if_false]
    exact ih fun j hj => h j (by omega)

/-- The first raised line from the scan pointer on, or from line 0 when none is at or above it (R82). -/
theorem firstFrom_orElse_lowest {x : BitVec 128} {scan i : Nat} (hi : i < 128) (hx : x.getLsbD i = true)
    (h : (scan ≤ i ∧ ∀ j, scan ≤ j → j < i → x.getLsbD j = false) ∨
      ((∀ j, scan ≤ j → x.getLsbD j = false) ∧ ∀ j, j < i → x.getLsbD j = false)) :
    ((firstFrom x scan 128).orElse fun _ => lowest x) = some i := by
  rcases h with ⟨hle, hlow⟩ | ⟨hnone, hlow⟩
  · rw [firstFrom_of_first hle (by omega) hx hlow]
    rfl
  · have hlowest : lowest x = some i := firstFrom_of_first (Nat.zero_le i) (by omega) hx fun j _ hj => hlow j hj
    rw [firstFrom_of_none hnone, ← hlowest]
    rfl

/-- A collector whose lane is free offers its line. -/
theorem effCollectorOffer_of_line {b : Block} {c i : Nat} (hadm : b.admitOn = true) (hpause : b.last.paused = false)
    (hw : (b.station (c / 2)).wired = none) (hre : (b.station (c / 2)).reentry = []) (hres : (b.station (c / 2)).resumedWired = [])
    (hmiss : missUsed (b.station (c / 2)) < 384)
    (hfirst : ((firstFrom (b.coll c).raise (b.coll c).scan.toNat 128).orElse fun _ => lowest (b.coll c).raise) = some i) :
    effCollectorOffer b c =
      ((b.setColl c { b.coll c with raise := setBit (b.coll c).raise i false, scan := BitVec.ofNat 7 (i + 1) }).setStation (c / 2)
        { b.station (c / 2) with
          wired := some { kind := .wired, src := .line (BitVec.ofNat 11 (128 * c + i)), pevent := BitVec.ofNat 20 (128 * c + i) } }).pmuEv
        0x02 (c / 2) := by
  have hroom : ¬ 384 ≤ missUsed (b.station (c / 2)) := by omega
  have htakes : (!b.admitOn || b.last.paused || (b.station (c / 2)).wired.isSome || !(b.station (c / 2)).reentry.isEmpty ||
      !(b.station (c / 2)).resumedWired.isEmpty || decide (384 ≤ missUsed (b.station (c / 2)))) = false := by
    simp [hadm, hpause, hw, hre, hres, hroom]
  simp only [effCollectorOffer, htakes, Bool.false_eq_true, if_false, hfirst]

/-- A level sample raises its line where it is asserted, enabled and level-type, and nothing else (R54). -/
theorem effLevelSample_of_asked {b : Block} {c : Nat} {i : BitVec 7} {rest : List (BitVec 7)} (hon : b.dpOn = true)
    (hsample : (b.coll c).sample = i :: rest) :
    effLevelSample b c = b.setColl c { b.coll c with
      sample := rest
      raise := if (1 : BitVec 128) <<< i.toNat &&& b.active c (b.coll c).sync &&& b.lcBits c 0x040 &&& b.lcBits c 0x050 = 0
        then (b.coll c).raise else (b.coll c).raise ||| (1 : BitVec 128) <<< i.toNat } := by
  simp only [effLevelSample, hon, Bool.not_true, Bool.false_eq_true, if_false, hsample, Block.active_setColl, Block.lcBits_setColl,
    Block.raiseLines_no_edge, Block.coll_setColl, Block.setColl_setColl]
  split <;> simp

/-- Settles O7: a sample, a level sample and an offer each act on their collector as the rules of the lines say. -/
theorem linesAreSampledAndOffered : Obligations.LinesAreSampledAndOffered := by
  unfold Obligations.LinesAreSampledAndOffered
  refine ⟨fun s c lv hon => ?_, fun s c i rest hon hsample => .of_effect rfl (effLevelSample_of_asked hon hsample),
    fun s c i hadm hpause hw hre hres hmiss hi hline => .of_effect rfl (effCollectorOffer_of_line hadm hpause hw hre hres hmiss
      (firstFrom_orElse_lowest hi hline.1 hline.2)) (Block.pmuEv_notes _ _ _ _)⟩
  intro x pol rose n b r
  have heff : sampleLines s.blk c lv = r := by
    rw [sampleLines_of_dpOn hon]
    simp only [Block.raiseLines, Block.coll_setColl, Block.setColl_setColl]
    rfl
  exact ⟨.of_effect rfl heff, .of_effect rfl heff⟩

end Sys2Proof.Machine

namespace Sys2Proof.Machine

/-! ### Writes to a page whose registers need no grant and no selection (R326, R333) -/

/-- The classes of page that none of the rules of single registers names: no grant in the data plane (R443), no selection (R172, R254),
no page left out of the build (R229), no check of PWR_SN_TEST and CPC_SRC, no service before the data plane runs (Table 15-1). -/
def PgClass.plain : PgClass → Bool
  | .car | .last | .xu | .vmgr | .jl | .pmu | .stn | .lc => true
  | _ => false

section Plain

variable {b : Block} {pg off : Nat} {cl : PgClass} {w : RegAcc} (hc : pgClass pg = some cl)
include hc

theorem page_lt_of_class : pg < 128 := by
  by_contra hge
  have hnone : pgClass pg = none := by
    unfold pgClass
    repeat rw [if_neg (by omega)]
  simp [hnone] at hc

variable (hp : cl.plain = true)
include hp

theorem ne_page_of_plain {q : Nat} (hq : (pgClass q).any PgClass.plain = false) : pg ≠ q := by
  rintro rfl
  simp [hc, hp] at hq

theorem earlyPage_of_plain : earlyPage pg = false := by
  have hne : ∀ q, (pgClass q).any PgClass.plain = false → pg ≠ q := fun q hq => ne_page_of_plain hc hp hq
  simp [earlyPage, hne pgGLB (by decide), hne pgTRN (by decide), hne pgCPC (by decide), hne pgPWR (by decide), hne pgTU (by decide),
    hne pgRAS (by decide)]

theorem Block.regAsk_of_plain : b.regAsk pg off = .none := by
  have herw : pg ≠ pgERW := ne_page_of_plain hc hp (by decide)
  have hre : cl ≠ .re := by rintro rfl; cases hp
  simp [Block.regAsk, hc, hre, herw]

theorem Block.selBad_of_plain : b.selBad pg off = (b, false) := by
  unfold Block.selBad
  rw [hc]
  split
  next h => cases h; cases hp
  next h => cases h; cases hp
  next => rfl

theorem Block.opened_of_plain : ∃ g m, b.opened pg off = { b.relock pg with clk := { b.clk with gated := g, busyAt := m } } := by
  obtain ⟨g, m, hwake⟩ := Block.wakeUnits_clk (b.relock pg) pg off
  exact ⟨g, m, by rw [Block.opened, Block.regAsk_of_plain hc hp, Block.turn_none, hwake]; rfl⟩

theorem Block.wrote_of_plain : b.wrote pg off w = (b.opened pg off).answer false 0 := by
  have hrm : pg ≠ pgRM := ne_page_of_plain hc hp (by decide)
  simp only [Block.wrote, Block.mbxTouch, hrm, false_and, if_false]
  rfl

theorem Block.hdr_opened_of_plain : (b.opened pg off).hdr pg = { b.hdr pg with unlocked := false } := by
  obtain ⟨g, m, ho⟩ := Block.opened_of_plain (b := b) (off := off) hc hp
  rw [ho]
  exact Block.hdr_setHdr b pg _

variable (h : b.writes pg off w = true)
include h

/-- Rows 6 to 8 of Table 12-3 let the write of the opened page take effect at once. -/
theorem Block.writeFields_of_writes :
    (b.opened pg off).writeFields w.rid pg cl w.als off w.data (!(b.hdr pg).unlocked) =
      (b.opened pg off).applyReg w.rid pg cl w.als off ((b.opened pg off).subOf pg off)
        (storedVal cl off ((b.opened pg off).wval pg off w)) false := by
  simp only [Block.writes, Block.takes, Block.immediate, hc, Bool.and_eq_true, decide_eq_true_eq, beq_iff_eq, Bool.not_eq_true',
    and_assoc] at h
  obtain ⟨-, h40, -, -, -, hpost, hen, hkey, hheld, hex, honce, hals, -, -, -, -, hpst, happ⟩ := h
  obtain ⟨g, m, ho⟩ := Block.opened_of_plain (b := b) (off := off) hc hp
  have hhdr := Block.hdr_opened_of_plain (b := b) (off := off) hc hp
  have hheld' : (b.opened pg off).isHeld pg = false := by
    rw [ho]
    exact hheld
  rw [Block.writeFields_ok _ _ _ _ _ _ hc h40 (by rw [hhdr, hen]) (fun hk => by simpa [hk] using hkey)
    (fun hw => by rw [ho]; exact (by simpa [hw] using honce : b.fab.instSet = false)) hheld' (by rw [ho]; exact hpost) ?_ ?_
    (by rw [Block.selBad_of_plain hc hp]) (by rintro ⟨rfl, -⟩; cases hp) (by rintro ⟨rfl, -⟩; cases hp)]
  · exact Block.commitWrite_now _ _ _ _ _ _ _ hpst (by rw [hhdr, happ]) hheld'
  · unfold Block.expertOf at hex ⊢
    rw [hhdr]
    exact hex
  · by_cases hb : w.als = .base <;> simpa [hb] using hals

theorem Block.writeOpen_of_writes : b.writeOpen w.rid pg w.als off w.data =
    ((b.opened pg off).applyReg w.rid pg cl w.als off ((b.opened pg off).subOf pg off)
      (storedVal cl off ((b.opened pg off).wval pg off w)) false, false) := by
  have hfields := Block.writeFields_of_writes hc hp h
  simp only [Block.writes, Block.takes, Block.immediate, hc, Bool.and_eq_true, decide_eq_true_eq, Option.isNone_iff_eq_none,
    and_assoc] at h
  obtain ⟨-, h40, -, -, -, hpost, -⟩ := h
  have hrm : pg ≠ pgRM := ne_page_of_plain hc hp (by decide)
  have hcsg : cl ≠ .csg := by rintro rfl; cases hp
  have hkey : ¬ (off = 0x014 ∧ w.als = .base) := by omega
  have hlock : b.setHdr pg { b.hdr pg with unlocked := false } = b.relock pg := rfl
  have hpost' : ((b.relock pg).fab.posted.find? pg).isSome = false := by
    rw [show (b.relock pg).fab.posted = b.fab.posted from rfl, hpost]
    rfl
  have hopen : (b.relock pg).wakeUnits pg off = b.opened pg off := by
    rw [Block.opened, Block.regAsk_of_plain hc hp, Block.turn_none]
  unfold Block.writeOpen
  simp only [hc, hcsg, hkey, hlock, hpost', hopen, hfields, Block.mbxTouch, hrm, false_and, if_false, Bool.false_eq_true]

/-- A write to which Table 12-3 has no objection takes effect at once, if what it does leaves the queue of the port alone. -/
theorem Block.regCmd_of_writes (hoff : off < 0x1000) (h4 : off % 4 = 0)
    (hq : ∀ c : Block, (c.applyReg w.rid pg cl w.als off ((b.opened pg off).subOf pg off)
      (storedVal cl off ((b.opened pg off).wval pg off w)) false).fab.q = c.fab.q) :
    b.regCmd pg off w = b.oneSeq (((b.opened pg off).applyReg w.rid pg cl w.als off ((b.opened pg off).subOf pg off)
      (storedVal cl off ((b.opened pg off).wval pg off w)) false).answer false 0) := by
  have hopen := Block.writeOpen_of_writes hc hp h
  have hask : b.regAsk pg off = .none := Block.regAsk_of_plain hc hp
  simp only [Block.writes, Block.takes, hc, earlyPage_of_plain hc hp, Bool.and_eq_true, Bool.and_false, Bool.or_false,
    beq_iff_eq, and_assoc] at h
  obtain ⟨hfree, -, hmode, hadm, -⟩ := h
  obtain ⟨g, m, ho⟩ := Block.opened_of_plain (b := b) (off := off) hc hp
  rw [Block.regCmd_of_turn (page_lt_of_class hc) hoff h4 hfree hmode hadm (by rw [hask]; trivial) (by rw [hask]; rfl), hask,
    Block.turn_none, hopen]
  · rfl
  · rw [hask, Block.turn_none, hopen, hq, ho]
    exact (Block.portFree_iff.mp hfree).1

end Plain

/-- A register write of a plain page that meets no obstacle puts its effect. -/
theorem Puts.of_writes {s : State} {c : Instr} {pg off : Nat} {cl : PgClass} {w : RegAcc} {r : Block} (hc : pgClass pg = some cl)
    (hp : cl.plain = true) (e : exec c s = .next { s with blk := s.blk.regCmd pg off w }) (hoff : off < 0x1000) (h4 : off % 4 = 0)
    (h : s.blk.writes pg off w = true)
    (hq : ∀ b : Block, (b.applyReg w.rid pg cl w.als off ((s.blk.opened pg off).subOf pg off)
      (storedVal cl off ((s.blk.opened pg off).wval pg off w)) false).fab.q = b.fab.q)
    (hr : ((s.blk.opened pg off).applyReg w.rid pg cl w.als off ((s.blk.opened pg off).subOf pg off)
      (storedVal cl off ((s.blk.opened pg off).wval pg off w)) false).answer false 0 = r) : Puts s c r :=
  .of_effect e (hr ▸ Block.regCmd_of_writes hc hp h hoff h4 hq)

end Sys2Proof.Machine

namespace Sys2Proof.Machine

/-! ### The port's answer and what a write counts and reports -/

theorem Block.rmLog_answer (b : Block) (err : Bool) (v : BitVec 64) (cls code : BitVec 8) (src : BitVec 16) (data : BitVec 128) :
    (b.answer err v).rmLog cls code src data = (b.rmLog cls code src data).answer err v := by
  simp only [Block.rmLog, apply_ite (Block.answer · err v)]
  rfl

theorem Block.even_answer (b : Block) (err : Bool) (v : BitVec 64) (pg : Nat) (m : BitVec 24) :
    (b.answer err v).even pg m = (b.even pg m).answer err v := by
  have hlog : (b.answer err v).evenLog pg = (b.evenLog pg).answer err v := Block.rmLog_answer b err v _ _ _ _
  simp only [Block.even, apply_ite (Block.answer · err v), hlog]
  rfl

/-- A flag is set before or after the port answers. -/
theorem Block.flag_answer (b : Block) (err : Bool) (v : BitVec 64) (pg i : Nat) :
    (b.answer err v).flag pg i = (b.flag pg i).answer err v := by
  simp only [Block.flag, Block.raise, apply_ite (Block.answer · err v), ← Block.even_answer]
  rfl

theorem Block.flag_queue (b : Block) (pg i : Nat) : (b.flag pg i).fab.q = b.fab.q :=
  (Block.flag_notes b pg i).eq_field (·.fab.q) fun _ _ _ _ _ => rfl

/-! ### Fields of a blended word -/

/-- A field that a command code leaves alone and the register takes whole. -/
theorem fld_blend_and {w hi lo : Nat} {m k : BitVec w} (d v : BitVec w) (hle : lo ≤ hi) (hw : hi < w) (hm : fld m hi lo = 0)
    (hk : fld k hi lo = BitVec.allOnes _) : fld (blend m d v &&& k) hi lo = fld d hi lo := by
  refine BitVec.eq_of_getLsbD_eq fun i hin => ?_
  have hmi := congrArg (·.getLsbD i) hm
  have hki := congrArg (·.getLsbD i) hk
  simp only [fld, BitVec.getLsbD_extractLsb', hin, decide_true, Bool.true_and, BitVec.getLsbD_allOnes, BitVec.ofNat_eq_ofNat,
    BitVec.getLsbD_zero] at hmi hki ⊢
  have hbit : lo + i < w := by omega
  simp only [blend, BitVec.getLsbD_and, BitVec.getLsbD_or, BitVec.getLsbD_not, hmi, hki, hbit]
  simp

/-- A field of which a mask names every bit is taken from the new value. -/
theorem fld_blend_of_ones {w hi lo : Nat} {m : BitVec w} (d v : BitVec w) (hm : fld m hi lo = BitVec.allOnes _) :
    fld (blend m d v) hi lo = fld v hi lo := by
  refine BitVec.eq_of_getLsbD_eq fun i hin => ?_
  have hmi := congrArg (·.getLsbD i) hm
  simp only [fld, BitVec.getLsbD_extractLsb', hin, decide_true, Bool.true_and, BitVec.getLsbD_allOnes] at hmi ⊢
  simp only [blend, BitVec.getLsbD_and, BitVec.getLsbD_or, BitVec.getLsbD_not, hmi, Bool.not_true, Bool.and_true, Bool.and_false,
    Bool.false_or]

/-! ### The registers of a collector (R84, R112) -/

/-- Opening a page of a station or a collector changes neither what its registers read nor what a write makes of them. -/
theorem Block.wval_opened {pg : Nat} {cl : PgClass} (hc : pgClass pg = some cl) (hcl : cl = .stn ∨ cl = .lc) (b : Block) {off : Nat}
    (h : 0x40 ≤ off) (w : RegAcc) : (b.opened pg off).wval pg off w = b.wval pg off w := by
  have hp : cl.plain = true := by rcases hcl with rfl | rfl <;> rfl
  obtain ⟨g, m, ho⟩ := Block.opened_of_plain (b := b) (off := off) hc hp
  have hlow : ¬ off < 0x40 := by omega
  rw [ho]
  simp only [Block.wval, hc, Block.readReg, if_neg hlow]
  rcases hcl with rfl | rfl <;> rfl

theorem Block.raiseLines_queue (b : Block) (c : Nat) (m edges : BitVec 128) : (b.raiseLines c m edges).fab.q = b.fab.q := by
  simp only [Block.raiseLines]
  split <;> rfl

theorem Block.applyLc_queue (b : Block) (c off : Nat) (v : Word) : (b.applyLc c off v).fab.q = b.fab.q := by
  simp only [Block.applyLc, Block.lcInject, Block.lcWritten]
  split
  · split
    · split
      · exact Block.flag_queue b _ 1
      · exact Block.raiseLines_queue b c _ _
    · rfl
  · split
    · exact Block.raiseLines_queue _ c _ _
    · rfl

theorem defOf_lc_lines {off : Nat} (h : 0x40 ≤ off) (h' : off < 0x70) (h4 : off % 4 = 0) : defOf .lc off = { rw := 0xFFFFFFFF } := by
  obtain ⟨i, hi, rfl⟩ : ∃ i < 12, off = 0x40 + 4 * i := ⟨(off - 0x40) / 4, by omega, by omega⟩
  revert i
  decide

theorem defOf_lc_inject : defOf .lc 0x090 = { wo := 0x17F, key := true } := by decide

theorem Block.applyLc_lines (b : Block) (c : Fin 16) {base : Nat} (hb : base = 0x040 ∨ base = 0x050 ∨ base = 0x060) (r : Fin 4)
    (v : Word) : b.applyLc c (base + 4 * r.val) v = (b.setReg (pgLC c) (base + 4 * r.val) v).lcWritten c r := by
  have hr := r.isLt
  have hnum : (base + 4 * r.val) % 16 / 4 = r := by omega
  have hne : base + 4 * r.val ≠ 0x090 := by omega
  have hin : 0x040 ≤ base + 4 * r.val ∧ base + 4 * r.val < 0x070 := by omega
  rw [Block.applyLc, if_neg hne, if_pos hin, hnum, Block.store, defOf_lc_lines hin.1 hin.2 (by omega), blend_ones]

/-- A write of a line register disables and raises lines (R84). -/
theorem Block.lcWritten_eq (b : Block) (c r : Nat) : b.lcWritten c r = b.setColl c { b.coll c with
    raise := ((b.coll c).raise &&& b.lcBits c 0x040) ||| (((b.coll c).sync ^^^ b.lcBits c 0x060) &&& b.lcBits c 0x040 &&&
      b.lcBits c 0x050 &&& (0xFFFFFFFF#128 <<< (32 * r))) } := by
  simp only [Block.lcWritten, Block.raiseLines_no_edge, Block.active_setColl, Block.lcBits_setColl, Block.coll_setColl,
    Block.setColl_setColl]
  rfl

theorem popCount_twoPow {w i : Nat} (hi : i < w) : popCount (BitVec.twoPow w i) = 1 := by
  have hbit : ∀ j, (BitVec.twoPow w i).getLsbD j = (j == i) := fun j => by
    simp [BitVec.getLsbD_twoPow, hi, Bool.beq_eq_decide_eq, eq_comm (a := i)]
  simp only [popCount, hbit]
  exact List.count_eq_one_of_mem List.nodup_range (List.mem_range.mpr hi)

/-- One bit of a word. -/
theorem and_single {w : Nat} (x : BitVec w) (i : Nat) :
    x &&& (1 : BitVec w) <<< i = if bit x i = true then BitVec.twoPow w i else 0 :=
  BitVec.and_twoPow x i

theorem and_single_eq_zero_iff {w i : Nat} (hi : i < w) (x : BitVec w) : x &&& (1 : BitVec w) <<< i = 0 ↔ bit x i = false := by
  have hne : BitVec.twoPow w i ≠ 0#w := fun h => by
    have hone := popCount_twoPow hi
    rw [h, popCount_zero] at hone
    cases hone
  rw [and_single]
  split
  next h => simp [h, hne]
  next h => simpa using h

/-- A test arrival at an enabled line is raised, and merges with one that stands there. -/
theorem Block.lcInject_enabled {b : Block} {c line : Nat} (hl : line < 128) (h : bit (b.lcBits c 0x040) line = true) :
    b.lcInject c line =
      if bit (b.coll c).raise line = true
      then (b.setColl c { b.coll c with raise := (b.coll c).raise ||| (1 : BitVec 128) <<< line }).cnt (pgLC c) 0x094
      else b.setColl c { b.coll c with raise := (b.coll c).raise ||| (1 : BitVec 128) <<< line } := by
  have hen : ¬ b.lcBits c 0x040 &&& (1 : BitVec 128) <<< line = 0 := by
    rw [and_single_eq_zero_iff hl, h]
    simp
  rw [Block.lcInject, if_neg hen, Block.raiseLines, and_single]
  split
  · simp [popCount_twoPow hl]
  · simp [popCount_zero]

/-- A test arrival at a disabled line is ignored. -/
theorem Block.lcInject_disabled {b : Block} {c line : Nat} (hl : line < 128) (h : bit (b.lcBits c 0x040) line = false) :
    b.lcInject c line = b.flag (pgLC c) 1 := by
  rw [Block.lcInject, if_pos ((and_single_eq_zero_iff hl _).mpr h)]

end Sys2Proof.Machine

namespace Sys2Proof.Machine

@[simp] theorem Block.coll_opened_lc (b : Block) (c : Fin 16) (off d : Nat) : (b.opened (pgLC c) off).coll d = b.coll d := by
  obtain ⟨g, m, ho⟩ := Block.opened_of_plain (b := b) (off := off) (pgClass_lc c) rfl
  rw [ho]
  rfl

@[simp] theorem Block.lcBits_opened_lc (b : Block) (c : Fin 16) (off d base : Nat) :
    (b.opened (pgLC c) off).lcBits d base = b.lcBits d base := by
  obtain ⟨g, m, ho⟩ := Block.opened_of_plain (b := b) (off := off) (pgClass_lc c) rfl
  rw [ho]
  rfl

/-- A write of a collector's page that meets no obstacle. -/
theorem Puts.of_writes_lc {s : State} {i : Instr} {c : Fin 16} {off : Nat} {w : RegAcc} {r : Block}
    (e : exec i s = .next { s with blk := s.blk.regCmd (pgLC c) off w }) (h40 : 0x40 ≤ off) (hoff : off < 0x1000) (h4 : off % 4 = 0)
    (h : s.blk.writes (pgLC c) off w = true)
    (hr : ((s.blk.opened (pgLC c) off).applyLc c off (s.blk.wval (pgLC c) off w)).answer false 0 = r) : Puts s i r := by
  have hunit : pgLC c - 0x18 = c := by simp [pgLC]
  refine .of_writes (pgClass_lc c) rfl e hoff h4 h (fun b => Block.applyLc_queue b _ off _) ?_
  simp only [Block.applyReg, hunit, storedVal, Block.wval_opened (pgClass_lc c) (.inr rfl) _ h40]
  exact hr

/-- A write of LC_INJECT that meets no obstacle injects an arrival at the line it names. -/
theorem Puts.of_writes_inject {s : State} {c : Fin 16} {w : RegAcc} {r : Block} (ha : w.als = .base)
    (h : s.blk.writes (pgLC c) 0x090 (withOp w 0x100 0x100) = true)
    (hr : ((s.blk.opened (pgLC c) 0x090).lcInject c (fld w.data 6 0).toNat).answer false 0 = r) : Puts s (.lcInject c w) r := by
  have hval : s.blk.wval (pgLC c) 0x090 (withOp w 0x100 0x100) = blend 0x100 w.data 0x100 &&& 0x17F := by
    rw [Block.wval_base s.blk _ _ (withOp w 0x100 0x100) .lc (pgClass_lc c) ha, defOf_lc_inject]
    simp [withOp]
  have hgo : bit (blend 0x100 w.data 0x100 &&& 0x17F) 8 = true := by simp [bit, blend]
  have hline : fld (blend 0x100 w.data 0x100 &&& 0x17F) 6 0 = fld w.data 6 0 :=
    fld_blend_and _ _ (by decide) (by decide) (by decide) (by decide)
  refine .of_writes_lc rfl (by decide) (by decide) (by decide) h ?_
  rw [hval, Block.applyLc, if_pos rfl, if_pos hgo, hline]
  exact hr

/-! ### The edge latch (R85, R86) -/

/-- The enabled lines that have become active at the latch in PD0. -/
def Collector.pd0Rose (x : Collector) (lv : BitVec 128) : BitVec 128 :=
  (lv ^^^ x.pd0Pol) &&& ~~~(x.pd0Level ^^^ x.pd0Pol) &&& x.pd0En

/-- A collector whose latch has captured a level. -/
def Collector.captured (x : Collector) (lv : BitVec 128) (woke : Bool) : Collector :=
  { x with pd0 := x.pd0 ||| x.pd0Rose lv, pd0Level := lv, woke }

/-- The level sets the first latch bit of any collector. -/
def Block.setsFirstLatch (b : Block) (c : Nat) (lv : BitVec 128) : Prop :=
  (b.coll c).pd0Rose lv ≠ 0 ∧ ∀ p ∈ b.col.cells, p.2.pd0 = 0

section Latch

variable {b : Block} {c : Nat} {lv : BitVec 128}

theorem Block.setsFirstLatch_iff :
    b.setsFirstLatch c lv ↔ ((b.coll c).pd0Rose lv != 0 && b.col.cells.all fun p => p.2.pd0 == 0) = true := by
  simp only [Block.setsFirstLatch, Bool.and_eq_true, bne_iff_ne, List.all_eq_true, beq_iff_eq]

variable (hon : (b.coll c).latchOn = true)
include hon

/-- The first latch bit latches the wired wake cause. -/
theorem effEdgeLatch_of_first (h : b.setsFirstLatch c lv) : effEdgeLatch b c lv =
    { b.setColl c ((b.coll c).captured lv true) with pwr := { b.pwr with latched := b.pwr.latched ||| 1 } } := by
  have hfirst := Block.setsFirstLatch_iff.mp h
  have hcaptures : (!(b.coll c).latchOn) = false := by rw [hon, Bool.not_true]
  unfold Collector.pd0Rose at hfirst
  simp only [effEdgeLatch, hcaptures, Bool.false_eq_true, if_false, hfirst, Bool.or_true, if_true]
  rfl

theorem effEdgeLatch_of_not_first (h : ¬ b.setsFirstLatch c lv) :
    effEdgeLatch b c lv = b.setColl c ((b.coll c).captured lv (b.coll c).woke) := by
  have hlater := Bool.eq_false_iff.mpr (mt Block.setsFirstLatch_iff.mpr h)
  have hcaptures : (!(b.coll c).latchOn) = false := by rw [hon, Bool.not_true]
  unfold Collector.pd0Rose at hlater
  simp only [effEdgeLatch, hcaptures, Bool.false_eq_true, if_false, hlater, Bool.or_false]
  rfl

/-- The transfer of the latch in a wake. -/
theorem effLatchTransfer_of_opening (hst : b.pwr.stage = .opening) :
    effLatchTransfer b c lv =
      let b' := b.setColl c { b.coll c with
        sync := lv, latch := (b.coll c).pd0, pd0 := 0, latchOn := false, woke := false
        raise := (b.coll c).raise ||| (((b.coll c).pd0 &&& ~~~b.lcBits c 0x050) |||
          ((lv ^^^ b.lcBits c 0x060) &&& b.lcBits c 0x050 &&& b.lcBits c 0x040)) }
      if (b.coll c).woke = true ∧ bit b.pwr.cause 0 = true then b'.flag (pgLC c) 0 else b' := by
  simp only [effLatchTransfer, hst, hon, bne_self_eq_false, Bool.not_true, Bool.or_self, Bool.false_eq_true, if_false,
    Bool.and_eq_true, Block.active]

end Latch

/-- Settles O8: the writes pass the register port as it stands free (R324) and act as their registers say; the latch captures and is
transferred as R85 and R86 say. -/
theorem lineRegistersAndTheEdgeLatch : Obligations.LineRegistersAndTheEdgeLatch := by
  unfold Obligations.LineRegistersAndTheEdgeLatch
  refine ⟨⟨fun s c r i base w hi h => ?_, fun s c w ha h => ?_⟩,
    fun s c lv hon => ⟨fun h => .of_effect rfl (effEdgeLatch_of_first hon h),
      fun h => .of_effect rfl (effEdgeLatch_of_not_first hon h)⟩,
    fun s c lv hst hon => .of_effect rfl (effLatchTransfer_of_opening hon hst)⟩
  · have hb : base = 0x040 ∨ base = 0x050 ∨ base = 0x060 := by
      rcases hi with ⟨hb, -⟩ | ⟨hb, -⟩ | ⟨hb, -⟩ <;> simp [hb]
    have hexec : exec i s = .next { s with blk := s.blk.regCmd (pgLC c) (base + 4 * r.val) w } := by
      rcases hi with ⟨rfl, rfl⟩ | ⟨rfl, rfl⟩ | ⟨rfl, rfl⟩ <;> rfl
    have hval : s.blk.stval (pgLC c) (base + 4 * r.val) w = s.blk.wval (pgLC c) (base + 4 * r.val) w := by
      simp [Block.stval, pgClass_lc, storedVal]
    refine .of_writes_lc hexec (by omega) (by omega) (by omega) h ?_
    rw [Block.applyLc_lines _ _ hb, Block.lcWritten_eq, Block.coll_setReg, Block.coll_opened_lc,
      Block.wrote_of_plain (pgClass_lc c) rfl, hval]
    rfl
  · have hl : (fld w.data 6 0).toNat < 128 := (fld w.data 6 0).isLt
    refine ⟨fun hen => .of_writes_inject ha h ?_, fun hen => .of_writes_inject ha h ?_⟩
    · rw [Block.lcInject_enabled hl (by rwa [Block.lcBits_opened_lc]), Block.coll_opened_lc, apply_ite (Block.answer · false 0),
        Block.wrote_of_plain (pgClass_lc c) rfl]
      rfl
    · rw [Block.lcInject_disabled hl (by rwa [Block.lcBits_opened_lc]), ← Block.flag_answer,
        Block.wrote_of_plain (pgClass_lc c) rfl]

end Sys2Proof.Machine

namespace Sys2Proof.Machine

/-! ### Doorbell writes join the intake (R88 to R93, R103) -/

theorem Block.Notes.setStation {pgs : List Nat} {b b' : Block} (h : Block.Notes pgs b b') (k : Nat) (v : Station) :
    Block.Notes pgs (b.setStation k v) (b'.setStation k v) :=
  h.map (·.setStation k v) (fun _ _ _ _ _ => rfl) fun _ => ⟨rfl, rfl⟩

theorem Block.Notes.setPays {pgs : List Nat} {b b' : Block} (h : Block.Notes pgs b b') (m : Map Pay) :
    Block.Notes pgs { b with pays := m } { b' with pays := m } :=
  h.map (fun b => { b with pays := m }) (fun _ _ _ _ _ => rfl) fun _ => ⟨rfl, rfl⟩

theorem Block.Notes.station {pgs : List Nat} {b b' : Block} (h : Block.Notes pgs b b') (k : Nat) : b'.station k = b.station k :=
  h.eq_field (·.station k) fun _ _ _ _ _ => rfl

theorem Block.Notes.pays {pgs : List Nat} {b b' : Block} (h : Block.Notes pgs b b') : b'.pays = b.pays :=
  h.eq_field Block.pays fun _ _ _ _ _ => rfl

theorem Block.stage_of_admitOn {b : Block} (h : b.admitOn = true) : b.pwr.stage = .run := by
  simp only [Block.admitOn, Bool.and_eq_true, beq_iff_eq, and_assoc] at h
  exact h.1

theorem Block.stnDark_of_run {b : Block} (h : b.pwr.stage = .run) : b.stnDark = false := by simp [Block.stnDark, h]

theorem Block.stnRetry_of_run {b : Block} (h : b.pwr.stage = .run) : b.stnRetry = false := by simp [Block.stnRetry, h]

/-- An event without payload bytes takes no reassembly entry. -/
theorem Block.takeIn_no_bytes (b : Block) (k : Nat) {i : Item} (h : i.bytes = []) :
    b.takeIn k i = b.setStation k { b.station k with intake := (b.station k).intake ++ [i] } := by
  simp only [Block.takeIn, Block.claimReasm, h, List.isEmpty_nil, if_true, Option.getD_some, ite_self]

/-- An item with payload bytes takes the first free reassembly entry; REASM_FULL is reported when it is the last. -/
theorem Block.claimReasm_of_free {b : Block} {k : Nat} {i : Item} (hb : i.bytes ≠ [])
    (hfree : ((List.range 128).any fun j => (b.pays.find? (128 * k + j)).isNone) = true) :
    ∃ n c, 128 * k ≤ n ∧ n < 128 * k + 128 ∧ b.pays.find? n = none ∧
      b.claimReasm k i = some (c, { i with pay := some n, bytes := [] }) ∧
      Block.Notes [pgSTN k, pgRM] { b with pays := b.pays.insert n { bytes := i.bytes, readers := 1 } } c := by
  have hfound : ((List.range 128).find? fun j => (b.pays.find? (128 * k + j)).isNone).isSome = true := by
    rw [List.find?_isSome]
    simpa using hfree
  obtain ⟨j, hj⟩ := Option.isSome_iff_exists.mp hfound
  have hlt : j < 128 := List.mem_range.mp (List.mem_of_find?_eq_some hj)
  have hnone : b.pays.find? (128 * k + j) = none := by simpa using List.find?_some hj
  have hne : i.bytes.isEmpty = false := by simpa using hb
  have hclaim : b.claimPay (128 * k) 128 i.bytes =
      some ({ b with pays := b.pays.insert (128 * k + j) { bytes := i.bytes, readers := 1 } }, 128 * k + j) := by
    rw [Block.claimPay, hj]
    rfl
  have hnotes : ∀ b' : Block, Block.Notes [pgSTN k, pgRM] b' (if b'.reasmUsed k = 128 then b'.flag (pgSTN k) 2 else b') := by
    intro b'
    split
    · exact Block.flag_notes _ _ 2
    · exact Block.Notes.refl _ _
  refine ⟨128 * k + j, _, by omega, by omega, hnone, ?_, hnotes _⟩
  simp only [Block.claimReasm, hne, Bool.false_eq_true, if_false, hclaim]

/-- An event that no earlier one holds up joins the intake; its bytes, if it has any, take a reassembly entry of the station. -/
theorem Block.takeIn_of_free {b : Block} {k : Nat} {i : Item} (hall : ((b.station k).intake.all fun j => j.bytes.isEmpty) = true)
    (hfree : ((List.range 128).any fun j => (b.pays.find? (128 * k + j)).isNone) = true) (hpay : i.pay = none) :
    ∃ c pay, Block.Notes [pgSTN k, pgRM] { b with pays := c.pays } c ∧
      b.takeIn k i = c.setStation k { b.station k with intake := (b.station k).intake ++ [{ i with pay, bytes := [] }] } ∧
      (i.bytes = [] → pay = none ∧ c.pays = b.pays) ∧
      (i.bytes ≠ [] → ∃ n, 128 * k ≤ n ∧ n < 128 * k + 128 ∧ b.pays.find? n = none ∧ pay = some n ∧
        c.pays = b.pays.insert n { bytes := i.bytes, readers := 1 }) := by
  by_cases hb : i.bytes = []
  · refine ⟨b, none, Block.Notes.refl _ _, ?_, fun _ => ⟨rfl, rfl⟩, fun h => absurd hb h⟩
    rw [Block.takeIn_no_bytes b k hb, ← hpay, ← hb]
  · obtain ⟨n, c, hle, hlt, hnone, hclaim, hnotes⟩ := Block.claimReasm_of_free hb hfree
    have hfirst : ((b.station k).intake.any fun j => !j.bytes.isEmpty) = false := by
      simpa [List.all_eq_true] using hall
    have hstn : c.station k = b.station k := hnotes.station k
    have hpays := hnotes.pays
    refine ⟨c, some n, by rwa [hpays], ?_, fun h => absurd h hb, fun _ => ⟨n, hle, hlt, hnone, rfl, hpays⟩⟩
    simp only [Block.takeIn, hfirst, Bool.false_eq_true, if_false, hclaim, Option.getD_some, hstn]

/-- The item that a well-formed write makes (R88, R89), but for its payload. -/
def writeItem (bs : List Beat) (x : Beat) (e : Event) (tok : Nat) : Item :=
  { kind := .message, src := .tag x.tag, tag := x.tag, devevt := e, page := BitVec.ofNat 13 (writePlace bs / 4096),
    off := BitVec.ofNat 12 (writePlace bs), beats := bs.length, tok }

/-- A block that has taken a write: it owes the response, not decided yet, under a new token. -/
def Block.owesWrite (b : Block) (k : Nat) (id : BitVec 12) : Block :=
  ({ b with tok := b.tok + 1 } : Block).oweRsp k { tok := b.tok + 1, id, beats := 1, code := none }

@[simp] theorem Block.station_owesWrite (b : Block) (k : Nat) (id : BitVec 12) : (b.owesWrite k id).station k =
    { b.station k with rsps := (b.station k).rsps ++ [{ tok := b.tok + 1, id, beats := 1, code := none }] } := by
  simp only [Block.owesWrite, Block.oweRsp, Block.station_setStation]
  rfl

@[simp] theorem Block.setStation_owesWrite (b : Block) (k : Nat) (id : BitVec 12) (v : Station) :
    (b.owesWrite k id).setStation k v = ({ b with tok := b.tok + 1 } : Block).setStation k v := by
  simp only [Block.owesWrite, Block.oweRsp, Block.setStation_setStation]

/-- What a station counts and flags of a long doorbell (R90): a LEN above 48, and fewer bytes than LEN. -/
def Block.notesLong (b : Block) (k len written : Nat) : Block :=
  let b := if 48 < len then (b.cntHalf (pgSTN k) 0x074 false).flag (pgSTN k) 6 else b
  if written < len then b.cntHalf (pgSTN k) 0x070 true else b

theorem Block.notesLong_notes (b : Block) (k len written : Nat) : Block.Notes [pgSTN k, pgRM] b (b.notesLong k len written) := by
  have htrunc : Block.Notes [pgSTN k, pgRM] b (if 48 < len then (b.cntHalf (pgSTN k) 0x074 false).flag (pgSTN k) 6 else b) := by
    split
    · exact ((Block.cntHalf_notes b _ 0x074 _ 1 (by decide)).of (by simp)).trans (Block.flag_notes _ _ 6)
    · exact Block.Notes.refl _ _
  unfold Block.notesLong
  dsimp only
  split
  · exact htrunc.trans ((Block.cntHalf_notes _ _ 0x070 _ 1 (by decide)).of (by simp))
  · exact htrunc

section Doorbell

variable {b : Block} {k : Nat} {id : BitVec 12} {bs : List Beat} {x : Beat} (hadm : b.admitOn = true)
  (hroom : (b.station k).rsps.countP (·.code.isSome) < 64) (hhead : bs.head? = some x)
include hadm hroom hhead

/-- While admission is on, a station that owes few responses takes writes. -/
theorem Block.station_takes_writes : bs.isEmpty = false ∧ b.stnDark = false ∧ b.stnRetry = false ∧
    (!b.admitOn || decide (64 ≤ (b.station k).rsps.countP (·.code.isSome))) = false := by
  have hrun := Block.stage_of_admitOn hadm
  refine ⟨?_, Block.stnDark_of_run hrun, Block.stnRetry_of_run hrun, ?_⟩
  · cases bs with
    | nil => cases hhead
    | cons => rfl
  · rw [hadm]
    simpa using hroom

variable (hfifo : fifoUsed (b.station k) + bs.length ≤ 64)
include hfifo

theorem doorbell_short {e : Event} (hkind : writeKind bs = .short e) :
    doorbell b false k id bs = ((b.owesWrite k id).pmuEv 0x01 k).takeIn k (writeItem bs x e (b.tok + 1)) := by
  obtain ⟨hne, hdark, hretry, htakes⟩ := Block.station_takes_writes hadm hroom hhead
  have hfits : (false || decide (64 < fifoUsed (b.station k) + bs.length)) = false := by simpa using hfifo
  simp only [doorbell, hne, hdark, hretry, htakes, hkind, hfits, hhead, Block.newTok, Bool.false_eq_true, if_false, Option.map_some,
    Option.getD_some]
  rfl

theorem doorbell_long {w : Word} {p : List Byte} (hkind : writeKind bs = .long w p) :
    doorbell b true k id bs = (((b.owesWrite k id).pmuEv 0x01 k).notesLong k (fld w 25 20).toNat p.length).takeIn k
      { writeItem bs x (fld w 19 0) (b.tok + 1) with
        bytes := p.take (min (min (fld w 25 20).toNat 48) p.length)
        plen := BitVec.ofNat 6 (min (min (fld w 25 20).toNat 48) p.length)
        trunc := decide (48 < (fld w 25 20).toNat) } := by
  obtain ⟨hne, hdark, hretry, htakes⟩ := Block.station_takes_writes hadm hroom hhead
  have hfits : (!true || decide (64 < fifoUsed (b.station k) + bs.length)) = false := by simpa using hfifo
  simp only [doorbell, hne, hdark, hretry, htakes, hkind, hfits, hhead, Block.newTok, Bool.false_eq_true, if_false, Option.map_some,
    Option.getD_some]
  rfl

end Doorbell

end Sys2Proof.Machine

namespace Sys2Proof.Machine

/-! ### Responses of a station (R92, R93) -/

theorem find?_append_cons {α : Type} {p : α → Bool} {pre post : List α} {a : α} (hpre : ∀ x ∈ pre, p x = false)
    (ha : p a = true) : (pre ++ a :: post).find? p = some a := by
  rw [List.find?_append, List.find?_eq_none.mpr fun x hx => by simp [hpre x hx], Option.none_or, List.find?_cons_of_pos ha]

theorem eraseFirst_append_cons {α : Type} {p : α → Bool} {pre post : List α} {a : α} (hpre : ∀ x ∈ pre, p x = false)
    (ha : p a = true) : eraseFirst p (pre ++ a :: post) = pre ++ post := by
  induction pre with
  | nil => simp [eraseFirst, ha]
  | cons x l ih => simp [eraseFirst, hpre x (by simp), ih fun y hy => hpre y (by simp [hy])]

section Read

variable {b : Block} {k : Nat} {id : BitVec 12} {n : BitVec 3}

theorem effDoorbellRead_of_run (hrun : b.pwr.stage = .run) (hroom : (b.station k).rsps.countP (·.code.isSome) < 64) :
    effDoorbellRead b k id n =
      b.setStation k { b.station k with rsps := (b.station k).rsps ++ [{ tok := 0, id, beats := n.toNat + 1, code := some 0 }] } := by
  have htakes : (b.pwr.stage != .run || decide (64 ≤ (b.station k).rsps.countP (·.code.isSome))) = false := by
    simpa [hrun] using hroom
  simp only [effDoorbellRead, Block.stnDark_of_run hrun, Block.stnRetry_of_run hrun, htakes, Bool.false_eq_true, if_false, Block.oweRsp]

theorem effDoorbellRead_of_dark (h : b.stnDark = true) :
    effDoorbellRead b k id n = b.setStation k { b.station k with rspOut := some (id, 1, n.toNat + 1) } := by
  simp only [effDoorbellRead, h, if_true]

theorem effDoorbellRead_of_retry (hdark : b.stnDark = false) (h : b.stnRetry = true) :
    effDoorbellRead b k id n = b.setStation k { b.station k with rspOut := some (id, 2, n.toNat + 1) } := by
  simp only [effDoorbellRead, hdark, h, Bool.false_eq_true, if_false, if_true]

/-- In Intermission and its wake the station's domain is up and it answers RETRY. -/
theorem Block.stnRetry_of_stage (h : b.pwr.stage = .entry ∨ b.pwr.stage = .asleep ∨ b.pwr.stage = .waking ∨ b.pwr.stage = .opening) :
    b.stnDark = false ∧ b.stnRetry = true := by
  rcases h with h | h | h | h <;> simp [Block.stnDark, Block.stnRetry, h]

/-- The earliest decided response of an identifier leaves. -/
theorem effStationResponse_of_decided {pre post : List StnRsp} {r : StnRsp} {code : BitVec 2}
    (hr : (b.station k).rsps = pre ++ r :: post) (hpre : ∀ q ∈ pre, q.id ≠ id) (hid : r.id = id) (hcode : r.code = some code) :
    effStationResponse b k id =
      b.setStation k { b.station k with rsps := pre ++ post, rspOut := some (id, code, r.beats) } := by
  have hpre' : ∀ q ∈ pre, (q.id == id) = false := fun q hq => by simpa using hpre q hq
  have hid' : (r.id == id) = true := by simpa using hid
  simp only [effStationResponse, hr, find?_append_cons hpre' hid', eraseFirst_append_cons hpre' hid', hcode]

end Read

/-! ### The registers of a station (R99, R109, R111) -/

theorem Block.applyStn_queue (b : Block) (k off : Nat) (v : Word) : (b.applyStn k off v).fab.q = b.fab.q := by
  have hgo : ∀ c : Block, (c.stnInvGo k).fab.q = c.fab.q := fun c => by
    simp only [Block.stnInvGo]
    split
    · exact Block.flag_queue c _ 5
    · rfl
  unfold Block.applyStn
  dsimp only
  split
  · split <;> rfl
  · split
    · exact hgo _
    · rfl
  · rfl

theorem defOf_stn_ctl : defOf .stn 0x040 = { rw := 1, reset := 1 } := by decide
theorem defOf_stn_inv : defOf .stn 0x044 = { rw := 3, wo := 4 } := by decide

@[simp] theorem Block.station_opened_stn (b : Block) (k : Fin 8) (off j : Nat) : (b.opened (pgSTN k) off).station j = b.station j := by
  obtain ⟨g, m, ho⟩ := Block.opened_of_plain (b := b) (off := off) (pgClass_stn k) rfl
  rw [ho]
  rfl

@[simp] theorem Block.reg_opened_stn (b : Block) (k : Fin 8) (off pg o : Nat) : (b.opened (pgSTN k) off).reg pg o = b.reg pg o := by
  obtain ⟨g, m, ho⟩ := Block.opened_of_plain (b := b) (off := off) (pgClass_stn k) rfl
  rw [ho]
  rfl

/-- A write of a station's page that meets no obstacle. -/
theorem Puts.of_writes_stn {s : State} {i : Instr} {k : Fin 8} {off : Nat} {w : RegAcc} {r : Block}
    (e : exec i s = .next { s with blk := s.blk.regCmd (pgSTN k) off w }) (h40 : 0x40 ≤ off) (hoff : off < 0x1000) (h4 : off % 4 = 0)
    (h : s.blk.writes (pgSTN k) off w = true)
    (hr : ((s.blk.opened (pgSTN k) off).applyStn k off (s.blk.wval (pgSTN k) off w)).answer false 0 = r) : Puts s i r := by
  have hunit : pgSTN k - 0x10 = k := by simp [pgSTN]
  refine .of_writes (pgClass_stn k) rfl e hoff h4 h (fun b => Block.applyStn_queue b _ off _) ?_
  simp only [Block.applyReg, hunit, storedVal, Block.wval_opened (pgClass_stn k) (.inl rfl) _ h40]
  exact hr

/-- A write of STN_INV that meets no obstacle starts an invalidation, or finds one in progress. -/
theorem Puts.of_writes_inv {s : State} {k : Fin 8} {w : RegAcc} {r : Block} (ha : w.als = .base)
    (h : s.blk.writes (pgSTN k) 0x044 (withOp w 4 4) = true)
    (hr : (((s.blk.opened (pgSTN k) 0x044).setReg (pgSTN k) 0x044 (blend 3 (s.blk.reg (pgSTN k) 0x044) w.data)).stnInvGo k).answer
      false 0 = r) : Puts s (.stnInv k w) r := by
  have hval : s.blk.wval (pgSTN k) 0x044 (withOp w 4 4) = blend 4 w.data 4 &&& 7 := by
    rw [Block.wval_base s.blk _ _ (withOp w 4 4) .stn (pgClass_stn k) ha, defOf_stn_inv]
    simp [withOp]
  have hgo : bit (blend 4 w.data 4 &&& 7) 2 = true := by simp [bit, blend]
  have hscope : ∀ old : Word, blend 3 old (blend 4 w.data 4 &&& 7) = blend 3 old w.data := fun old => by
    have hkept : ~~~(4 : Word) &&& (7 &&& 3) = 3 := by decide
    have hclr : (4 : Word) &&& (4 &&& (7 &&& 3)) = 0#32 := by decide
    simp only [blend, BitVec.and_assoc, BitVec.and_or_distrib_right, hkept, hclr, BitVec.or_zero]
  refine .of_writes_stn rfl (by decide) (by decide) (by decide) h ?_
  rw [hval, Block.applyStn]
  simp only [hgo, if_true, Block.store, defOf_stn_inv, hscope, Block.reg_opened_stn]
  exact hr

/-- A read that is issued when an invalidation starts will not be installed (R109). -/
def Fill.late (f : Fill) : Fill :=
  match f.phase with
  | .issued _ _ _ => { f with stale := true }
  | _ => f

theorem Fill.late_eq (f : Fill) : (if f.phase.isIssued then { f with stale := true } else f) = f.late := by
  obtain ⟨a, phase, stale, dead⟩ := f
  cases phase <;> rfl

theorem Block.stnInvGo_of_idle {b : Block} {k : Nat} (h : (b.station k).inv = none) :
    b.stnInvGo k = b.setStation k { b.station k with
      inv := some { scope := fld (b.reg (pgSTN k) 0x044) 1 0, arg := (b.reg (pgSTN k) 0x048).setWidth 64 }
      fills := (b.station k).fills.map Fill.late
      refreshes := (b.station k).refreshes.map Fill.late } := by
  simp only [Block.stnInvGo, h, Option.isSome_none, Bool.false_eq_true, if_false, Fill.late_eq]

theorem Block.stnInvGo_of_busy {b : Block} {k : Nat} (h : (b.station k).inv.isSome = true) : b.stnInvGo k = b.flag (pgSTN k) 5 := by
  simp only [Block.stnInvGo, h, if_true]

theorem effStnInvDone_of_op {b : Block} {k : Nat} {o : InvOp} (h : (b.station k).inv = some o) :
    effStnInvDone b k = (b.setStation k { cacheMap (b.station k) (fun key v => if o.names key = true then none else some v) with
      inv := none, invCount := (b.station k).invCount + 1 }).flag (pgSTN k) 4 := by
  simp only [effStnInvDone, h]
  rfl

/-- Settles O9: writes join the intake, reads and responses pass the station in order, and the commands of the cache act through the
station's registers. -/
theorem doorbellWritesAreTaken : Obligations.DoorbellWritesAreTaken := by
  unfold Obligations.DoorbellWritesAreTaken
  refine ⟨⟨fun s k id bs x e hadm hroom hhead hkind hfifo => .of_effect rfl (doorbell_short hadm hroom hhead hfifo hkind) ?_,
    fun s k id bs x w p hadm hroom hhead hkind hfifo hall hfree => .of_effect rfl (doorbell_long hadm hroom hhead hfifo hkind) ?_⟩,
    ⟨fun s k id addr n => ⟨fun hrun hroom => .of_effect rfl (effDoorbellRead_of_run hrun hroom),
        fun hst => .of_effect rfl (effDoorbellRead_of_retry (Block.stnRetry_of_stage hst).1 (Block.stnRetry_of_stage hst).2),
        fun hdark => .of_effect rfl (effDoorbellRead_of_dark hdark)⟩,
      fun s k id pre post r code hr hpre hid hcode => .of_effect rfl (effStationResponse_of_decided hr hpre hid hcode)⟩,
    fun s k w h => ?_, fun s k w ha h => ?_, fun s k o ho => .of_effect rfl (effStnInvDone_of_op ho)⟩
  · rw [Block.takeIn_no_bytes _ _ rfl, Block.station_pmuEv, Block.station_owesWrite, ← Block.setStation_owesWrite s.blk k id]
    exact (Block.pmuEv_notes _ 0x01 k 1).setStation k _
  · generalize hlen : (fld w 25 20).toNat = len
    generalize heff : min (min len 48) p.length = eff
    generalize hb : ((s.blk.owesWrite k id).pmuEv 0x01 k).notesLong k len p.length = b
    have hnotes : Block.Notes [pgPMU, pgSTN k, pgRM] (s.blk.owesWrite k id) b := by
      rw [← hb]
      exact ((Block.pmuEv_notes _ 0x01 k 1).of (by simp)).trans ((Block.notesLong_notes _ k len p.length).of (by simp))
    have hstn := (hnotes.station k).trans (Block.station_owesWrite s.blk k id)
    have hpays : b.pays = s.blk.pays := hnotes.pays
    have hbytes : p.take eff = [] ↔ eff = 0 := by
      rw [← List.length_eq_zero_iff, List.length_take]
      omega
    obtain ⟨c, pay, hc, htake, hempty, hclaimed⟩ := Block.takeIn_of_free (b := b) (k := k)
      (i := { writeItem bs x (fld w 19 0) (s.blk.tok + 1) with
        bytes := p.take eff, plen := BitVec.ofNat 6 eff, trunc := decide (48 < len) }) (by rwa [hstn]) (by rwa [hpays]) rfl
    rw [hpays] at hempty hclaimed
    rw [htake, Block.station_setStation, hstn]
    refine ⟨?_, rfl, _, rfl, rfl, rfl, rfl, rfl, rfl, rfl, rfl, rfl, fun h => hempty (hbytes.mpr h), fun h => hclaimed fun h0 => ?_⟩
    · rw [hc.rest, hnotes.rest]
      rfl
    · exact absurd (hbytes.mp h0) (by omega)
  · have hval : s.blk.stval (pgSTN k) 0x040 w = s.blk.wval (pgSTN k) 0x040 w := by
      simp [Block.stval, pgClass_stn, storedVal]
    refine .of_writes_stn rfl (by decide) (by decide) (by decide) h ?_
    rw [hval, Block.wrote_of_plain (pgClass_stn k) rfl, Block.applyStn, Block.store, defOf_stn_ctl, Block.reg_opened_stn]
    dsimp only
    rw [apply_ite (Block.answer · false 0), Block.station_setReg, Block.station_opened_stn]
    rfl
  · refine ⟨fun hidle => .of_writes_inv ha h ?_, fun hbusy => .of_writes_inv ha h ?_⟩
    · have hscope : fld (blend 3 (s.blk.reg (pgSTN k) 0x044) w.data) 1 0 = fld w.data 1 0 := fld_blend_of_ones _ _ (by decide)
      rw [Block.stnInvGo_of_idle (by simpa using hidle), Block.reg_setReg, hscope, Block.reg_setReg_ne _ _ (by decide) (by decide)
        (.inr (by decide)), Block.reg_opened_stn, Block.station_setReg, Block.station_opened_stn,
        Block.wrote_of_plain (pgClass_stn k) rfl]
      rfl
    · rw [Block.stnInvGo_of_busy (by simpa using hbusy), ← Block.flag_answer, Block.wrote_of_plain (pgClass_stn k) rfl]
      rfl

end Sys2Proof.Machine

namespace Sys2Proof.Machine

/-! ### Lookups with a basic image active (R142) -/

@[simp] theorem Block.act_setStation (b : Block) (k : Nat) (v : Station) : (b.setStation k v).act = b.act := rfl

theorem look_of_basic {b : Block} {m : BasicImg} (h : b.act.basic = some m) (k : Nat) (i : Item) : look b k i = (b, basicLook m i) := by
  simp only [look, h]

/-- A message of doorbell page 0 that names a message-range event, with messages on. -/
theorem basicLook_message {m : BasicImg} {i : Item} (hkind : i.kind = .message) (hpage : i.page = 0) (hon : bit m.ctl 1 = true)
    (hrange : msgRange i.devevt = true) : basicLook m i = .enter i.devevt (basicMsg m i.devevt) := by
  simp [basicLook, hkind, hpage, hon, hrange]

theorem basicLook_wired {m : BasicImg} {i : Item} (hkind : i.kind = .wired) (hrange : wiredRange i.pevent = true) :
    basicLook m i = .enter i.pevent (basicWired m i.pevent) := by
  simp only [basicLook, hkind, hrange, if_true]

theorem Block.decideRsp_zero (b : Block) (k : Nat) (code : BitVec 2) : b.decideRsp k 0 code = b := by simp [Block.decideRsp]

/-- A station whose item leaves for its bank, with its write answered OK. -/
def Station.handedOver (s : Station) (i : Item) (e : Event) (a : EvaAttr) : Station :=
  { s with
    outq := s.outq.upd [] (evBank e) (· ++ [({ i with pevent := e }, a)])
    rsps := if i.tok = 0 then s.rsps
      else modifyFirst (fun r => r.tok == i.tok && r.code.isNone) (fun r => { r with code := some 0 }) s.rsps }

/-- An item that owes no response, for the bank of its own event. -/
theorem Station.handedOver_of_no_response {i : Item} (h : i.tok = 0) (s : Station) (a : EvaAttr) :
    s.handedOver i i.pevent a = { s with outq := s.outq.upd [] (evBank i.pevent) (· ++ [(i, a)]) } := by
  rw [Station.handedOver, if_pos h]

theorem Block.handOver_eq (b : Block) (k : Nat) (i : Item) (e : Event) (a : EvaAttr) :
    b.handOver k i e a = b.setStation k ((b.station k).handedOver i e a) := by
  by_cases h : i.tok = 0
  · simp only [Block.handOver, h, Block.decideRsp_zero, Station.handedOver, if_true]
  · simp only [Block.handOver, Block.decideRsp, h, if_false, Block.station_setStation, Block.setStation_setStation, Station.handedOver]

/-- An item that is looked up enters, when the output queue to its bank has room. -/
theorem Block.settleLook_enter {b : Block} {k : Nat} {e : Event} (h : ((b.station k).out (evBank e)).length < 16) (i : Item)
    (holds : Bool) (a : EvaAttr) : b.settleLook k i holds (.enter e a) = some ((b.handOver k i e a).pmuEv 0x03 k) := by
  simp only [Block.settleLook, if_neg (Nat.not_le_of_lt h)]

section Basic

variable {b : Block} {k : Nat} {m : BasicImg} (hon : b.lanesOn = true) (hm : b.act.basic = some m)
include hon hm

theorem effStationLookup_message {i : Item} {rest : List Item} (hres : (b.station k).resumedMsg = [])
    (hin : (b.station k).intake = i :: rest) (hbytes : i.bytes = []) (hkind : i.kind = .message) (hpage : i.page = 0)
    (hmsg : bit m.ctl 1 = true) (hrange : msgRange i.devevt = true) (hroom : ((b.station k).out (evBank i.devevt)).length < 16) :
    effStationLookup b k .message =
      (b.setStation k (({ b.station k with intake := rest } : Station).handedOver i i.devevt (basicMsg m i.devevt))).pmuEv 0x03 k := by
  have hclaim : b.claimReasm k i = some (b, i) := by simp [Block.claimReasm, hbytes]
  simp only [effStationLookup, hon, Bool.not_true, Bool.false_eq_true, if_false, lookMessage, hres, hin, hclaim]
  rw [look_of_basic (by simpa using hm), basicLook_message hkind hpage hmsg hrange]
  dsimp only
  rw [Block.settleLook_enter (by rw [Block.station_setStation]; exact hroom), Block.handOver_eq, Block.station_setStation,
    Block.setStation_setStation]

theorem effStationLookup_wired {i : Item} (hres : (b.station k).resumedWired = [])
    (hw : (b.station k).wired = some i) (hkind : i.kind = .wired) (htok : i.tok = 0) (hrange : wiredRange i.pevent = true)
    (hroom : ((b.station k).out (evBank i.pevent)).length < 16) :
    effStationLookup b k .wired = (b.setStation k { b.station k with
      wired := none
      outq := (b.station k).outq.upd [] (evBank i.pevent) (· ++ [(i, basicWired m i.pevent)]) }).pmuEv 0x03 k := by
  simp only [effStationLookup, hon, Bool.not_true, Bool.false_eq_true, if_false, lookWired, hres, hw]
  rw [look_of_basic (by simpa using hm), basicLook_wired hkind hrange]
  dsimp only
  rw [Block.settleLook_enter (by rw [Block.station_setStation]; exact hroom), Block.handOver_eq, Block.station_setStation,
    Block.setStation_setStation, Option.getD_some, Station.handedOver_of_no_response htok]

end Basic

/-! ### Answers to a station's reads (R99, R104, R138) -/

theorem Block.kickTrackers_of_no_wait {b : Block} (h : b.xl.trkWait = []) : b.kickTrackers = b := by
  have hhead : ∀ i, b.fillHead i = none := fun i => by simp [Block.fillHead, h]
  have helig : ∀ i, b.fillEligible i = false := fun i => by simp [Block.fillEligible, hhead i]
  simp [Block.kickTrackers, Block.grantFills, Block.pick, pickOldest_of_none _ helig]

theorem Block.kickTrackers_setStation {b : Block} (h : b.xl.trkWait = []) (k : Nat) (v : Station) :
    (b.setStation k v).kickTrackers = b.setStation k v :=
  Block.kickTrackers_of_no_wait h

/-- With the cache off nothing is installed (R99). -/
theorem cacheInstall_of_off {b : Block} {k : Nat} (h : b.regBit (pgSTN k) 0x040 0 = false) (key : CKey) (v : CVal) :
    cacheInstall b k key v = b := by
  simp [cacheInstall, h]

/-- Where nothing is parked, nothing goes back to its lane. -/
theorem Block.release_of_no_parked {b : Block} {k : Nat} (h : (b.station k).parked = []) (src : Source) :
    b.release k src = b.setStation k (b.station k) := by
  have hstn : { b.station k with parked := [], resumedMsg := (b.station k).resumedMsg, resumedWired := (b.station k).resumedWired } =
      b.station k := by rw [← h]
  simp [Block.release, h, hstn]

theorem Block.installFill_of_off {b : Block} {k : Nat} {p : Parked} (h : b.regBit (pgSTN k) 0x040 0 = false)
    (hkind : p.item.kind = .wired) (bytes : List Byte) : b.installFill k bytes p = b := by
  simp [Block.installFill, hkind, cacheInstall_of_off h]

/-- A wired event resumes with the attributes of its EVA entry (R104). -/
theorem Block.applyFill_wired {p : Parked} (hkind : p.item.kind = .wired) (htok : p.item.tok = 0) (b : Block) (k : Nat)
    (bytes : List Byte) : b.applyFill k bytes p = b.setStation k { b.station k with
      resumedWired := (b.station k).resumedWired ++
        [{ item := p.item, attr := some (evaOf (leBits 64 (bytes.take 8))).settle, holds := true }] } := by
  simp [Block.applyFill, hkind, htok, ownerStep, Block.decideRsp_zero]

section Answer

variable {b : Block} {k : Nat} {a : SegAddr} {f : Fill} {pa : BitVec 64} {dev sh : Bool} (haddr : f.addr = a)
  (hphase : f.phase = .issued pa dev sh) (hwait : b.xl.trkWait = [])
include haddr hphase hwait

/-- A fill with one wired event attached ends: the event leaves the miss buffer with its attributes. -/
theorem effFillResponse_wired {p : Parked} (hfills : (b.station k).fills = [f]) (hdead : f.dead = false)
    (hparked : (b.station k).parked = [p]) (hp : p.on = .fill a) (hkind : p.item.kind = .wired) (htok : p.item.tok = 0)
    (hoff : b.regBit (pgSTN k) 0x040 0 = false) (bytes : List Byte) :
    effFillResponse b k a (.ok bytes) = b.setStation k { b.station k with
      fills := []
      parked := []
      resumedWired := (b.station k).resumedWired ++
        [{ item := p.item, attr := some (evaOf (leBits 64 (bytes.take 8))).settle, holds := true }] } := by
  have hfound : ([f].find? fun f => f.addr == a && f.phase.isIssued) = some f := by simp [haddr, hphase, Phase.isIssued]
  have hoff' : (b.setStation k { b.station k with fills := [], parked := [] }).regBit (pgSTN k) 0x040 0 = false := hoff
  simp only [effFillResponse, hfills, hparked, hfound, hdead, Bool.false_eq_true, if_false]
  simp [hp, Block.installFill_of_off hoff' hkind, Block.applyFill_wired hkind htok, Block.release_of_no_parked,
    Block.kickTrackers_setStation hwait]

/-- The one refresh read of a station answers: its entries take the memory content, or go. -/
theorem effRefreshResponse_one (hrefs : (b.station k).refreshes = [f]) (hstale : f.stale = false) (r : MemResp) :
    effRefreshResponse b k a r = b.setStation k (cacheMap { b.station k with refreshes := [] } fun key v =>
      if keyAddr b.act key = a then (match r with
        | .ok bytes => refreshed bytes key
        | _ => none) else some v) := by
  have hfound : ([f].find? fun f => f.addr == a && f.phase.isIssued) = some f := by simp [haddr, hphase, Phase.isIssued]
  have herase : [f].erase f = [] := by simp
  simp only [effRefreshResponse, hrefs, hfound, hstale, Bool.false_eq_true, if_false, herase]
  cases r with
  | ok bytes =>
    simp only [Block.station_setStation, Block.setStation_setStation, Block.kickTrackers_setStation hwait]
    rfl
  | err | poison =>
    simp only [Block.uncache, Block.station_setStation, Block.setStation_setStation, Block.kickTrackers_setStation hwait]
    rfl

end Answer

/-- The sweep visits a set without a valid entry (R138). -/
theorem effRefreshSweep_of_empty {b : Block} {k : Nat} (hon : b.dpOn = true) (hdue : (b.station k).sweepGt.toNat + 3750 ≤ b.gt.toNat)
    (hempty : ((b.station k).sets.get {} (b.station k).sweepSet.toNat).ways.cells = []) :
    effRefreshSweep b k = b.setStation k { b.station k with sweepSet := (b.station k).sweepSet + 1, sweepGt := b.gt } := by
  have hvisits : (!b.dpOn || decide (b.gt.toNat < (b.station k).sweepGt.toNat + 3750)) = false := by
    simpa [hon] using hdue
  simp only [effRefreshSweep, hvisits, Bool.false_eq_true, if_false, hempty, List.map_nil, List.foldl_nil]

/-- Settles O10: looked-up items are handed over, and the answers to a station's reads act on what waits for them. -/
theorem stationLookupHandsOver : Obligations.StationLookupHandsOver := by
  unfold Obligations.StationLookupHandsOver
  refine ⟨fun s k m hon hm => ⟨fun i rest hres hin hbytes hkind hpage hmsg hrange hroom => ?_,
      fun i hres hre hw hkind htok hrange hroom => ?_⟩,
    fun s k a f pa dev sh p bytes hfills haddr hphase hdead hparked hp hkind htok hoff hwait => ?_,
    fun s k hon hdue hempty => ?_,
    fun s k a f pa dev sh r hrefs haddr hphase hstale hwait => ?_⟩
  · exact .of_effect rfl (effStationLookup_message hon hm hres hin hbytes hkind hpage hmsg hrange hroom) (Block.pmuEv_notes _ 0x03 k 1)
  · exact .of_effect rfl (effStationLookup_wired hon hm hres hw hkind htok hrange hroom) (Block.pmuEv_notes _ 0x03 k 1)
  · exact .of_effect rfl (effFillResponse_wired haddr hphase hwait hfills hdead hparked hp hkind htok hoff bytes)
  · exact .of_effect rfl (effRefreshSweep_of_empty hon hdue hempty)
  · exact .of_effect rfl (effRefreshResponse_one haddr hphase hwait hrefs hstale r)

end Sys2Proof.Machine

namespace Sys2Proof.Machine

/-! ### The port's answer and translations (R278, R286, R287) -/

/-- Flags are set before or after the port answers. -/
theorem Block.raise_answer (b : Block) (err : Bool) (v : BitVec 64) (pg : Nat) (m : BitVec 8) :
    (b.answer err v).raise pg m = (b.raise pg m).answer err v := by
  simp only [Block.raise, apply_ite (Block.answer · err v), ← Block.even_answer]
  rfl

theorem Block.pmuWrap_answer (b : Block) (err : Bool) (v : BitVec 64) (fixed : Bool) (i : Nat) :
    (b.answer err v).pmuWrap fixed i = (b.pmuWrap fixed i).answer err v := by
  have hend : ∀ c : Block, (if bit (c.reg pgPMU 0x040) 2
        then (((c.answer err v).setReg pgPMU 0x040 (c.reg pgPMU 0x040 &&& ~~~3)).raise pgPMU 3) else (c.answer err v).flag pgPMU 0) =
      (if bit (c.reg pgPMU 0x040) 2
        then ((c.setReg pgPMU 0x040 (c.reg pgPMU 0x040 &&& ~~~3)).raise pgPMU 3) else c.flag pgPMU 0).answer err v := fun c => by
    rw [apply_ite (Block.answer · err v), ← Block.raise_answer, ← Block.flag_answer]
    rfl
  unfold Block.pmuWrap
  split
  · exact hend (b.setReg pgPMU 0x054 _)
  · split
    · exact hend (b.setReg pgPMU 0x04C _)
    · exact hend (b.setReg pgPMU 0x050 _)

theorem Block.pmuOne_answer (ev : BitVec 8) (unit n : Nat) (b : Block) (err : Bool) (v : BitVec 64) (i : Nat) :
    Block.pmuOne ev unit n (b.answer err v) i = (Block.pmuOne ev unit n b i).answer err v := by
  have hbump : ∀ lo, (b.answer err v).pmuBump lo n = ((b.pmuBump lo n).1.answer err v, (b.pmuBump lo n).2) := fun _ => rfl
  simp only [Block.pmuOne, hbump, Block.pmuWrap_answer, apply_ite (Block.answer · err v)]
  rfl

theorem Block.pmuEv_answer (b : Block) (err : Bool) (v : BitVec 64) (ev : BitVec 8) (unit n : Nat) :
    (b.answer err v).pmuEv ev unit n = (b.pmuEv ev unit n).answer err v := by
  simp only [Block.pmuEv, apply_ite (Block.answer · err v)]
  rw [← List.foldl_hom (Block.answer · err v) fun c i => Block.pmuOne_answer ev unit n c err v i]
  rfl

theorem Block.xReport_answer (b : Block) (err : Bool) (v : BitVec 64) (q : XReq) (cause : BitVec 4) (level : BitVec 3) :
    (b.answer err v).xReport q cause level = (b.xReport q cause level).answer err v := by
  simp only [Block.xReport, apply_ite (Block.answer · err v), ← Block.flag_answer]
  rfl

theorem xHit_answer (b : Block) (err : Bool) (v : BitVec 64) (q : XReq) (e : TlbEnt) (va : BitVec 48) :
    xHit (b.answer err v) q e va = ((xHit b q e va).1.answer err v, (xHit b q e va).2) := by
  unfold xHit
  split
  · rfl
  · rw [Block.xReport_answer]

/-- A translation before or after the port answers. -/
theorem xlate_answer (b : Block) (err : Bool) (v : BitVec 64) (q : XReq) :
    xlate (b.answer err v) q = ((xlate b q).1.answer err v, (xlate b q).2) := by
  have hmiss := Block.pmuEv_answer b err v 0x15 0 1
  unfold xlate
  dsimp only
  rw [show (b.answer err v).segm q.seg = b.segm q.seg from rfl]
  cases segCheck (b.segm q.seg) q.off with
  | some c => exact Prod.ext (Block.xReport_answer b err v q c 0) rfl
  | none =>
    dsimp only
    rw [show (b.answer err v).xl = b.xl from rfl]
    split
    · exact xHit_answer { b with xl := { b.xl with tlb := _ } } err v q _ _
    · rw [hmiss, show walkOf ((b.pmuEv 0x15 0).answer err v) = walkOf (b.pmuEv 0x15 0) from rfl]
      split <;> rfl

theorem beginWalk_answer (b : Block) (err : Bool) (v : BitVec 64) (w : Nat) (q : XReq) (more : List XReq) :
    beginWalk (b.answer err v) w q more = (beginWalk b w q more).answer err v := by
  unfold beginWalk
  rw [← Block.pmuEv_answer]
  rfl

/-- A prefetch before or after the port answers. -/
theorem prefetch_answer (b : Block) (err : Bool) (v : BitVec 64) (seg : BitVec 6) (off : BitVec 64) :
    prefetch (b.answer err v) seg off = (prefetch b seg off).answer err v := by
  simp only [prefetch, apply_ite (Block.answer · err v), beginWalk_answer]
  rw [show freeWalker (b.answer err v) = freeWalker b from rfl]
  cases freeWalker b with
  | none => rfl
  | some w =>
    dsimp only
    rw [show ∀ c : Block, ((c.answer err v).cnt pgXU 0x0CC).xl = (c.cnt pgXU 0x0CC).xl from fun _ => rfl]
    cases Map.find? ((beginWalk b w { seg, off, op := 3, cont := .prefetch } []).cnt pgXU 0x0CC).xl.walkers w with
    | none => rfl
    | some x =>
      dsimp only
      rw [apply_ite (Block.answer · err v)]
      rfl

/-! ### What a translation changes -/

/-- One block is another but for the translation unit and what it has counted and reported. -/
def Block.Translates (b r : Block) : Prop := Block.Notes [pgXU, pgPMU, pgRM] { b with xl := r.xl } r

theorem Block.Translates.refl (b : Block) : Block.Translates b b := Block.Notes.refl _ _

theorem Block.Translates.trans {a b c : Block} (h : Block.Translates a b) (k : Block.Translates b c) : Block.Translates a c :=
  Block.Notes.trans (h.map (fun x => { x with xl := c.xl }) (fun _ _ _ _ _ => rfl) fun _ => ⟨rfl, rfl⟩) k

/-- The translation unit alone changes. -/
theorem Block.Translates.of_xl (b : Block) (x : Xlate) : Block.Translates b { b with xl := x } := Block.Notes.refl _ _

theorem Block.Translates.of_notes {pgs : List Nat} {b r : Block} (h : Block.Notes pgs b r) (hxl : r.xl = b.xl)
    (hs : pgs ⊆ [pgXU, pgPMU, pgRM]) : Block.Translates b r := by
  unfold Block.Translates
  rw [hxl]
  exact h.of hs

theorem Block.Translates.pmuEv (b : Block) (ev : BitVec 8) (unit n : Nat) : Block.Translates b (b.pmuEv ev unit n) :=
  .of_notes (Block.pmuEv_notes b ev unit n) (Block.pmuEv_xl b ev unit n) (by simp)

theorem Block.Translates.cnt (b : Block) {off : Nat} (n : Nat) (h : off < 4096) : Block.Translates b (b.cnt pgXU off n) :=
  .of_notes (Block.cnt_notes b pgXU off n h) rfl (by simp)

theorem Block.Translates.xReport (b : Block) (q : XReq) (cause : BitVec 4) (level : BitVec 3) :
    Block.Translates b (b.xReport q cause level) := by
  unfold Block.xReport
  dsimp only
  split
  · exact .of_xl b _
  · exact (Block.Translates.cnt b 1 (by decide)).trans (.of_notes (Block.flag_notes _ pgXU 1) (Block.flag_xl _ pgXU 1) (by simp))

theorem Block.Translates.xlate (b : Block) (q : XReq) : Block.Translates b (xlate b q).1 := by
  unfold Machine.xlate
  dsimp only
  split
  · exact .xReport b q _ 0
  · split
    · unfold xHit
      split
      · exact .of_xl b _
      · exact (Block.Translates.of_xl b _).trans (.xReport _ q 4 1)
    · split <;> exact (Block.Translates.pmuEv b 0x15 0 1).trans (.of_xl _ _)

theorem Block.Translates.beginWalk (b : Block) (w : Nat) (q : XReq) (more : List XReq) :
    Block.Translates b (beginWalk b w q more) :=
  ((Block.Translates.of_xl b _).trans (.cnt _ 1 (by decide))).trans (.pmuEv _ 0x16 0 1)

theorem Block.Translates.prefetch (b : Block) (seg : BitVec 6) (off : BitVec 64) : Block.Translates b (prefetch b seg off) := by
  unfold Machine.prefetch
  dsimp only
  split
  · exact .refl b
  · split
    · exact .refl b
    · split
      · exact .refl b
      · split
        · exact .refl b
        · next w _ =>
          have hwalk := (Block.Translates.beginWalk b w { seg, off, op := 3, cont := .prefetch } []).trans
            (.cnt _ 1 (show 0x0CC < 4096 by decide))
          split
          · split
            · exact hwalk.trans (.of_xl _ _)
            · exact hwalk
          · exact hwalk

section Translates

variable {b r : Block} (h : Block.Translates b r)
include h

theorem Block.Translates.last : r.last = b.last := by rw [h.rest]
theorem Block.Translates.queue : r.fab.q = b.fab.q := by rw [h.rest]
theorem Block.Translates.onDuty : r.rm.onDuty = b.rm.onDuty := by
  rw [h.rest]
  rfl

end Translates

end Sys2Proof.Machine

namespace Sys2Proof.Machine

/-! ### What the Last's steps leave of the port -/

theorem Block.setInactive_queue (b : Block) (k : Bank) (st : Inactive) : (b.setInactive k st).fab.q = b.fab.q := by
  simp only [Block.setInactive]
  split <;> rfl

theorem Block.setInactive_answer (b : Block) (err : Bool) (v : BitVec 64) (k : Bank) (st : Inactive) :
    (b.answer err v).setInactive k st = (b.setInactive k st).answer err v := by
  simp only [Block.setInactive, apply_ite (Block.answer · err v)]
  rfl

theorem Block.orphan_queue (b : Block) (c : Cont) (p : Phase) (t : Tag) : (b.orphan c p t).fab.q = b.fab.q := by
  simp only [Block.orphan]
  split <;> rfl

theorem Block.orphan_answer (b : Block) (err : Bool) (v : BitVec 64) (c : Cont) (p : Phase) (t : Tag) :
    (b.answer err v).orphan c p t = (b.orphan c p t).answer err v := by
  have hout : (b.answer err v).linesOut c p = b.linesOut c p := by cases p <;> cases c <;> rfl
  simp only [Block.orphan, hout, apply_ite (Block.answer · err v)]
  rfl

theorem Block.loadErr_queue (b : Block) (e : ImgErr) : (b.loadErr e).fab.q = b.fab.q := by
  unfold Block.loadErr
  dsimp only
  rw [Block.flag_queue]
  split
  · exact Block.orphan_queue b _ _ _
  · rfl

/-- A load ends in failure before or after the port answers. -/
theorem Block.loadErr_answer (b : Block) (err : Bool) (v : BitVec 64) (e : ImgErr) :
    (b.answer err v).loadErr e = (b.loadErr e).answer err v := by
  unfold Block.loadErr
  dsimp only
  rw [← Block.flag_answer, show (b.answer err v).last = b.last from rfl]
  cases b.last.load.phase with
  | none => rfl
  | some ph =>
    dsimp only
    rw [Block.orphan_answer]
    rfl

@[simp] theorem Block.loadErr_activity (b : Block) (e : ImgErr) : (b.loadErr e).last.activity = .idle := by
  unfold Block.loadErr
  rw [Block.flag_last]

@[simp] theorem Block.loadErr_data (b : Block) (e : ImgErr) : (b.loadErr e).last.load.data = none := by
  unfold Block.loadErr
  rw [Block.flag_last]

end Sys2Proof.Machine

namespace Sys2Proof.Machine

/-! ### Reads that start (R35) -/

@[simp] theorem prefetch_last (b : Block) (seg : BitVec 6) (off : BitVec 64) : (prefetch b seg off).last = b.last :=
  (Block.Translates.prefetch b seg off).last

@[simp] theorem prefetch_queue (b : Block) (seg : BitVec 6) (off : BitVec 64) : (prefetch b seg off).fab.q = b.fab.q :=
  (Block.Translates.prefetch b seg off).queue

/-- Trackers for a read are taken from the shared ones and the translation unit's list of waiting reads. -/
theorem gotAddr_fst (b : Block) (n : Nat) (c : Cont) (pa : BitVec 64) (dev : Bool) :
    ∃ k x, (gotAddr b n c pa dev).1 = { b with otherFills := k, xl := x } := by
  unfold gotAddr
  dsimp only
  split
  · exact ⟨_, _, rfl⟩
  · exact ⟨_, _, rfl⟩

/-- The start of a read translates its address and may take trackers. -/
theorem startRead_fst (b : Block) (n : Nat) (q : XReq) :
    ∃ k x, (startRead b n q).1 = { (xlate b q).1 with otherFills := k, xl := x } := by
  unfold startRead
  split
  · next c pa dev h => exact h ▸ gotAddr_fst c n q.cont pa dev
  · next h => exact h ▸ ⟨_, _, rfl⟩
  · next h => exact h ▸ ⟨_, _, rfl⟩

@[simp] theorem startRead_last (b : Block) (n : Nat) (q : XReq) : (startRead b n q).1.last = b.last := by
  obtain ⟨k, x, h⟩ := startRead_fst b n q
  rw [h]
  exact (Block.Translates.xlate b q).last

@[simp] theorem startRead_queue (b : Block) (n : Nat) (q : XReq) : (startRead b n q).1.fab.q = b.fab.q := by
  obtain ⟨k, x, h⟩ := startRead_fst b n q
  rw [h]
  exact (Block.Translates.xlate b q).queue

/-! ### The loader asks for its lines (R127) -/

theorem Block.loadStop_queue (b : Block) (line : Nat) : (b.loadStop line).fab.q = b.fab.q := by
  unfold Block.loadStop
  split
  · exact Block.loadErr_queue b _
  · rw [Block.loadErr_queue, Block.setInactive_queue]

@[simp] theorem Block.loadStop_data (b : Block) (line : Nat) : (b.loadStop line).last.load.data = none := by
  unfold Block.loadStop
  split <;> simp

/-- The offset of the line that the pass reads next. -/
def Block.loadOff (b : Block) : BitVec 64 := b.last.load.addr.off + BitVec.ofNat 64 (64 * b.loadLine b.last.load.pos)

/-- The lines that the pass asks for at once. -/
def Block.loadWindow (b : Block) : Nat :=
  min 32 (min (if b.last.activity = .pass1 then b.loadLines - b.last.load.pos else runOf2 b.loadImg.onDie b.last.load.pos)
    (64 - b.loadOff.toNat / 64 % 64))

/-- The translation of the lines that the pass asks for. -/
def Block.loadReq (b : Block) : XReq := { seg := b.last.load.addr.seg, off := b.loadOff, op := opLoad, cont := .loader }

/-- The block that asks for them: the walk of the image's next page starts at a page's first line (R287). -/
def Block.loadAsks (b : Block) : Block :=
  let next := (b.loadOff >>> 12 <<< 12) + 4096
  let c := { b with last := { b.last with load := { b.last.load with window := b.loadWindow } } }
  if (b.loadOff.toNat % 4096 = 0 || b.loadLine b.last.load.pos = 0) &&
      (b.loadLine b.last.load.pos = 0 || decide ((next - b.last.load.addr.off).toNat < c.loadImg.total))
  then prefetch c b.last.load.addr.seg next else c

theorem Block.loadNext_of_asked {b c : Block} {ph : Phase} (h : startRead b.loadAsks b.loadWindow b.loadReq = (c, .inl ph)) :
    b.loadNext = { c with last := { c.last with load := { c.last.load with phase := some ph } } } := by
  unfold Block.loadAsks Block.loadWindow Block.loadReq Block.loadOff at h
  unfold Block.loadNext
  dsimp only at h ⊢
  rw [h]

theorem Block.loadNext_of_fault {b c : Block} {f : BitVec 4 × BitVec 3}
    (h : startRead b.loadAsks b.loadWindow b.loadReq = (c, .inr f)) : b.loadNext = c.loadStop (b.loadLine b.last.load.pos) := by
  unfold Block.loadAsks Block.loadWindow Block.loadReq Block.loadOff at h
  unfold Block.loadNext
  dsimp only at h ⊢
  rw [h]

@[simp] theorem Block.loadAsks_last (b : Block) :
    b.loadAsks.last = { b.last with load := { b.last.load with window := b.loadWindow } } := by
  unfold Block.loadAsks
  dsimp only
  split
  · rw [prefetch_last]
  · rfl

@[simp] theorem Block.loadAsks_queue (b : Block) : b.loadAsks.fab.q = b.fab.q := by
  unfold Block.loadAsks
  dsimp only
  split
  · rw [prefetch_queue]
  · rfl

/-- The next lines are asked for, or the pass ends at a fault. -/
theorem Block.loadNext_cases (b : Block) : ∃ c : Block, c.last.load.data = b.last.load.data ∧ c.fab.q = b.fab.q ∧
    ((∃ ph, b.loadNext = { c with last := { c.last with load := { c.last.load with phase := some ph } } }) ∨
      ∃ line, b.loadNext = c.loadStop line) := by
  refine ⟨(startRead b.loadAsks b.loadWindow b.loadReq).1, by simp, by simp, ?_⟩
  cases h : startRead b.loadAsks b.loadWindow b.loadReq with
  | mk c r => cases r with
    | inl ph => exact .inl ⟨ph, Block.loadNext_of_asked h⟩
    | inr f => exact .inr ⟨_, Block.loadNext_of_fault h⟩

theorem Block.loadNext_queue (b : Block) : b.loadNext.fab.q = b.fab.q := by
  obtain ⟨c, -, hq, ⟨ph, h⟩ | ⟨line, h⟩⟩ := Block.loadNext_cases b
  · rw [h]
    exact hq
  · rw [h, Block.loadStop_queue, hq]

theorem Block.loadNext_data {b : Block} (h : b.last.load.data = none) : b.loadNext.last.load.data = none := by
  obtain ⟨c, hd, -, ⟨ph, hn⟩ | ⟨line, hn⟩⟩ := Block.loadNext_cases b
  · rw [hn]
    exact hd.trans h
  · rw [hn]
    exact Block.loadStop_data c line

@[simp] theorem Block.loadPass_data (b : Block) (a : Activity) (l : Load) : (b.loadPass a l).last.load.data = none :=
  Block.loadNext_data rfl

theorem Block.loadPass_queue (b : Block) (a : Activity) (l : Load) : (b.loadPass a l).fab.q = b.fab.q := Block.loadNext_queue _

/-! ### The commands of the image state machine (R128) -/

theorem Block.lastAbort_queue (b : Block) : b.lastAbort.fab.q = b.fab.q := by
  unfold Block.lastAbort
  split
  · exact Block.loadErr_queue b _
  · rw [Block.loadErr_queue, Block.setInactive_queue]
  · rfl

theorem Block.lastCmd_queue (b : Block) (op : Nat) (rm : Bool) : (b.lastCmd op rm).fab.q = b.fab.q := by
  unfold Block.lastCmd
  split
  · exact Block.flag_queue _ pgLAST 3
  · dsimp only
    split
    · split
      · rw [Block.loadErr_queue, Block.loadPass_queue]
      · exact Block.loadPass_queue b _ _
    · rfl
    · rfl
    · exact Block.lastAbort_queue b
    · exact Block.setInactive_queue _ _ _

theorem Block.applyLast_queue (b : Block) (off : Nat) (v : Word) : (b.applyLast off v).fab.q = b.fab.q := by
  unfold Block.applyLast
  split
  · exact Block.lastCmd_queue b _ false
  · rfl
  · split <;> rfl
  · rfl

/-! ### Writes of the Last's page -/

theorem pgClass_last : pgClass pgLAST = some .last := rfl

/-- No unit of the Last's page is gated. -/
theorem Block.opened_last (b : Block) (off : Nat) : b.opened pgLAST off = b.relock pgLAST := by
  rw [Block.opened, Block.regAsk_of_plain pgClass_last rfl, Block.turn_none]
  rfl

theorem Block.wrote_last (b : Block) (off : Nat) (w : RegAcc) : b.wrote pgLAST off w = (b.relock pgLAST).answer false 0 := by
  rw [Block.wrote_of_plain pgClass_last rfl, Block.opened_last]

/-- A write of the base part of the Last's page that meets no obstacle. -/
theorem Puts.of_writes_last {s : State} {i : Instr} {off : Nat} {w : RegAcc} {r : Block} (ha : w.als = .base)
    (e : exec i s = .next { s with blk := s.blk.regCmd pgLAST off w }) (hoff : off < 0x1000) (h4 : off % 4 = 0)
    (h : s.blk.writes pgLAST off w = true)
    (hr : ((s.blk.relock pgLAST).applyLast off (storedVal .last off (w.data &&& ((defOf .last off).rw ||| (defOf .last off).wo)))).answer
      false 0 = r) : Puts s i r := by
  refine .of_writes pgClass_last rfl e hoff h4 h (fun b => Block.applyLast_queue b off _) ?_
  rw [Block.opened_last, Block.wval_base _ _ _ _ _ pgClass_last ha]
  exact hr

theorem defOf_last_cmd : defOf .last 0x040 = { wo := 7, key := true, atOnce := true } := by decide
theorem defOf_last_ref : defOf .last 0x074 = { rw := 0xFFFFFFFF, key := true, ctr := true } := by decide
theorem defOf_last_commit : defOf .last 0x07C = { wo := 1, key := true, atOnce := true } := by decide

/-- A field of which both the mask of a command code and the register name every bit is the code's. -/
theorem fld_blend_and_of_ones {w hi lo : Nat} {m k : BitVec w} (d v : BitVec w) (hm : fld m hi lo = BitVec.allOnes _)
    (hk : fld k hi lo = BitVec.allOnes _) : fld (blend m d v &&& k) hi lo = fld v hi lo := by
  rw [← fld_blend_of_ones d v hm]
  unfold fld at hk ⊢
  rw [BitVec.extractLsb'_and, hk, BitVec.and_allOnes]

/-- A write of LAST_CMD that meets no obstacle is the command of its code. -/
theorem Puts.of_writes_lastCmd {s : State} {i : Instr} {w : RegAcc} {op : Word} {r : Block} (ha : w.als = .base)
    (e : exec i s = .next { s with blk := s.blk.regCmd pgLAST 0x040 (withOp w 7 op) })
    (h : s.blk.writes pgLAST 0x040 (withOp w 7 op) = true)
    (hr : ((s.blk.relock pgLAST).lastCmd (fld op 2 0).toNat false).answer false 0 = r) : Puts s i r := by
  refine .of_writes_last (w := withOp w 7 op) ha e (by decide) (by decide) h ?_
  rw [defOf_last_cmd]
  simp only [storedVal, Block.applyLast, withOp, fld_blend_and_of_ones w.data op (show fld (7 : Word) 2 0 = _ by decide)
    (show fld ((0 : Word) ||| 7) 2 0 = _ by decide)]
  exact hr

end Sys2Proof.Machine

namespace Sys2Proof.Machine

/-! ### Refusals of LAST_CMD (R128, Table 4-8) -/

/-- A load or a build is in progress. -/
abbrev Last.loading (l : Last) : Prop := l.activity = .pass1 ∨ l.activity = .pass2

/-- A switch is pending. -/
abbrev Last.pending (l : Last) : Prop := l.activity = .commitPend ∨ l.activity = .rollbackPend

/-- A code of LAST_CMD that stands for a command. -/
def IsLastOp (op : Nat) : Prop := op = 1 ∨ op = 2 ∨ op = 3 ∨ op = 4 ∨ op = 5

/-- LOAD in basic level, BUILD in expert level. -/
def Block.levelBad (b : Block) (op : Nat) : Prop :=
  (op = 1 ∧ (b.hdr pgLAST).level = false) ∨ (op = 5 ∧ (b.hdr pgLAST).level = true)

/-- The codes 0, 6 and 7 are refused with BADOP. -/
theorem Block.lastRefusal_of_badop {b : Block} {op : Nat} (h : op = 0 ∨ 5 < op) : b.lastRefusal op = some 7 := by
  simp only [Block.lastRefusal, h, if_true]

section Refusal

variable {b : Block} {op : Nat} (hop : IsLastOp op)
include hop

theorem Block.lastRefusal_of_level (h : b.levelBad op) : b.lastRefusal op = some 5 := by
  have hcode : ¬ (op = 0 ∨ 5 < op) := by
    unfold IsLastOp at hop
    omega
  have hlevel : ((op = 1 && !(b.hdr pgLAST).level) || (op = 5 && (b.hdr pgLAST).level)) = true := by
    simpa [Block.levelBad] using h
  simp only [Block.lastRefusal, hcode, hlevel, if_true, if_false]

variable (hlevel : ¬ b.levelBad op)
include hlevel

/-- What follows the checks of code and level. -/
theorem Block.lastRefusal_of_code : b.lastRefusal op =
    if op ≠ 4 ∧ b.last.loading ∨ op = 5 ∧ b.rmBusy = true then some 1
    else if op ≠ 4 ∧ b.last.pending then some 2
    else if op = 2 ∧ b.last.inactive ≠ .staged then some 3
    else if op = 3 ∧ b.last.inactive ≠ .previous then some 4
    else if op = 4 ∧ (b.last.activity = .idle ∨ b.last.paused = true) then some 6
    else none := by
  have hcode : ¬ (op = 0 ∨ 5 < op) := by
    unfold IsLastOp at hop
    omega
  have hlevel' : ¬ ((op = 1 && !(b.hdr pgLAST).level) || (op = 5 && (b.hdr pgLAST).level)) = true := by
    simpa [Block.levelBad] using hlevel
  simp only [Block.lastRefusal, hcode, hlevel', if_false, Bool.false_eq_true, Bool.or_eq_true, Bool.and_eq_true,
    bne_iff_ne, beq_iff_eq, decide_eq_true_eq]

/-- While a switch is pending, everything but ABORT is refused. -/
theorem Block.lastRefusal_of_pending (h4 : op ≠ 4) (h : b.last.pending) (hbusy : op = 5 → b.rmBusy = false) :
    b.lastRefusal op = some 2 := by
  have hload : ¬ b.last.loading := by rcases h with h | h <;> simp [Last.loading, h]
  have hrm : ¬ (op = 5 ∧ b.rmBusy = true) := fun ⟨h5, hb⟩ => by simp [hbusy h5] at hb
  simp only [Block.lastRefusal_of_code hop hlevel, hload, hrm, h4, h, and_true, and_false, or_self, if_false, ne_eq,
    not_false_eq_true, if_true]

/-- In IDLE the refusals are those of the inactive bank's state, and of an ABORT of nothing. -/
theorem Block.lastRefusal_of_idle (h : b.last.activity = .idle) (hbusy : op = 5 → b.rmBusy = false) : b.lastRefusal op =
    if op = 2 ∧ b.last.inactive ≠ .staged then some 3
    else if op = 3 ∧ b.last.inactive ≠ .previous then some 4
    else if op = 4 then some 6 else none := by
  have hload : ¬ b.last.loading := by simp [Last.loading, h]
  have hpend : ¬ b.last.pending := by simp [Last.pending, h]
  have hrm : ¬ (op = 5 ∧ b.rmBusy = true) := fun ⟨h5, hb⟩ => by simp [hbusy h5] at hb
  simp only [Block.lastRefusal_of_code hop hlevel, hload, hpend, hrm, h, and_false, or_self, if_false, true_or, and_true]

end Refusal

/-- ABORT finds nothing to end in IDLE and from cycle B on. -/
theorem Block.lastRefusal_abort (b : Block) :
    b.lastRefusal 4 = if b.last.activity = .idle ∨ b.last.paused = true then some 6 else none := by
  rw [Block.lastRefusal_of_code (.inr (.inr (.inr (.inl rfl)))) (by simp [Block.levelBad])]
  simp

/-- The refusals of Table 4-8, by what causes each. -/
theorem Block.lastRefusal_of_cause {b : Block} {op : Nat} {e : BitVec 3} (hop : IsLastOp op)
    (h : (e = 5 ∧ b.levelBad op) ∨ (e = 1 ∧ op ≠ 4 ∧ ¬ b.levelBad op ∧ (b.last.loading ∨ (op = 5 ∧ b.rmBusy = true))) ∨
      (e = 2 ∧ op ≠ 4 ∧ ¬ b.levelBad op ∧ b.last.pending ∧ (op = 5 → b.rmBusy = false)) ∨
      (e = 3 ∧ op = 2 ∧ b.last.activity = .idle ∧ b.last.inactive ≠ .staged) ∨
      (e = 4 ∧ op = 3 ∧ b.last.activity = .idle ∧ b.last.inactive ≠ .previous) ∨
      (e = 6 ∧ op = 4 ∧ (b.last.activity = .idle ∨ b.last.paused = true))) : b.lastRefusal op = some e := by
  rcases h with ⟨rfl, h⟩ | ⟨rfl, h4, hlevel, h⟩ | ⟨rfl, h4, hlevel, h, hbusy⟩ |
    ⟨rfl, rfl, hidle, h⟩ | ⟨rfl, rfl, hidle, h⟩ | ⟨rfl, rfl, h⟩
  · exact Block.lastRefusal_of_level hop h
  · rw [Block.lastRefusal_of_code hop hlevel, if_pos (h.imp_left (And.intro h4))]
  · exact Block.lastRefusal_of_pending hop hlevel h4 h hbusy
  · rw [Block.lastRefusal_of_idle hop (by simp [Block.levelBad]) hidle (by simp), if_pos ⟨rfl, h⟩]
  · rw [Block.lastRefusal_of_idle hop (by simp [Block.levelBad]) hidle (by simp), if_neg (by simp), if_pos ⟨rfl, h⟩]
  · rw [Block.lastRefusal_abort, if_pos h]

/-- Locking the page again changes no refusal. -/
theorem Block.lastRefusal_relock (b : Block) (op : Nat) : (b.relock pgLAST).lastRefusal op = b.lastRefusal op := by
  have hlevel : ((b.relock pgLAST).hdr pgLAST).level = (b.hdr pgLAST).level := by rw [Block.relock, Block.hdr_setHdr]
  simp only [Block.lastRefusal, hlevel]
  rfl

theorem Block.lastCmd_of_refused {b : Block} {op : Nat} {e : BitVec 3} (h : b.lastRefusal op = some e) (rm : Bool) :
    b.lastCmd op rm = { b with last := { b.last with cmdErr := e } }.flag pgLAST 3 := by
  simp only [Block.lastCmd, h]

/-! ### Commands that are accepted -/

/-- The image that LAST_SEG and LAST_ADDR name. -/
def Block.loadAddr (b : Block) : SegAddr :=
  { seg := b.regFld pgLAST 0x044 5 0, off := b.reg pgLAST 0x04C ++ b.reg pgLAST 0x048 }

/-- The block in PASS1 before a line has been read. -/
def Block.inPass1 (b : Block) (l : Load) : Block := { b with last := { b.last with activity := .pass1, prog := 0, load := l } }

/-- A LOAD asks for the walk of the image's next page (R287). -/
def Block.loadBegins (b : Block) (a : SegAddr) : Block :=
  prefetch (b.inPass1 { addr := a, window := 1 }) a.seg ((a.off >>> 12 <<< 12) + 4096)

/-- The translation of the image's first line. -/
def firstLine (a : SegAddr) : XReq := { seg := a.seg, off := a.off, op := opLoad, cont := .loader }

/-- The first line has been asked for. -/
def Block.loadAsked (b : Block) (a : SegAddr) (ph : Phase) : Block :=
  { b with last := { b.last with load := { addr := a, window := 1, phase := some ph } } }

section FirstLine

variable (b : Block) (a : SegAddr)

theorem Block.loadLine_inPass1 (l : Load) (i : Nat) : (b.inPass1 l).loadLine i = i := by
  simp [Block.loadLine, Block.inPass1]

theorem Block.loadOff_inPass1 : (b.inPass1 { addr := a }).loadOff = a.off := by
  rw [Block.loadOff, Block.loadLine_inPass1]
  simp [Block.inPass1]

theorem Block.loadWindow_inPass1 : (b.inPass1 { addr := a }).loadWindow = 1 := by
  have hlines : (b.inPass1 { addr := a }).loadLines = 1 := by simp [Block.loadLines, Block.inPass1]
  rw [Block.loadWindow, hlines, if_pos (show (b.inPass1 { addr := a }).last.activity = .pass1 from rfl),
    show (b.inPass1 { addr := a }).last.load.pos = 0 from rfl]
  omega

theorem Block.loadReq_inPass1 : (b.inPass1 { addr := a }).loadReq = firstLine a := by
  rw [Block.loadReq, Block.loadOff_inPass1]
  rfl

theorem Block.loadAsks_inPass1 : (b.inPass1 { addr := a }).loadAsks = b.loadBegins a := by
  have hline : (b.inPass1 { addr := a }).loadLine (b.inPass1 { addr := a }).last.load.pos = 0 := Block.loadLine_inPass1 b _ 0
  simp only [Block.loadAsks, hline, Block.loadOff_inPass1, Block.loadWindow_inPass1, decide_true, Bool.or_true, Bool.true_or,
    Bool.and_true, if_true]
  rfl

/-- The first line's translation leaves the Last in PASS1 and the Ringmaster on duty. -/
theorem Block.firstLine_translates {c : Block} {res : XRes} (hx : xlate (b.loadBegins a) (firstLine a) = (c, res)) :
    Block.Translates (b.inPass1 { addr := a, window := 1 }) c := by
  have hfirst := Block.Translates.xlate (b.loadBegins a) (firstLine a)
  rw [hx] at hfirst
  exact (Block.Translates.prefetch _ _ _).trans hfirst

/-- The loader's first read is of one line. -/
theorem Block.startRead_inPass1 :
    startRead (b.inPass1 { addr := a }).loadAsks (b.inPass1 { addr := a }).loadWindow (b.inPass1 { addr := a }).loadReq =
      startRead (b.loadBegins a) 1 (firstLine a) := by
  rw [Block.loadAsks_inPass1, Block.loadWindow_inPass1, Block.loadReq_inPass1]

variable {b a}

theorem Block.loadAsked_of_load (h : b.last.load = { addr := a, window := 1 }) (ph : Phase) :
    { b with last := { b.last with load := { b.last.load with phase := some ph } } } = b.loadAsked a ph := by
  rw [Block.loadAsked, h]

end FirstLine

section Start

variable {b c : Block} {q : XReq}

/-- A translated read of one line with a tracker free is issued. -/
theorem startRead_of_ok {pa : BitVec 64} {dev : Bool} (hx : xlate b q = (c, .ok pa dev)) (h : sharedTrk c < 512) :
    startRead b 1 q = ({ c with otherFills := c.otherFills + 1 }, .inl (.issued pa dev true)) := by
  have hone : min 1 (512 - sharedTrk c) = 1 := by omega
  simp only [startRead, hx, gotAddr, hone, if_true, takeShared]

theorem startRead_of_wait (n : Nat) (hx : xlate b q = (c, .wait)) : startRead b n q = (c, .inl .walk) := by
  simp only [startRead, hx]

theorem startRead_of_fault (n : Nat) {e : BitVec 4} {l : BitVec 3} (hx : xlate b q = (c, .fault e l)) :
    startRead b n q = (c, .inr (e, l)) := by
  simp only [startRead, hx]

end Start

section Load

variable {b c : Block} (hok : b.lastRefusal 1 = none)
include hok

/-- A LOAD that is accepted on duty begins PASS1. -/
theorem Block.lastCmd_load (h : (b.inPass1 { addr := b.loadAddr }).loadNext = c)
    (hduty : c.last.activity = .pass1 → c.rm.onDuty = true) : b.lastCmd 1 false = c := by
  have hpass : b.loadPass .pass1 { addr := b.loadAddr, rm := false } = c := h
  have haborts : (c.last.activity == .pass1 && !c.rm.onDuty) = false := by
    cases hact : c.last.activity == .pass1 with
    | false => rfl
    | true => simp [hduty (eq_of_beq hact)]
  unfold Block.loadAddr at hpass
  simp only [Block.lastCmd, hok, Block.regFld] at hpass ⊢
  rw [hpass, haborts]
  rfl

variable (hduty : b.rm.onDuty = true)
include hduty

/-- The first line of a LOAD is read. -/
theorem Block.lastCmd_load_issued {pa : BitVec 64} {dev : Bool}
    (hx : xlate (b.loadBegins b.loadAddr) (firstLine b.loadAddr) = (c, .ok pa dev)) (htrk : sharedTrk c < 512) :
    b.lastCmd 1 false = { c with otherFills := c.otherFills + 1 }.loadAsked b.loadAddr (.issued pa dev true) := by
  have hc := Block.firstLine_translates b _ hx
  have hs := (Block.startRead_inPass1 b b.loadAddr).trans (startRead_of_ok hx htrk)
  exact Block.lastCmd_load hok ((Block.loadNext_of_asked hs).trans (Block.loadAsked_of_load
    (b := { c with otherFills := c.otherFills + 1 }) (congrArg Last.load hc.last) _))
    fun _ => hc.onDuty.trans hduty

/-- The first line of a LOAD waits for its walk. -/
theorem Block.lastCmd_load_walk (hx : xlate (b.loadBegins b.loadAddr) (firstLine b.loadAddr) = (c, .wait)) :
    b.lastCmd 1 false = c.loadAsked b.loadAddr .walk := by
  have hc := Block.firstLine_translates b _ hx
  have hs := (Block.startRead_inPass1 b b.loadAddr).trans (startRead_of_wait 1 hx)
  exact Block.lastCmd_load hok ((Block.loadNext_of_asked hs).trans (Block.loadAsked_of_load (congrArg Last.load hc.last) _))
    fun _ => hc.onDuty.trans hduty

omit hduty in
/-- The translation of the first line of a LOAD faults, and the pass ends. -/
theorem Block.lastCmd_load_fault {e : BitVec 4} {l : BitVec 3}
    (hx : xlate (b.loadBegins b.loadAddr) (firstLine b.loadAddr) = (c, .fault e l)) :
    b.lastCmd 1 false = c.loadErr { reason := 20, off := some 0 } := by
  have hc := Block.firstLine_translates b _ hx
  have hs := (Block.startRead_inPass1 b b.loadAddr).trans (startRead_of_fault 1 hx)
  have hstop : c.loadStop ((b.inPass1 { addr := b.loadAddr }).loadLine 0) = c.loadErr { reason := 20, off := some 0 } := by
    rw [Block.loadLine_inPass1, Block.loadStop, hc.last, if_pos (show (b.inPass1 _).last.activity = .pass1 from rfl)]
  exact Block.lastCmd_load hok ((Block.loadNext_of_fault hs).trans hstop) fun h => by simp at h

end Load

end Sys2Proof.Machine

namespace Sys2Proof.Machine

/-! ### LAST_CMD at the port -/

theorem Block.loadBegins_answer (b : Block) (err : Bool) (v : BitVec 64) (a : SegAddr) :
    (b.answer err v).loadBegins a = (b.loadBegins a).answer err v :=
  prefetch_answer (b.inPass1 { addr := a, window := 1 }) err v _ _

/-- The first line of a LOAD is translated as it is with the write answered. -/
theorem Block.firstLine_of_answer {b c : Block} {res : XRes} {err : Bool} {v : BitVec 64} {a : SegAddr}
    (h : xlate ((b.answer err v).loadBegins a) (firstLine a) = (c, res)) :
    xlate (b.loadBegins a) (firstLine a) = ((xlate (b.loadBegins a) (firstLine a)).1, res) ∧
      c = ((xlate (b.loadBegins a) (firstLine a)).1).answer err v := by
  rw [Block.loadBegins_answer, xlate_answer, Prod.mk.injEq] at h
  exact ⟨Prod.ext rfl h.2, h.1.symm⟩

/-- Of the codes in a command word, LASTBADOP writes one that stands for no command. -/
theorem undefOp_last (d : Word) : (fld (undefOp d 7 1 5) 2 0).toNat = 0 ∨ 5 < (fld (undefOp d 7 1 5) 2 0).toNat := by
  have hfld : (fld d 2 0).toNat = (d &&& 7).toNat := by
    have hmask : (fld d 2 0).toNat = d.toNat % 2 ^ 3 := by simp [fld]
    rw [hmask, BitVec.toNat_and, ← Nat.and_two_pow_sub_one_eq_mod]
    rfl
  unfold undefOp
  split
  · exact .inl (by decide)
  · rw [hfld]
    omega

/-- A refused command of LAST_CMD. -/
theorem Puts.of_refusedLastCmd {s : State} {i : Instr} {w : RegAcc} {op : Word} {e : BitVec 3} (ha : w.als = .base)
    (hi : exec i s = .next { s with blk := s.blk.regCmd pgLAST 0x040 (withOp w 7 op) })
    (h : s.blk.writes pgLAST 0x040 (withOp w 7 op) = true) (he : s.blk.lastRefusal (fld op 2 0).toNat = some e) :
    Puts s i ({ (s.blk.relock pgLAST).answer false 0 with last := { s.blk.last with cmdErr := e } }.flag pgLAST 3) := by
  refine .of_writes_lastCmd ha hi h ?_
  rw [Block.lastCmd_of_refused ((Block.lastRefusal_relock _ _).trans he), ← Block.flag_answer]
  rfl

/-- Settles O40: the refusals and the accepted commands are those of LAST_CMD's code, and the port's answer commutes with
each. -/
theorem imageCommandsFollowTheStateMachine : Obligations.ImageCommandsFollowTheStateMachine := by
  unfold Obligations.ImageCommandsFollowTheStateMachine
  intro s w ha l b expert loading pend cmd
  have hb : ∀ op, b op = (s.blk.relock pgLAST).answer false 0 := fun op => Block.wrote_last _ _ _
  have hrelock : ∀ op, (s.blk.relock pgLAST).lastRefusal op = s.blk.lastRefusal op := Block.lastRefusal_relock _
  have hlast : (s.blk.relock pgLAST).last = l := rfl
  have habort : l.paused = false → l.activity ≠ .idle → (s.blk.relock pgLAST).lastRefusal 4 = none := fun hrun hact => by
    rw [hrelock, Block.lastRefusal_abort, if_neg (not_or.2 ⟨hact, ne_true_of_eq_false hrun⟩)]
  refine ⟨fun h hidle hexp hduty b' res hx => ?_, fun h hidle hst => .of_writes_lastCmd ha rfl h ?_,
    fun h hidle hst => .of_writes_lastCmd ha rfl h ?_,
    fun h hrun => ⟨fun hact => .of_writes_lastCmd ha rfl h ?_, fun hact => .of_writes_lastCmd ha rfl h ?_,
      fun hact => .of_writes_lastCmd ha rfl h ?_⟩, fun h hidle hexp hbusy => .of_writes_lastCmd ha rfl h ?_,
    fun i op e hi h he => ?_, fun h => ?_⟩
  · have hok : (s.blk.relock pgLAST).lastRefusal 1 = none := by
      rw [hrelock, Block.lastRefusal_of_idle (.inl rfl) (by simp [Block.levelBad, show (s.blk.hdr pgLAST).level = true from hexp]) hidle (by simp)]
      simp
    rw [hb 1] at hx
    obtain ⟨hline, rfl⟩ := Block.firstLine_of_answer (b := s.blk.relock pgLAST) (a := (s.blk.relock pgLAST).loadAddr) hx
    cases res with
    | ok pa dev => exact fun htrk => .of_writes_lastCmd ha rfl h (by
        rw [show (fld (1 : Word) 2 0).toNat = 1 by decide, Block.lastCmd_load_issued hok hduty hline htrk]
        rfl)
    | wait => exact .of_writes_lastCmd ha rfl h (by
        rw [show (fld (1 : Word) 2 0).toNat = 1 by decide, Block.lastCmd_load_walk hok hduty hline]
        rfl)
    | fault e lv => exact .of_writes_lastCmd ha rfl h (by
        rw [show (fld (1 : Word) 2 0).toNat = 1 by decide, Block.lastCmd_load_fault hok hline, ← Block.loadErr_answer])
  · have hok : (s.blk.relock pgLAST).lastRefusal 2 = none := by
      rw [hrelock, Block.lastRefusal_of_idle (.inr (.inl rfl)) (by simp [Block.levelBad]) hidle (by simp)]
      simp [show s.blk.last.inactive = _ from hst]
    rw [hb, show (fld (2 : Word) 2 0).toNat = 2 by decide, Block.lastCmd, hok]
    rfl
  · have hok : (s.blk.relock pgLAST).lastRefusal 3 = none := by
      rw [hrelock, Block.lastRefusal_of_idle (.inr (.inr (.inl rfl))) (by simp [Block.levelBad]) hidle (by simp)]
      simp [show s.blk.last.inactive = _ from hst]
    rw [hb, show (fld (3 : Word) 2 0).toNat = 3 by decide, Block.lastCmd, hok]
    rfl
  · rw [hb, show (fld (4 : Word) 2 0).toNat = 4 by decide, Block.loadErr_answer, Block.lastCmd, habort hrun (by simp [hact])]
    simp only [Block.lastAbort, hlast, hact]
  · rw [hb, show (fld (4 : Word) 2 0).toNat = 4 by decide, Block.setInactive_answer, Block.loadErr_answer, Block.lastCmd,
      habort hrun (by simp [hact])]
    simp only [Block.lastAbort, hlast, hact]
  · have hbusy : l.activity ≠ .idle := by rcases hact with hact | hact <;> simp [hact]
    rw [hb, show (fld (4 : Word) 2 0).toNat = 4 by decide, Block.lastCmd, habort hrun hbusy]
    rcases hact with hact | hact <;>
    · simp only [Block.lastAbort, hlast, hact]
      rfl
  · have hok : (s.blk.relock pgLAST).lastRefusal 5 = none := by
      rw [hrelock, Block.lastRefusal_of_idle (.inr (.inr (.inr (.inr rfl))))
        (by simp [Block.levelBad, show (s.blk.hdr pgLAST).level = false from hexp]) hidle fun _ => hbusy]
      simp
    rw [hb, show (fld (5 : Word) 2 0).toNat = 5 by decide, Block.lastCmd, hok]
    exact congrArg Block.unverify (Block.setInactive_answer _ false 0 _ _).symm
  · have hexec : exec i s = .next { s with blk := s.blk.regCmd pgLAST 0x040 (withOp w 7 op) } := by
      rcases hi with ⟨rfl, rfl⟩ | ⟨rfl, rfl⟩ | ⟨rfl, rfl⟩ | ⟨rfl, rfl⟩ | ⟨rfl, rfl⟩ <;> rfl
    have hcode : (fld op 2 0).toNat = op.toNat := by
      rcases hi with ⟨rfl, -⟩ | ⟨rfl, -⟩ | ⟨rfl, -⟩ | ⟨rfl, -⟩ | ⟨rfl, -⟩ <;> decide
    have hop : IsLastOp op.toNat := by
      rcases hi with ⟨rfl, -⟩ | ⟨rfl, -⟩ | ⟨rfl, -⟩ | ⟨rfl, -⟩ | ⟨rfl, -⟩ <;> simp [IsLastOp]
    have hnat : ∀ k : Word, op = k ↔ op.toNat = k.toNat := fun k => BitVec.toNat_inj.symm
    simp only [ne_eq, hnat] at he
    show Puts s i ({ b op with last := { s.blk.last with cmdErr := e } }.flag pgLAST 3)
    rw [hb]
    refine .of_refusedLastCmd ha hexec h ?_
    rw [hcode]
    exact Block.lastRefusal_of_cause hop he
  · show Puts s (.lastBadop w) ({ b (undefOp w.data 7 1 5) with last := { s.blk.last with cmdErr := 7 } }.flag pgLAST 3)
    rw [hb]
    exact .of_refusedLastCmd ha rfl h (Block.lastRefusal_of_badop (undefOp_last w.data))

end Sys2Proof.Machine

namespace Sys2Proof.Machine

/-! ### The ends of the loader's passes (R127, R132) -/

/-- Memory's answer is at the loader. -/
def Block.loadGets (b : Block) (r : ImgRead) : Block :=
  { b with last := { b.last with load := { b.last.load with data := some r } } }

/-- The lines asked for have been read, n of the pass in all, and their trackers are free again. -/
def Block.loadRead (b : Block) (n : Nat) : Block :=
  { b with
    otherFills := b.otherFills - b.last.load.window
    last := { b.last with prog := BitVec.ofNat 32 n, load := { b.last.load with pos := n, phase := none } } }

/-- The loader rests when it has no data or asks for no lines. -/
theorem Block.loadRun_of_rest {b : Block} (h : b.last.load.data = none ∨ b.last.load.phase = none) (fuel : Nat) :
    b.loadRun fuel = b := by
  cases fuel with
  | zero => rfl
  | succ n =>
    rw [Block.loadRun]
    rcases h with h | h
    · rw [h]
    · rw [h]
      cases b.last.load.data <;> rfl

/-- Data that ends the pass is taken once. -/
theorem Block.loadData_of_issued {b c : Block} {r : ImgRead} {pa : BitVec 64} {dev sh : Bool}
    (hph : b.last.load.phase = some (.issued pa dev sh)) (ht : (b.loadGets (b.last.load.data.getD r)).loadTaken (b.last.load.data.getD r) = c)
    (hend : c.last.load.data = none ∨ c.last.load.phase = none) : b.loadData r = c := by
  unfold Block.loadData readFuel
  show (b.loadGets (b.last.load.data.getD r)).loadRun (((imgOf (b.last.load.data.getD r).bytes).total / 64 + 8191) + 1) = c
  have hphase : (b.loadGets (b.last.load.data.getD r)).last.load.phase = some (.issued pa dev sh) := hph
  rw [Block.loadRun, hphase, show (b.loadGets (b.last.load.data.getD r)).last.load.data = some (b.last.load.data.getD r) from rfl]
  simp only [Phase.isIssued, if_true, ht]
  exact Block.loadRun_of_rest hend _

section Taken

variable {b : Block} {r : ImgRead} (hw : b.xl.trkWait = [])
include hw

theorem Block.loadTaken_of_bad {n : Nat} (h : b.badLine r = some n) :
    b.loadTaken r = (b.loadRead (b.last.load.pos + (n - b.loadLine b.last.load.pos))).loadStop n := by
  rw [Block.loadTaken, Block.freeLines_of_no_wait hw, h]
  rfl

theorem Block.loadTaken_of_end (h : b.badLine r = none) (hend : b.loadLines ≤ b.last.load.pos + b.last.load.window) :
    b.loadTaken r = (b.loadRead (b.last.load.pos + b.last.load.window)).loadEnd r := by
  rw [Block.loadTaken, Block.freeLines_of_no_wait hw, h]
  exact if_pos hend

end Taken

/-- The loader keeps the bytes that pass 1 has read. -/
def Block.keepPass1 (b : Block) (r : ImgRead) : Block :=
  { b with last := { b.last with load := { b.last.load with pass1 := r.bytes } } }

theorem Block.keepPass1_inst (b : Block) (r : ImgRead) : (b.keepPass1 r).inst = b.inst := rfl

section End

variable {b : Block} {r : ImgRead}

/-- Pass 1 ends with its checks. -/
theorem Block.loadEnd_pass1 (h : b.last.activity = .pass1) : b.loadEnd r =
    match (imgOf r.bytes).check (b.keepPass1 r).inst none with
    | some e => (b.keepPass1 r).loadErr e
    | none => (((b.keepPass1 r).setInactive {} .empty).unverify).loadPass .pass2
        { (b.keepPass1 r).last.load with partCrc := (imgOf r.bytes).partCrc (imgOf r.bytes) } :=
  if_pos h

/-- Pass 1 ends with a check that fails. -/
theorem Block.loadEnd_of_check {e : ImgErr} (h1 : b.last.activity = .pass1) (h : (imgOf r.bytes).check b.inst none = some e) :
    b.loadEnd r = (b.keepPass1 r).loadErr e := by
  rw [Block.loadEnd_pass1 h1, Block.keepPass1_inst, h]

/-- Pass 1 ends well, and pass 2 begins. -/
theorem Block.loadEnd_of_passed (h1 : b.last.activity = .pass1) (h : (imgOf r.bytes).check b.inst none = none) :
    b.loadEnd r = (((b.keepPass1 r).setInactive {} .empty).unverify).loadPass .pass2
      { (b.keepPass1 r).last.load with partCrc := (imgOf r.bytes).partCrc (imgOf r.bytes) } := by
  rw [Block.loadEnd_pass1 h1, Block.keepPass1_inst, h]

/-- Pass 2 ends with the comparison of the CRCs. -/
theorem Block.loadEnd_pass2 (h : b.last.activity = .pass2) : b.loadEnd r =
    if (imgOf b.last.load.pass1).partCrc (imgOf r.bytes) ≠ b.last.load.partCrc then (b.setInactive {} .empty).loadErr { reason := 21 }
    else
      let c := b.setInactive ((imgOf b.last.load.pass1).bank b.last.load.addr (imgOf r.bytes)) .staged
      { c with last := { c.last with activity := .idle } }.flag pgLAST 0 :=
  if_neg (by simp [h])

end End

/-- LOAD_PASSn_DONE of the pass that is going on brings the data. -/
theorem loadPassDone_brings {s : State} {i : Instr} {r : ImgRead} (hno : s.blk.xl.orphans = [])
    (h : (s.blk.last.activity = .pass1 ∧ i = .loadPass1Done r ∧ s.blk.rmFrozen = false) ∨
      (s.blk.last.activity = .pass2 ∧ s.blk.last.load.build = false ∧ i = .loadPass2Done r)) : Makes s i (s.blk.loadData r) := by
  rcases h with ⟨hact, rfl, hrm⟩ | ⟨hact, hbuild, rfl⟩
  · refine .of_effect rfl (?_ : effLoadPass1Done s.blk r = _)
    simp [effLoadPass1Done, Block.orphanDone_of_no_orphans hno, hact, hrm]
  · refine .of_effect rfl (?_ : effLoadPass2Done s.blk r = _)
    simp [effLoadPass2Done, Block.orphanDone_of_no_orphans hno, hact, hbuild]

end Sys2Proof.Machine

namespace Sys2Proof.Machine

/-! ### What an image that passes holds (R132, Table 4-9) -/

theorem firstErr_concat_isSome (l : List (Nat × ImgErr)) (e : Nat × ImgErr) : (firstErr (l ++ [e])).isSome = true := by
  simp only [firstErr, List.foldl_append, List.foldl_cons, List.foldl_nil]
  split
  · rfl
  · split <;> rfl

/-- Of failures there is a first, unless there is none. -/
theorem firstErr_eq_none {l : List (Nat × ImgErr)} (h : firstErr l = none) : l = [] := by
  rcases List.eq_nil_or_concat l with hnil | ⟨l, e, rfl⟩
  · exact hnil
  · rw [List.concat_eq_append] at h
    exact absurd (firstErr_concat_isSome l e) (by simp [h])

/-- Of two checks in their order neither fails. -/
theorem orElse_none_iff {α : Type} {a c : Option α} : (a.orElse fun _ => c) = none ↔ a = none ∧ c = none := by
  cases a <;> simp

section Check

variable {g : Img} {inst : BitVec 16}

theorem Img.check_eq_none (h : g.check inst none = none) :
    g.headErr inst = none ∧ g.fieldErr = none ∧ BitVec.ofNat 32 (g.num 0x1C 4) = g.crc := by
  have hchecks : ((g.early inst).map Prod.snd).orElse (fun _ => g.crossErr.orElse fun _ =>
      if (BitVec.ofNat 32 (g.num 0x1C 4) : Word) = g.crc then none else some { reason := 19 }) = none := h
  obtain ⟨hearly, -, hcrc⟩ := (orElse_none_iff.1 hchecks).imp_right orElse_none_iff.1
  obtain ⟨hhead, -, hfield⟩ := (orElse_none_iff.1 (Option.map_eq_none_iff.1 hearly)).imp_right orElse_none_iff.1
  refine ⟨Option.map_eq_none_iff.1 hhead, Option.map_eq_none_iff.1 hfield, ?_⟩
  by_contra hne
  simp [hne] at hcrc

theorem Img.headErr_eq_none (h : g.headErr inst = none) :
    g.num 0 4 = 0x5453414C ∧ g.inst = inst ∧ g.num 0x24 2 ≤ 36864 ∧ 8 ≤ g.srcOrder ∧ g.srcOrder ≤ 24 := by
  unfold Img.headErr at h
  dsimp only at h
  split at h
  · cases h
  · next hmagic =>
    split at h
    · cases h
    · next hinst =>
      split at h
      · cases h
      · next hpins =>
        split at h
        · cases h
        · next hsrc =>
          push Not at hmagic hinst
          exact ⟨hmagic.1, hinst, by omega, by omega, by omega⟩

theorem Img.fieldErr_eq_none (h : g.fieldErr = none) : (∀ k, k < 4096 → g.rteErr k = none) ∧
    (∀ k, k < 1024 → g.mcsErr k = none) ∧ ∀ r, r < 16384 → g.ringErr r = none := by
  have hnil := firstErr_eq_none h
  simp only [List.append_eq_nil_iff, List.filterMap_eq_nil_iff, List.mem_range] at hnil
  obtain ⟨⟨⟨hrte, hmcs⟩, hring⟩, -⟩ := hnil
  exact ⟨hrte, hmcs, hring⟩

theorem Img.kind_of_rteErr {k : Nat} (h : g.rteErr k = none) : (g.rte k).kind.toNat ≤ 4 := by
  unfold Img.rteErr at h
  by_contra hkind
  simp [show 4 < (g.rte k).kind.toNat by omega] at h

theorem Img.discard_of_rteErr (h : g.rteErr 0 = none) : (g.rte 0).kind = 0 ∧ (g.rte 0).ringValid = false := by
  unfold Img.rteErr at h
  dsimp only at h
  split at h
  · cases h
  · split at h
    · cases h
    · next hdiscard => simpa using hdiscard

theorem Img.setCount_of_mcsErr {k : Nat} (h : g.mcsErr k = none) : g.setCount k ≤ 64 := by
  unfold Img.mcsErr at h
  dsimp only at h
  split at h
  · cases h
  · omega

theorem Img.order_of_ringErr {r : Nat} (h : g.ringErr r = none) :
    (g.ring r).order = 0 ∨ (4 ≤ (g.ring r).order.toNat ∧ (g.ring r).order.toNat ≤ 20) := by
  unfold Img.ringErr at h
  dsimp only at h
  split at h
  · cases h
  · next ho =>
    rcases Nat.eq_zero_or_pos (g.ring r).order.toNat with h0 | h0
    · exact .inl (BitVec.eq_of_toNat_eq h0)
    · exact .inr (by omega)

end Check

end Sys2Proof.Machine

namespace Sys2Proof.Machine

/-! ### The end of a BUILD (R140, R141) -/

/-- Clearing a wake filter entry changes a context bank at most. -/
theorem Block.unfilter_eq (b : Block) (c : CtxNo) : ∃ m, b.unfilter c = { b with cb := m } := by
  unfold Block.unfilter
  dsimp only
  split
  · exact ⟨_, rfl⟩
  · exact ⟨_, rfl⟩

@[simp] theorem Block.unfilter_rec? (b : Block) (c d : CtxNo) : (b.unfilter c).rec? d = b.rec? d := by
  obtain ⟨m, h⟩ := Block.unfilter_eq b c
  rw [h]
  rfl

@[simp] theorem Block.unfilter_seatOf (b : Block) (c : CtxNo) (i : Nat) : (b.unfilter c).seatOf i = b.seatOf i := by
  obtain ⟨m, h⟩ := Block.unfilter_eq b c
  rw [h]
  rfl

@[simp] theorem Block.unfilter_seatTaken (b : Block) (c : CtxNo) (i : Nat) : (b.unfilter c).seatTaken i = b.seatTaken i := by
  obtain ⟨m, h⟩ := Block.unfilter_eq b c
  rw [h]
  rfl

section EnterSeat

variable {b : Block} {c : CtxNo} {x : Ctx} (h : b.rec? c = some x) (i : Nat)
include h

/-- A resident context that enters a seat is current in it. -/
theorem Block.enterSeat_rec? : (b.enterSeat c i).rec? c = some { x with seat := some i, dirty := true } := by
  have hx : (b.setSeat i { b.seatOf i with ctx := some c }).rec? c = some x := h
  rw [Block.enterSeat, Block.unfilter_rec?, Block.modRec, hx, Block.rec?_setRec]

theorem Block.enterSeat_seatOf : ((b.enterSeat c i).seatOf i).ctx = some c := by
  have hx : (b.setSeat i { b.seatOf i with ctx := some c }).rec? c = some x := h
  rw [Block.enterSeat, Block.unfilter_seatOf, Block.modRec, hx]
  show ((b.setSeat i { b.seatOf i with ctx := some c }).seatOf i).ctx = some c
  rw [Block.seatOf_setSeat]

end EnterSeat

/-- A context of a build that is absent takes a free slot and an empty seat. -/
theorem Block.buildCtx_of_absent {b : Block} {t k : Nat} (hrec : b.rec? (BitVec.ofNat 16 t) = none)
    (hslot : b.freeSlot (ctxBank (BitVec.ofNat 16 t)) = some k) (hseat : b.seatTaken (2 * t) = false) :
    b.buildCtx t = ((b.setRec (BitVec.ofNat 16 t) { slot := BitVec.ofNat 12 k, basic := true, dirty := true }).unfilter
      (BitVec.ofNat 16 t)).enterSeat (BitVec.ofNat 16 t) (2 * t) := by
  have hfree : ((b.setRec (BitVec.ofNat 16 t) { slot := BitVec.ofNat 12 k, basic := true, dirty := true }).unfilter
      (BitVec.ofNat 16 t)).seatTaken (2 * t) = false := by
    rw [Block.unfilter_seatTaken]
    exact hseat
  simp only [Block.buildCtx, hrec, hslot, hfree, Bool.false_eq_true, if_false]

/-- An image with messages only names one context. -/
theorem Block.basicThreads_of_messages (b : Block) {m : BasicImg} (hmsg : bit m.ctl 1 = true) (hwired : bit m.ctl 0 = false) :
    b.basicThreads m = [(fld m.msg 10 0).toNat % b.threads] := by
  simp only [Block.basicThreads, hmsg, hwired, if_true, Bool.false_eq_true, if_false, List.append_nil]
  rfl

/-- The bank is built, and the Ringmaster commits it. -/
def Block.buildEnds (b : Block) : Block :=
  { b with last := { b.last with activity := .commitPend, inactive := .staged, load := {} } }.flag pgLAST 0

section BuildDone

variable {b : Block} {m : BasicImg} (hm : b.other.basic = some m) (hact : b.last.activity = .pass2) (hbuild : b.last.load.build = true)
  (hbusy : b.rmBusy = false) (hfrozen : b.rmFrozen = false) (hctx : ∀ t ∈ b.basicThreads m, b.ctxBusy (BitVec.ofNat 16 t) = false)
include hm hact hbuild hbusy hfrozen hctx

theorem effBuildDone_of_seated (h : ∀ t ∈ b.basicThreads m,
    (((b.basicThreads m).foldl Block.buildCtx b).rec? (BitVec.ofNat 16 t)).isSome = true ∨
      ((b.basicThreads m).foldl Block.buildCtx b).tableOn (BitVec.ofNat 16 t) = false) :
    effBuildDone b = ((b.basicThreads m).foldl Block.buildCtx b).buildEnds := by
  have hgo : (b.last.activity != .pass2 || !b.last.load.build || b.rmBusy || b.rmFrozen ||
      ((b.basicThreads m).any fun t => b.ctxBusy (BitVec.ofNat 16 t))) = false := by
    simp only [hact, hbuild, hbusy, hfrozen, bne_self_eq_false, Bool.not_true, Bool.or_false, Bool.false_or]
    exact List.any_eq_false.2 fun t ht => by simp [hctx t ht]
  have hseated : ((b.basicThreads m).any fun t => (((b.basicThreads m).foldl Block.buildCtx b).rec? (BitVec.ofNat 16 t)).isNone &&
      ((b.basicThreads m).foldl Block.buildCtx b).tableOn (BitVec.ofNat 16 t) &&
      (((b.basicThreads m).foldl Block.buildCtx b).evictsFor (BitVec.ofNat 16 t) ||
        (((b.basicThreads m).foldl Block.buildCtx b).freeSlot (ctxBank (BitVec.ofNat 16 t))).isSome)) = false := by
    refine List.any_eq_false.2 fun t ht => ?_
    rcases h t ht with hrec | htable
    · simp [Option.isNone_iff_eq_none, Option.isSome_iff_ne_none.1 hrec]
    · simp [htable]
  simp only [effBuildDone, hm, hgo, hseated, Bool.false_eq_true, if_false]
  rfl

/-- BUILD_DONE of an image with messages only: its one context is resident, basic, and current in its thread's host seat. -/
theorem effBuildDone_of_messages {t k : Nat} (ht : t = (fld m.msg 10 0).toNat % b.threads) (hmsg : bit m.ctl 1 = true)
    (hwired : bit m.ctl 0 = false) (hrec : b.rec? (BitVec.ofNat 16 t) = none)
    (hslot : b.freeSlot (ctxBank (BitVec.ofNat 16 t)) = some k) (hseat : b.seatTaken (2 * t) = false) :
    (effBuildDone b).rec? (BitVec.ofNat 16 t) =
        some { slot := BitVec.ofNat 12 k, basic := true, dirty := true, seat := some (2 * t) } ∧
      ((effBuildDone b).seatOf (2 * t)).ctx = some (BitVec.ofNat 16 t) ∧ (effBuildDone b).last.activity = .commitPend := by
  have hone : b.basicThreads m = [t] := ht ▸ Block.basicThreads_of_messages b hmsg hwired
  have hfold : (b.basicThreads m).foldl Block.buildCtx b = b.buildCtx t := by rw [hone, List.foldl_cons, List.foldl_nil]
  have hnew : ((b.setRec (BitVec.ofNat 16 t) { slot := BitVec.ofNat 12 k, basic := true, dirty := true }).unfilter
      (BitVec.ofNat 16 t)).rec? (BitVec.ofNat 16 t) = some { slot := BitVec.ofNat 12 k, basic := true, dirty := true } := by
    rw [Block.unfilter_rec?, Block.rec?_setRec]
  have hin : (b.buildCtx t).rec? (BitVec.ofNat 16 t) =
      some { slot := BitVec.ofNat 12 k, basic := true, dirty := true, seat := some (2 * t) } := by
    rw [Block.buildCtx_of_absent hrec hslot hseat, Block.enterSeat_rec? hnew]
  have heff : effBuildDone b = (b.buildCtx t).buildEnds := hfold ▸ effBuildDone_of_seated hm hact hbuild hbusy hfrozen hctx fun u hu => by
    rw [hone, List.mem_singleton] at hu
    rw [hu, hfold]
    exact .inl (Option.isSome_of_eq_some hin)
  rw [heff]
  refine ⟨?_, ?_, ?_⟩
  · rw [Block.buildEnds, Block.rec?_flag]
    exact hin
  · rw [Block.buildEnds, Block.seatOf_flag]
    show ((b.buildCtx t).seatOf (2 * t)).ctx = some (BitVec.ofNat 16 t)
    rw [Block.buildCtx_of_absent hrec hslot hseat, Block.enterSeat_seatOf hnew]
  · rw [Block.buildEnds, Block.flag_last]

end BuildDone

@[simp] theorem Block.setInactive_load (b : Block) (k : Bank) (st : Inactive) : (b.setInactive k st).last.load = b.last.load := by
  simp only [Block.setInactive]
  split <;> rfl

/-- Pass 2 reads the lines of the on-die sections. -/
theorem Block.loadLines_pass2 {b : Block} (h : b.last.activity = .pass2) : b.loadLines = Img.lines2 := if_neg (by simp [h])

/-- Settles O41: the passes end at the line in error, at the checks or at the comparison of the CRCs; the checks that do not
fail are read back; a build is folded over the contexts that its image names. -/
theorem loaderPassesAndBuildsEnd : Obligations.LoaderPassesAndBuildsEnd := by
  unfold Obligations.LoaderPassesAndBuildsEnd
  refine ⟨?_, fun g inst h => ?_, fun s m hm hact hbuild hbusy hfrozen hctx => ⟨fun h => ?_, ?_⟩⟩
  · intro s r0 i pa dev sh l hi hph hno hw r b read
    -- what the data makes of the block, where it ends the pass
    have hends : ∀ {c : Block}, b.loadTaken r = c → c.last.load.data = none ∨ c.last.load.phase = none → Makes s i c := fun ht hend =>
      (show Makes s i (s.blk.loadData r0) from loadPassDone_brings hno hi).trans (by rw [Block.loadData_of_issued hph ht hend])
    refine ⟨fun n hbad => ⟨fun h1 => ?_, fun h2 => ?_⟩, fun hgood => ⟨fun h1 hlast => ⟨fun e he => ?_, fun hok => ?_⟩,
      fun h2 hlast => ⟨fun hcrc => ?_, fun hcrc => ?_⟩⟩⟩
    · exact hends ((Block.loadTaken_of_bad (b := b) hw hbad).trans (if_pos h1)) (.inl (Block.loadErr_data _ _))
    · have h1 : (read (l.load.pos + (n - b.loadLine l.load.pos))).last.activity ≠ .pass1 := by
        rw [show (read (l.load.pos + (n - b.loadLine l.load.pos))).last.activity = .pass2 from h2]
        simp
      exact hends ((Block.loadTaken_of_bad (b := b) hw hbad).trans (if_neg h1)) (.inl (Block.loadErr_data _ _))
    · exact hends ((Block.loadTaken_of_end (b := b) hw hgood hlast).trans (Block.loadEnd_of_check h1 he)) (.inl (Block.loadErr_data _ _))
    · exact hends ((Block.loadTaken_of_end (b := b) hw hgood hlast).trans (Block.loadEnd_of_passed h1 hok))
        (.inl (Block.loadPass_data _ _ _))
    · have htaken := Block.loadTaken_of_end (b := b) hw hgood ((Block.loadLines_pass2 (b := b) h2).trans_le hlast)
      refine hends ((htaken.trans (Block.loadEnd_pass2 h2)).trans (if_neg (not_not.2 hcrc))) (.inr ?_)
      rw [Block.flag_last]
      exact congrArg Load.phase (Block.setInactive_load (read (l.load.pos + l.load.window)) _ _)
    · have htaken := Block.loadTaken_of_end (b := b) hw hgood ((Block.loadLines_pass2 (b := b) h2).trans_le hlast)
      exact hends ((htaken.trans (Block.loadEnd_pass2 h2)).trans (if_pos hcrc)) (.inl (Block.loadErr_data _ _))
  · obtain ⟨hhead, hfield, hcrc⟩ := Img.check_eq_none h
    obtain ⟨hmagic, hinst, hpins, hlo, hhi⟩ := Img.headErr_eq_none hhead
    obtain ⟨hrte, hmcs, hring⟩ := Img.fieldErr_eq_none hfield
    obtain ⟨hkind, hvalid⟩ := Img.discard_of_rteErr (hrte 0 (by omega))
    exact ⟨hmagic, hinst, hpins, hlo, hhi, hkind, hvalid, fun k hk => Img.kind_of_rteErr (hrte k hk),
      fun k hk => Img.setCount_of_mcsErr (hmcs k hk), fun r hr => Img.order_of_ringErr (hring r hr), hcrc⟩
  · exact .of_effect rfl (effBuildDone_of_seated hm hact hbuild hbusy hfrozen hctx h)
  · intro hmsg hwired t c k hrec hslot hseat
    exact .of_effect rfl rfl (effBuildDone_of_messages hm hact hbuild hbusy hfrozen hctx rfl hmsg hwired hrec hslot hseat)

end Sys2Proof.Machine

namespace Sys2Proof.Machine

/-! ### A step that leaves the Last and the stations (R103, R129) -/

/-- The Last and the route engines' stations are the same. -/
structure Block.KeepsLast (b b' : Block) : Prop where
  last : b'.last = b.last
  stn : b'.stn = b.stn

theorem Block.KeepsLast.refl (b : Block) : Block.KeepsLast b b := ⟨rfl, rfl⟩

theorem Block.KeepsLast.trans {a b c : Block} (h : Block.KeepsLast a b) (k : Block.KeepsLast b c) : Block.KeepsLast a c :=
  ⟨k.last.trans h.last, k.stn.trans h.stn⟩

theorem Block.KeepsLast.ite {a b c : Block} {p : Prop} [Decidable p] (h : Block.KeepsLast a b) (k : Block.KeepsLast a c) :
    Block.KeepsLast a (if p then b else c) := by
  split
  · exact h
  · exact k

theorem Block.KeepsLast.flag (b : Block) (pg i : Nat) : Block.KeepsLast b (b.flag pg i) :=
  ⟨Block.flag_last b pg i, Block.flag_stn b pg i⟩

theorem Block.KeepsLast.cnt (b : Block) (pg off n : Nat) : Block.KeepsLast b (b.cnt pg off n) := ⟨rfl, rfl⟩

theorem Block.KeepsLast.setRing (b : Block) (r : RingNo) (x : Ring) : Block.KeepsLast b (b.setRing r x) := ⟨rfl, rfl⟩

theorem Block.KeepsLast.pmuEv (b : Block) (ev : BitVec 8) (unit n : Nat) : Block.KeepsLast b (b.pmuEv ev unit n) :=
  ⟨Block.pmuEv_last b ev unit n, Block.pmuEv_stn b ev unit n⟩

theorem Block.KeepsLast.readPay (b : Block) (p : Option Nat) : Block.KeepsLast b (b.readPay p) := by
  unfold Block.readPay
  split
  · split
    · exact .ite ⟨rfl, rfl⟩ ⟨rfl, rfl⟩
    · exact .refl b
  · exact .refl b

theorem Block.KeepsLast.overflowEvent (b : Block) (r : RingNo) : Block.KeepsLast b (b.overflowEvent r) := by
  unfold Block.overflowEvent
  exact .ite (.refl b) ⟨rfl, rfl⟩

theorem Block.KeepsLast.dropRec (b : Block) (x : Staged) : Block.KeepsLast b (b.dropRec x) := by
  unfold Block.dropRec
  -- the record is counted, its payload read and what it lost reported
  have hread := ((Block.KeepsLast.cnt b pgERW 0x088 1).trans (.pmuEv _ 0x12 (ringWriter x.ring) 1)).trans (.readPay _ x.rcd.pay)
  have hlost := hread.trans (.ite (p := x.flt) (.trans (.cnt _ pgXU 0x0C8 1) (.flag _ pgXU 1)) (.refl _))
  have hgone := hlost.trans (.ite (p := x.ras) (.trans (.cnt _ pgRAS 0x070 1) (.flag _ pgRAS 3)) (.refl _))
  dsimp only
  split
  · exact hgone.trans (.setRing _ _ _)
  · exact ((hgone.trans (.setRing _ _ _)).trans (.flag _ pgERW 0)).trans (.overflowEvent _ _)

theorem Block.KeepsLast.foldl {α : Type} {f : Block → α → Block} (h : ∀ b x, Block.KeepsLast b (f b x)) (l : List α) (b : Block) :
    Block.KeepsLast b (l.foldl f b) := by
  induction l generalizing b with
  | nil => exact .refl b
  | cons x l ih => exact (h b x).trans (ih (f b x))

theorem Block.KeepsLast.ringBack (b : Block) (r : RingNo) : Block.KeepsLast b (b.ringBack r) :=
  .trans (b := (b.setWriter _ _).setRing r _) ⟨rfl, rfl⟩ (.foldl .dropRec _ _)

theorem Block.KeepsLast.ringFault (b : Block) (r : RingNo) : Block.KeepsLast b (b.ringFault r) :=
  ((Block.KeepsLast.setRing b r _).trans (.flag _ pgERW 2)).trans (.ringBack _ r)

/-! ### The switch (R129, R130) -/

/-- What is looked up again has no result. -/
theorem Station.flip_attr (s : Station) : ∀ x ∈ s.flip.resumedMsg ++ s.flip.resumedWired, x.attr = none := by
  intro x hx
  simp only [Station.flip, List.mem_append, List.mem_mergeSort, List.mem_filter, List.mem_map, List.mem_flatMap] at hx
  rcases hx with ⟨⟨a, hgo, rfl⟩, -⟩ | ⟨⟨a, hgo, rfl⟩, -⟩ <;>
  · have ha : a.attr = none := by
      rcases hgo with (⟨q, -, p, -, rfl⟩ | ⟨r, -, rfl⟩) | ⟨p, -, rfl⟩ <;> rfl
    split <;> exact ha

theorem Block.station_setStation_ne (b : Block) {k j : Nat} (v : Station) (h : j ≠ k) : (b.setStation k v).station j = b.station j :=
  Map.get_set_ne _ _ _ _ h

theorem Block.flip_foldl_station (b : Block) (n k : Nat) :
    ((List.range n).foldl (fun b k => b.setStation k (b.station k).flip) b).station k =
      if k < n then (b.station k).flip else b.station k := by
  induction n with
  | zero => rfl
  | succ n ih =>
    rw [List.range_succ, List.foldl_append, List.foldl_cons, List.foldl_nil]
    rcases Nat.lt_trichotomy k n with h | rfl | h
    · rw [Block.station_setStation_ne _ _ (by omega), ih, if_pos h, if_pos (by omega)]
    · rw [Block.station_setStation, ih]
      simp
    · rw [Block.station_setStation_ne _ _ (by omega), ih, if_neg (by omega), if_neg (by omega)]

theorem Block.flip_foldl_eq (b : Block) (l : List Nat) :
    ∃ m, l.foldl (fun b k => b.setStation k (b.station k).flip) b = { b with stn := m } := by
  induction l generalizing b with
  | nil => exact ⟨_, rfl⟩
  | cons k l ih => exact ih (b.setStation k (b.station k).flip)

theorem Block.dropStationReads_eq (b : Block) : ∃ x, b.dropStationReads = { b with xl := x } := ⟨_, rfl⟩

theorem Block.dropStationReads_station (b : Block) (k : Nat) : b.dropStationReads.station k = b.station k := rfl

/-- The stations at cycle S. -/
def Block.flipped (b : Block) : Block :=
  ((List.range 8).foldl (fun b k => b.setStation k (b.station k).flip) b).dropStationReads

theorem Block.flipped_eq (b : Block) : ∃ m x, b.flipped = { b with stn := m, xl := x } := by
  obtain ⟨m, hm⟩ := Block.flip_foldl_eq b (List.range 8)
  obtain ⟨x, hx⟩ := Block.dropStationReads_eq { b with stn := m }
  exact ⟨m, x, (congrArg Block.dropStationReads hm).trans hx⟩

theorem Block.flipped_station (b : Block) {k : Nat} (hk : k < 8) : b.flipped.station k = (b.station k).flip := by
  rw [Block.flipped, Block.dropStationReads_station, Block.flip_foldl_station, if_pos hk]

/-- The changed rings, each with the fields that it had when it first changed. -/
def flipKeep (ch m : Map RingCfg) : Map RingCfg :=
  ch.cells.foldl (fun m p => if (m.find? p.1).isSome then m else m.insert p.1 p.2) m

/-- The Last at cycle S. -/
def Last.flip (l : Last) (gt : Gt) (ch : Map RingCfg) : Last :=
  { l with
    active := !l.active, inactive := .previous, activity := .idle, paused := false, swGt := gt, refValid := false
    changed := flipKeep ch l.changed, settled := (flipKeep ch l.changed).cells.isEmpty }

/-- The switch, before a ring with a bad compiled entry is marked. -/
def Block.switched (b : Block) : Block :=
  { b.flipped with last := b.flipped.last.flip b.flipped.gt b.changedRings }.raise pgLAST
    (if (flipKeep b.changedRings b.flipped.last.changed).cells.isEmpty then 0x84 else 0x04)

theorem Block.station_of_last (b : Block) (l : Last) (k : Nat) : { b with last := l }.station k = b.station k := rfl

theorem Block.switched_last (b : Block) : b.switched.last = b.last.flip b.gt b.changedRings := by
  obtain ⟨m, x, h⟩ := Block.flipped_eq b
  rw [Block.switched, Block.raise_last, h]
  rfl

theorem Block.switched_station (b : Block) {k : Nat} (hk : k < 8) : b.switched.station k = (b.station k).flip := by
  rw [← Block.flipped_station b hk, Block.switched, Block.station_raise]
  exact Block.station_of_last b.flipped _ k

theorem effBankFlip_of_paused {b : Block} (hp : b.last.paused = true) (hin : ∀ e ∈ b.eng.cells, e.2.inq = []) :
    effBankFlip b = (b.switched.ras.badRings.filter fun x => bit x 23 == b.switched.last.active).foldl
      (fun b x => b.ringFault (fld x 13 0)) b.switched := by
  have hidle : (b.eng.cells.any fun e => !e.2.inq.isEmpty) = false :=
    List.any_eq_false.2 fun e he => by simp [hin e he]
  unfold effBankFlip
  rw [if_neg (by simp [hp, hidle])]
  rfl

theorem effBankFlip_keepsLast {b : Block} (hp : b.last.paused = true) (hin : ∀ e ∈ b.eng.cells, e.2.inq = []) :
    Block.KeepsLast b.switched (effBankFlip b) := by
  rw [effBankFlip_of_paused hp hin]
  exact .foldl (fun b x => .ringFault b (fld x 13 0)) _ _

/-- Flags are set and the sequence number rises; nothing else of the header changes. -/
theorem Block.raise_hdr (b : Block) (pg : Nat) {m : BitVec 8} (h : m ≠ 0) :
    (b.raise pg m).hdr pg = { b.hdr pg with flags := (b.hdr pg).flags ||| m, seq := (b.hdr pg).seq + 1 } := by
  rw [Block.raise, if_neg h, Block.even_hdr, Block.hdr_setHdr]

/-- With no changed ring and no bad compiled entry in the new bank the switch only sets SWITCHED and SETTLED. -/
theorem effBankFlip_flags {b : Block} (hp : b.last.paused = true) (hin : ∀ e ∈ b.eng.cells, e.2.inq = [])
    (hch : b.changedRings.cells = []) (hold : b.last.changed.cells = []) (hbad : ∀ x ∈ b.ras.badRings, bit x 23 = b.last.active) :
    ((effBankFlip b).hdr pgLAST).flags = (b.hdr pgLAST).flags ||| 0x84 := by
  obtain ⟨m, x, h⟩ := Block.flipped_eq b
  have hkeep : (flipKeep b.changedRings b.flipped.last.changed).cells.isEmpty = true := by
    rw [h, flipKeep, hch]
    exact List.isEmpty_iff.2 hold
  have hsw : b.switched = { b.flipped with last := b.flipped.last.flip b.flipped.gt b.changedRings }.raise pgLAST 0x84 := by
    rw [Block.switched, if_pos hkeep]
  have hnone : (b.switched.ras.badRings.filter fun x => bit x 23 == b.switched.last.active) = [] := by
    refine List.filter_eq_nil_iff.2 fun x hx => ?_
    have hx : x ∈ b.ras.badRings := by
      rw [hsw, Block.raise_ras, h] at hx
      exact hx
    rw [Block.switched_last, hbad x hx]
    simp [Last.flip]
  rw [effBankFlip_of_paused hp hin, hnone, List.foldl_nil, hsw, Block.raise_hdr _ _ (by decide), h]
  rfl

end Sys2Proof.Machine

namespace Sys2Proof.Machine

/-! ### A changed ring settles (R131) -/

section Settle

variable {b : Block} {r : RingNo} (hch : (b.last.changed.find? r.toNat).isSome = true) (hidx : b.indexBusy r = false)
  (htgt : (b.ringOf r).tgtPend = false) (hrecs : ∀ x ∈ b.staged r, x.ph = .queued)
include hch hidx htgt hrecs

/-- Once every record of the old ring is written, an open window is flushed and a ring with none is reset. -/
theorem effRingSettle_of_written : effRingSettle b r =
    if (b.car.windows.find? r.toNat).isSome then b.closeWindow r flushExp
    else
      let changed := b.last.changed.erase r.toNat
      let c := { b with last := { b.last with changed, settled := changed.cells.isEmpty } }.resetRing r
      if changed.cells.isEmpty then c.flag pgLAST 7 else c := by
  have hwritten : ((b.last.changed.find? r.toNat).isNone || b.indexBusy r || (b.ringOf r).tgtPend ||
      (b.staged r).any (·.ph != .queued)) = false := by
    have hnone : (b.last.changed.find? r.toNat).isNone = false := by rw [Option.isNone_eq_false_iff, hch]
    have hany : (b.staged r).any (·.ph != .queued) = false := List.any_eq_false.2 fun x hx => by simp [hrecs x hx]
    rw [hnone, hidx, htgt, hany]
    rfl
  exact if_neg (ne_true_of_eq_false hwritten)

end Settle

/-- Settles O42: the switch flips the stations and the Last, and what may follow for rings with bad entries leaves both; a
ring settles when nothing of the old one is left; a reference is written by the port. -/
theorem switchesAndReferences : Obligations.SwitchesAndReferences := by
  unfold Obligations.SwitchesAndReferences
  refine ⟨fun s hp hin => ?_, fun s r hch hidx htgt hrecs => ⟨fun hw => ?_, fun hw => ?_⟩, fun s w ha => ⟨fun h => ?_, fun h => ?_⟩⟩
  · have hkeep := effBankFlip_keepsLast hp hin
    have hlast : (effBankFlip s.blk).last = s.blk.last.flip s.blk.gt s.blk.changedRings := hkeep.last.trans (Block.switched_last s.blk)
    have hstn : ∀ k, k < 8 → (effBankFlip s.blk).station k = (s.blk.station k).flip := fun k hk => by
      rw [← Block.switched_station s.blk hk, Block.station, hkeep.stn, Block.station]
    refine Gives.of_effect (b' := effBankFlip s.blk) rfl rfl ⟨congrArg Last.active hlast, congrArg Last.inactive hlast,
      congrArg Last.activity hlast, congrArg Last.paused hlast, congrArg Last.swGt hlast, congrArg Last.refValid hlast,
      (congrArg Last.a hlast :), (congrArg Last.b hlast :), fun k hk => ?_, ?_, fun hnone => ?_, effBankFlip_flags hp hin⟩
    · rw [hstn k hk]
      exact ⟨rfl, rfl, rfl, Station.flip_attr _⟩
    · rw [hlast]
      rfl
    · rw [hlast, Last.flip, flipKeep, hnone]
      rfl
  · exact .of_effect rfl ((effRingSettle_of_written hch hidx htgt hrecs).trans (if_pos hw))
  · intro m b
    refine .of_effect rfl (?_ : effRingSettle s.blk r = _)
    rw [effRingSettle_of_written hch hidx htgt hrecs, hw]
    rfl
  · refine .of_writes_last (off := 0x07C) (w := withOp w 1 1) ha rfl (by decide) (by decide) h ?_
    rw [Block.wrote_last, defOf_last_commit]
    have hgo : bit (storedVal .last 0x07C ((withOp w 1 1).data &&& (0 ||| 1))) 0 = true := by
      simp [storedVal, withOp, bit, blend]
    simp only [Block.applyLast, hgo, if_true]
    rfl
  · refine .of_writes_last (off := 0x074) ha rfl (by decide) (by decide) h ?_
    have hall : w.data &&& ((0xFFFFFFFF : Word) ||| 0) = w.data := by
      rw [show ((0xFFFFFFFF : Word) ||| 0) = BitVec.allOnes 32 by decide, BitVec.and_allOnes]
    rw [Block.wrote_last, defOf_last_ref]
    simp only [Block.applyLast, Block.store, defOf_last_ref, storedVal, hall, blend_ones]
    rfl

end Sys2Proof.Machine

namespace Sys2Proof.Machine

/-! ### The Last after a cold reset (R143) -/

/-- What a list of cells does not keep is not found in it. -/
theorem Map.look_filter_of_not {α : Type} {p : Nat × α → Bool} {i : Nat} (h : ∀ v, p (i, v) = false) (l : List (Nat × α)) :
    Map.look (l.filter p) i = none := by
  induction l with
  | nil => rfl
  | cons x l ih =>
    obtain ⟨j, v⟩ := x
    rcases eq_or_ne j i with rfl | hne
    · rw [List.filter_cons_of_neg (by simp [h v]), ih]
    · by_cases hp : p (j, v) = true
      · rw [List.filter_cons_of_pos hp]
        simpa [Map.look, hne] using ih
      · rw [List.filter_cons_of_neg hp, ih]

/-- The pages of what a cold reset from VBKP keeps, counts and logs. -/
def keptPages : List Nat := [pgPWR, pgTU, pgRM]

/-- The Last is as a cold reset leaves it, and so is every register but those of the pages kept. -/
structure Block.LastAtReset (b : Block) : Prop where
  last : b.last = {}
  reg : ∀ pg off, pg ∉ keptPages → off < 4096 → b.reg pg off = resetOf pg off

theorem Block.LastAtReset.of_notes {pgs : List Nat} {b c : Block} (h : Block.LastAtReset b) (hn : Block.Notes pgs b c)
    (hs : pgs ⊆ keptPages) : Block.LastAtReset c :=
  ⟨(congrArg Block.last hn.rest).trans h.last, fun pg off hpg hoff => (hn.reg pg off (fun hm => hpg (hs hm)) hoff).trans (h.reg pg off hpg hoff)⟩

/-- A block with no register written and the Last at its start. -/
theorem Block.LastAtReset.of_empty {b : Block} (hl : b.last = {}) (hr : b.fab.regs = .empty) : Block.LastAtReset b :=
  ⟨hl, fun pg off _ _ => by rw [Block.reg, hr, Map.get_empty]⟩

/-- PD0 and PD1 keep registers of their own pages only. -/
theorem Block.LastAtReset.keepPd01 (b : Block) : Block.LastAtReset b.keepPd01 := by
  refine ⟨rfl, fun pg off hpg hoff => ?_⟩
  have hpage : regKey pg off / 4096 = pg := by
    unfold regKey
    omega
  have hnot : b.keepPd01.fab.regs.find? (regKey pg off) = none := by
    refine Map.look_filter_of_not (fun v => ?_) _
    simp only [hpage]
    simp only [keptPages, List.mem_cons, List.not_mem_nil, or_false, not_or] at hpg
    obtain ⟨hpwr, htu, -⟩ := hpg
    simp [hpwr, htu]
  rw [Block.reg, Map.get, hnot]
  rfl

theorem Block.LastAtReset.flagTu {b : Block} (h : Block.LastAtReset b) (i : Nat) : Block.LastAtReset (b.flag pgTU i) :=
  h.of_notes (Block.flag_notes b pgTU i) (by simp [keptPages])

theorem Block.LastAtReset.enterHoldover {b : Block} (h : Block.LastAtReset b) : Block.LastAtReset b.enterHoldover := by
  have htu : ∀ {c : Block}, Block.LastAtReset c → ∀ t, Block.LastAtReset { c with tu := t } := fun hc _ => ⟨hc.last, hc.reg⟩
  have hlose : ∀ {c : Block}, Block.LastAtReset c → Block.LastAtReset c.loseValid := fun hc => by
    unfold Block.loseValid
    split
    · exact (htu hc _).flagTu 2
    · exact hc
  unfold Block.enterHoldover
  dsimp only
  split
  · exact hlose (htu h _)
  · exact hlose ((htu (htu h _) _).flagTu 1)

/-- A switch-over is counted and logged. -/
theorem Block.LastAtReset.counted {b : Block} (h : Block.LastAtReset b) :
    Block.LastAtReset ((b.cntHalf pgPWR 0x06C true).supplyLog 1) :=
  (h.of_notes (Block.cntHalf_notes b pgPWR 0x06C true 1 (by decide)) (by simp [keptPages])).of_notes
    (Block.rmLog_notes _ 3 1 0 _) (by simp [keptPages])

theorem Block.LastAtReset.switchOver (b : Block) (stage : Stage) (aonGood : Bool) : Block.LastAtReset (b.switchOver stage aonGood) := by
  have hkept : ∀ p t, Block.LastAtReset { b.keepPd01 with pwr := p, tu := t } := fun _ _ =>
    ⟨(Block.LastAtReset.keepPd01 b).last, (Block.LastAtReset.keepPd01 b).reg⟩
  unfold Block.switchOver
  dsimp only
  split
  · exact hkept _ _
  · exact (hkept _ _).enterHoldover.counted

/-- A cold reset leaves the Last at its start. -/
theorem effColdReset_lastAtReset (b : Block) (v : Bool) : Block.LastAtReset (effColdReset b v) := by
  unfold effColdReset
  split
  · exact .switchOver b .held _
  · exact .of_empty rfl rfl

section AtReset

variable {b : Block} (h : Block.LastAtReset b)
include h

/-- The BASIC registers stand for the image of their reset values. -/
theorem Block.LastAtReset.basicImg : b.basicImg = {} := by
  have hreg : ∀ off, off < 4096 → b.reg pgLAST off = resetOf pgLAST off := fun off ho => h.reg pgLAST off (by decide) ho
  have hlc : (List.range 16).map (fun c => b.reg pgLAST (0x140 + 4 * c)) = List.replicate 16 0x03F00000 := by
    have hmap : (List.range 16).map (fun c => b.reg pgLAST (0x140 + 4 * c)) = (List.range 16).map fun c => resetOf pgLAST (0x140 + 4 * c) :=
      List.map_congr_left fun c hc => hreg _ (by
        have := List.mem_range.1 hc
        omega)
    exact hmap.trans (by decide)
  rw [Block.basicImg, hlc, hreg _ (by decide), hreg _ (by decide), hreg _ (by decide), hreg _ (by decide), hreg _ (by decide), hreg _ (by decide)]
  decide

/-- No wired line is enabled. -/
theorem Block.LastAtReset.lcBits {c : Nat} (hc : c < 16) : b.lcBits c 0x040 = 0 := by
  have hpage : pgLC c ∉ keptPages := by
    simp only [pgLC, keptPages, pgPWR, pgTU, pgRM, List.mem_cons, List.not_mem_nil, or_false]
    omega
  have hzero : ∀ c < 16, resetOf (pgLC c) 0x040 = 0 ∧ resetOf (pgLC c) 0x044 = 0 ∧ resetOf (pgLC c) 0x048 = 0 ∧
      resetOf (pgLC c) 0x04C = 0 := by decide
  obtain ⟨h0, h1, h2, h3⟩ := hzero c hc
  rw [Block.lcBits, h.reg _ _ hpage (by decide), h.reg _ _ hpage (by decide), h.reg _ _ hpage (by decide), h.reg _ _ hpage (by decide),
    h0, h1, h2, h3]
  decide

end AtReset

/-- Settles O4: the Last starts at its reset value, and every register of the pages that nothing is kept of reads its own. -/
theorem theLastAfterColdReset : Obligations.TheLastAfterColdReset := by
  unfold Obligations.TheLastAfterColdReset
  intro b hb
  have h : Block.LastAtReset b := by
    rcases hb with rfl | ⟨s, v, t, he, rfl⟩
    · exact .of_empty rfl rfl
    · cases he
      exact effColdReset_lastAtReset s.blk v
  have hmsg : b.regBit pgLAST 0x100 1 = false := by
    rw [Block.regBit, h.reg pgLAST 0x100 (by decide) (by decide)]
    decide
  have hrte : b.rte 0 = {} := by
    rw [Block.rte, Block.act, h.last]
    rfl
  refine ⟨by rw [h.last], by rw [h.last, h.basicImg], fun off _ hoff => h.reg pgLAST off (by decide) (by omega), by rw [h.last],
    by rw [h.last], fun c hc => h.lcBits hc, hmsg, fun e => ?_, by rw [hrte], by rw [hrte]⟩
  rw [h.basicImg]
  exact ⟨rfl, rfl⟩

end Sys2Proof.Machine

namespace Sys2Proof.Machine

/-! ### The only push of a bank (R66, R163) -/

theorem Block.dropSpill_of_only {b : Block} {x : Spill} (hx : (b.bank (ctxBank x.ctx)).spills = [x]) :
    b.dropSpill x.ctx = b.setBank (ctxBank x.ctx) { b.bank (ctxBank x.ctx) with spills := [] } := by
  simp [Block.dropSpill, hx, eraseFirst]

theorem Block.modSpill_of_only {b : Block} {x : Spill} (f : Spill → Spill) (hx : (b.bank (ctxBank x.ctx)).spills = [x]) :
    b.modSpill x.ctx f = b.setBank (ctxBank x.ctx) { b.bank (ctxBank x.ctx) with spills := [f x] } := by
  simp [Block.modSpill, hx, modifyFirst]

/-- A push whose spill area is known waits for the earlier writes of it. -/
theorem Block.kickSpills_of_unaccepted {b : Block} {x : Spill} {k : BitVec 6 × BitVec 36 × OwnerNo}
    (hx : (b.bank (ctxBank x.ctx)).spills = [x]) (hk : x.known = some k) (hw : b.ctxWrites x.ctx false = true) :
    b.kickSpills (ctxBank x.ctx) = b := by
  have hof : b.spillOf x.ctx = some x := by simp [Block.spillOf, hx]
  simp [Block.kickSpills, hx, Block.startSpill, hof, hk, hw]

/-! ### What a dropped insert leaves to go on (R149) -/

/-- The context is not resident, not leaving and in no LOAD. -/
structure Block.Away (b : Block) (c : CtxNo) : Prop where
  record : b.rec? c = none
  leave : b.leave.find? c.toNat = none
  load : b.loads.find? c.toNat = none

theorem Block.Away.ctxInvalid {b : Block} {c : CtxNo} (h : b.Away c) : (b.ctxInvalid c).Away c :=
  ⟨by simpa [Block.ctxInvalid, Block.reErr] using h.record, by simpa [Block.ctxInvalid, Block.reErr] using h.leave,
    by simpa [Block.ctxInvalid, Block.reErr] using h.load⟩

theorem Block.Away.entryFault {b : Block} {c : CtxNo} (h : b.Away c) : (b.entryFault c).Away c :=
  ⟨h.ctxInvalid.record, h.ctxInvalid.leave, h.ctxInvalid.load⟩

@[simp] theorem Block.bank_ctxInvalid (b : Block) (c : CtxNo) (q : Nat) : (b.ctxInvalid c).bank q = b.bank q := by
  simp [Block.ctxInvalid, Block.reErr]

@[simp] theorem Block.bank_entryFault (b : Block) (c : CtxNo) (q : Nat) : (b.entryFault c).bank q = b.bank q :=
  Block.bank_ctxInvalid b c q

/-- Where its bank has no push, nothing of the context goes on. -/
theorem Block.Away.kickCtx {b : Block} {c : CtxNo} (h : b.Away c) (hsp : (b.bank (ctxBank c)).spills = []) : b.kickCtx c = b :=
  Block.kickCtx_of_quiet (Block.kickSpills_of_no_push hsp) (Block.maybeRefill_of_no_rec h.record) h.leave h.load

/-! ### The entry read of a push (R148, R149, R163) -/

section Read

variable {b : Block} {x : Spill} {pa : BitVec 64} {dev sh : Bool} (hx : (b.bank (ctxBank x.ctx)).spills = [x])
  (hph : x.ph = .entryRead (.issued pa dev sh)) (hw : b.xl.trkWait = []) (ho : b.xl.orphans = [])
include hx hph hw ho

/-- The entry of the bank's only push is read, and nothing waits for its tracker. -/
theorem effCtxtEntryRead_ok (bytes : List Byte) :
    effCtxtEntryRead b x.ctx (.ok bytes) = ((giveShared b 1).entryRead x (tabEntOf bytes)).kickCtx x.ctx := by
  have hof : b.spillOf x.ctx = some x := by simp [Block.spillOf, hx]
  simp [effCtxtEntryRead, Block.orphanDone_of_no_orphans ho, hof, hph, Phase.isIssued, Block.freeLines_of_no_wait hw]

/-- The entry read of the bank's only push fails, and nothing waits for its tracker. -/
theorem effCtxtEntryRead_err :
    effCtxtEntryRead b x.ctx .err = (((giveShared b 1).dropSpill x.ctx).entryFault x.ctx).kickCtx x.ctx := by
  have hof : b.spillOf x.ctx = some x := by simp [Block.spillOf, hx]
  simp [effCtxtEntryRead, Block.orphanDone_of_no_orphans ho, hof, hph, Phase.isIssued, Block.freeLines_of_no_wait hw]

end Read

/-- An invalid entry drops the insert. -/
theorem Block.entryRead_invalid {b : Block} {x : Spill} {t : TabEnt} (hv : t.valid = false) :
    b.entryRead x t = (b.dropSpill x.ctx).ctxInvalid x.ctx := by
  simp [Block.entryRead, hv]

/-- The push with the spill area that a table entry names. -/
def Spill.learns (x : Spill) (t : TabEnt) : Spill := { x with known := some (t.seg, t.page, t.owner), ph := .queued }

/-- The valid entry of an ACTIVE owner tells the push its spill area; an unaccepted write of the area holds the push back. -/
theorem Block.entryRead_valid {b : Block} {x : Spill} {i : Ins} {t : TabEnt} (hi : x.ins = some i) (hg : i.guard = none)
    (hold : i.old = []) (hwk : i.wakes = false) (hcls : x.entry.cls ≠ 2) (hv : t.valid = true) (how : b.ownerActive t.owner = true)
    (hwr : b.ctxWrites x.ctx false = true) : b.entryRead x t = b.modSpill x.ctx fun _ => x.learns t := by
  have hwr' (f : Spill → Spill) : (b.modSpill x.ctx f).ctxWrites x.ctx false = true := hwr
  unfold Block.entryRead
  simp only [hi, hg, hold, hwk, if_neg hcls, hv, how, hwr', List.contains_nil, Bool.not_true, Bool.false_eq_true, if_false, if_true,
    Spill.learns]

/-- Nothing goes on either while a push with a known spill area waits for an earlier write of it. -/
theorem Block.Away.kickCtx_of_unaccepted {b : Block} {x : Spill} {k : BitVec 6 × BitVec 36 × OwnerNo} (h : b.Away x.ctx)
    (hx : (b.bank (ctxBank x.ctx)).spills = [x]) (hk : x.known = some k) (hwr : b.ctxWrites x.ctx false = true) :
    b.kickCtx x.ctx = b :=
  Block.kickCtx_of_quiet (Block.kickSpills_of_unaccepted hx hk hwr) (Block.maybeRefill_of_no_rec h.record) h.leave h.load

/-- Settles O15: the read takes its push out of the bank, and then nothing of the context can go on; or it tells the push its spill
area, whose unaccepted write holds back the push (R66). -/
theorem absentContextsReadTheirEntry : Obligations.AbsentContextsReadTheirEntry := by
  unfold Obligations.AbsentContextsReadTheirEntry
  intro s c x pa dev sh hx hc hph hrec hleave hloads hw ho b gone
  subst hc
  have hgone : gone.Away x.ctx := ⟨hrec, hleave, hloads⟩
  have hempty : (gone.bank (ctxBank x.ctx)).spills = [] := by simp [gone]
  have hdrop : b.dropSpill x.ctx = gone := Block.dropSpill_of_only (b := b) hx
  have hok : ∀ bytes, effCtxtEntryRead s.blk x.ctx (.ok bytes) = (b.entryRead x (tabEntOf bytes)).kickCtx x.ctx :=
    effCtxtEntryRead_ok hx hph hw ho
  have herr : effCtxtEntryRead s.blk x.ctx .err = ((b.dropSpill x.ctx).entryFault x.ctx).kickCtx x.ctx :=
    effCtxtEntryRead_err hx hph hw ho
  refine ⟨.of_effect rfl (herr.trans ?_), fun bytes hv => .of_effect rfl ((hok bytes).trans ?_),
    fun bytes i hi hg hold hwk hcls hv how hwr => .of_effect rfl ((hok bytes).trans ?_)⟩
  · rw [hdrop, hgone.entryFault.kickCtx (by simpa using hempty)]
  · rw [Block.entryRead_invalid hv, hdrop, hgone.ctxInvalid.kickCtx (by simpa using hempty)]
  · rw [Block.entryRead_valid (b := b) hi hg hold hwk hcls hv how hwr, Block.modSpill_of_only (b := b) _ hx]
    exact Block.Away.kickCtx_of_unaccepted (x := x.learns (tabEntOf bytes)) ⟨hrec, hleave, hloads⟩ (by simp [Spill.learns]) rfl hwr

end Sys2Proof.Machine

namespace Sys2Proof.Machine

/-! ### The flight of an arrival (R50) -/

@[simp] theorem Block.engine_setPend (b : Block) (e : Event) (p : Pend) (n : Nat) : (b.setPend e p).engine n = b.engine n := rfl

theorem Block.modFlight_of_flight {b : Block} {e : Event} {f : Flight} (h : (b.pendOf e).fl = some f) (g : Flight → Flight) :
    b.modFlight e g = b.setPend e { b.pendOf e with fl := some (g f) } := by
  simp [Block.modFlight, h]

/-- An arrival whose flight holds no payload is placed by clearing P (R50). -/
theorem Block.place_of_flight {b : Block} {e : Event} {f : Flight} (h : (b.pendOf e).fl = some f) (hf : f.frees = []) :
    b.place e = b.setPend e { b.pendOf e with p := false, fl := none } := by
  simp [Block.place, h, hf]

/-! ### The multicast queue of an engine (R151, R154) -/

/-- The block with another multicast queue in one engine. -/
def Block.withMcq (b : Block) (n : Nat) (l : List McItem) : Block := b.setEngine n { b.engine n with mcq := l }

@[simp] theorem Block.mcq_withMcq (b : Block) (n : Nat) (l : List McItem) : ((b.withMcq n l).engine n).mcq = l := by
  simp [Block.withMcq]

@[simp] theorem Block.ins_withMcq (b : Block) (n : Nat) (l : List McItem) (q : Nat) :
    ((b.withMcq n l).engine n).ins q = (b.engine n).ins q := by
  simp [Block.withMcq, Engine.ins]

@[simp] theorem Block.withMcq_withMcq (b : Block) (n : Nat) (l l' : List McItem) : (b.withMcq n l).withMcq n l' = b.withMcq n l' := by
  simp [Block.withMcq]

/-- An insert joins its queue whatever the multicast queue holds. -/
theorem Block.enqueueIns_withMcq (b : Block) (n : Nat) (l : List McItem) (i : Ins) :
    (b.withMcq n l).enqueueIns n i = (b.enqueueIns n i).withMcq n l := by
  simp [Block.withMcq, Block.enqueueIns]

/-- An insert makes the queue of its bank longer by one. -/
theorem Block.ins_enqueueIns_length_le (b : Block) (n : Nat) (i : Ins) (q : Nat) :
    (((b.enqueueIns n i).engine n).ins q).length ≤ ((b.engine n).ins q).length + 1 := by
  simp only [Block.enqueueIns, Block.engine_setEngine, Engine.ins, Map.upd, Map.get_set]
  split
  · next h => simp [h]
  · exact Nat.le_succ _

theorem Block.drainMc_of_empty {b : Block} {n : Nat} (h : (b.engine n).mcq = []) (fuel : Nat) : b.drainMc n fuel = b := by
  cases fuel <;> simp [Block.drainMc, h]

/-- A member at the head of the queue whose bank has room gives its insert, and the rest of its set goes on. -/
theorem Block.drainMc_member {b : Block} {n : Nat} {m : McItem} {c : CtxNo} {cs : List CtxNo} (hm : m.members = some (c :: cs))
    (hroom : ((b.engine n).ins (ctxBank c)).length < 16) (fuel : Nat) : (b.withMcq n [m]).drainMc n (fuel + 1) =
      ((b.enqueueIns n (insertOf m.arr m.rte c m.recTok)).withMcq n [{ m with members := some cs, recTok := none }]).drainMc n fuel := by
  have hins : (b.withMcq n [m]).insRoom n c = true := by simpa [Block.insRoom] using hroom
  rw [Block.drainMc]
  simp only [Block.mcq_withMcq, hm, hins, if_true, Block.enqueueIns_withMcq]
  congr 1
  exact Block.withMcq_withMcq ..

/-- Members all of whose banks have room for all of them give their inserts in member order, and their set leaves the queue. -/
theorem Block.drainMc_members {b : Block} {n : Nat} {m : McItem} {cs : List CtxNo} (hm : m.members = some cs) (htok : m.recTok = none)
    (hroom : ∀ d ∈ cs, ((b.engine n).ins (ctxBank d)).length + cs.length ≤ 16) {fuel : Nat} (hfuel : cs.length < fuel) :
    (b.withMcq n [m]).drainMc n fuel = cs.foldl (fun b d => b.enqueueIns n (insertOf m.arr m.rte d none)) (b.withMcq n []) := by
  induction cs generalizing b m fuel with
  | nil =>
    obtain _ | fuel := fuel
    · simp at hfuel
    rw [Block.drainMc]
    simp only [Block.mcq_withMcq, hm]
    exact (Block.drainMc_of_empty (by simp [Block.withMcq]) fuel).trans (Block.withMcq_withMcq ..)
  | cons c cs ih =>
    obtain _ | fuel := fuel
    · simp at hfuel
    simp only [List.length_cons] at hfuel hroom
    have hc := hroom c (by simp)
    rw [Block.drainMc_member hm (by omega), ih rfl rfl ?_ (by omega), htok, List.foldl_cons, Block.enqueueIns_withMcq]
    intro d hd
    have hlen := Block.ins_enqueueIns_length_le b n (insertOf m.arr m.rte c m.recTok) (ctxBank d)
    have := hroom d (by simp [hd])
    omega

/-- The inserts of a set that has been read, where all banks have room for all members: the first tells the record (R239). -/
theorem Block.drainMc_set {b : Block} {n : Nat} {m : McItem} {c : CtxNo} {cs : List CtxNo} (hm : m.members = some (c :: cs))
    (hroom : ∀ d ∈ c :: cs, ((b.engine n).ins (ctxBank d)).length + cs.length < 16) : (b.withMcq n [m]).drainMc n 200 =
      cs.foldl (fun b d => b.enqueueIns n (insertOf m.arr m.rte d none))
        ((b.withMcq n []).enqueueIns n (insertOf m.arr m.rte c m.recTok)) := by
  have hc := hroom c (by simp)
  rw [Block.drainMc_member hm (by omega), Block.drainMc_members rfl rfl ?_ (by omega), Block.enqueueIns_withMcq]
  intro d hd
  have hlen := Block.ins_enqueueIns_length_le b n (insertOf m.arr m.rte c m.recTok) (ctxBank d)
  have hd := hroom d (by simp [hd])
  omega

/-! ### The read of a set (R122, R154) -/

/-- A set item whose lines have answered. -/
def McItem.answered (m : McItem) : McItem := { m with got := m.got + m.lines, phase := none }

/-- The last lines of a set that are issued answer: the set is read, and its item stands at the head of the queue. -/
theorem Block.setLines_last {b : Block} {n : Nat} {m : McItem} {pa : BitVec 64} {dev sh : Bool} {bytes : List Byte}
    (hq : (b.engine n).mcq = [m]) (hph : m.phase = some (.issued pa dev sh)) (hgot : 0 < m.got) (hneed : m.need ≤ m.got + m.lines)
    (hw : b.xl.trkWait = []) (fuel : Nat) : b.setLines n bytes (fuel + 1) =
      ((giveShared b m.lines).withMcq n [m.answered]).setRead n m.answered bytes := by
  rw [Block.setLines]
  simp [hq, hph, Phase.isIssued, Nat.ne_of_gt hgot, hneed, Block.freeLines_of_no_wait hw, Block.withMcq, McItem.answered]

/-- A set with members, of COUNT 64 at most, leaves its members to be issued, and the arrival waits for as many grants. -/
theorem Block.setRead_members {b : Block} {n : Nat} {m : McItem} {f : Flight} {bytes : List Byte} {c : CtxNo} {cs : List CtxNo}
    (hcount : leNat (bytes.take 1) % 128 ≤ 64) (hmem : setMembers bytes = c :: cs) (hfl : (b.pendOf m.arr.ev).fl = some f) :
    (b.withMcq n [m]).setRead n m bytes =
      (b.setPend m.arr.ev { b.pendOf m.arr.ev with fl := some { f with left := cs.length + 1 } }).withMcq n
        [{ m with phase := none, members := some (c :: cs) }] := by
  have hflight : (b.withMcq n [m]).modFlight m.arr.ev (fun f => { f with left := (c :: cs).length }) =
      (b.setPend m.arr.ev { b.pendOf m.arr.ev with fl := some { f with left := cs.length + 1 } }).withMcq n [m] :=
    Block.modFlight_of_flight (b := b.withMcq n [m]) hfl _
  unfold Block.setRead setCountOf
  simp only [if_neg (Nat.not_lt.mpr hcount), hmem, hflight, Block.mcq_withMcq, List.drop_succ_cons, List.drop_zero]
  exact Block.withMcq_withMcq ..

/-- A set that is gone without a record of its own places its arrival. -/
theorem Block.setGone_of_no_record {b : Block} {n : Nat} {m : McItem} {f : Flight} (hq : (b.engine n).mcq = [m]) (htok : m.recTok = none)
    (hfl : (b.pendOf m.arr.ev).fl = some f) (hf : f.frees = []) :
    b.setGone n m = (b.setPend m.arr.ev { b.pendOf m.arr.ev with p := false, fl := none }).withMcq n [] := by
  simp [Block.setGone, htok, Block.resolveRec, Block.place_of_flight hfl hf, hq, Block.withMcq]

section Done

variable {b : Block} {n : Nat} {m : McItem} {pa : BitVec 64} {dev sh : Bool} (hq : (b.engine n).mcq = [m])
  (hph : m.phase = some (.issued pa dev sh)) (ho : b.xl.orphans = [])
include hq hph ho

theorem effMcsSetReadDone_ok (bytes : List Byte) : effMcsSetReadDone b n (.ok bytes) = (b.setLines n bytes 4).drainMc n 200 := by
  simp [effMcsSetReadDone, Block.orphanDone_of_no_orphans ho, hq, hph, Phase.isIssued]

theorem effMcsSetReadDone_err : effMcsSetReadDone b n .err = ((b.freeLines m.lines).setGone n m).drainMc n 200 := by
  simp [effMcsSetReadDone, Block.orphanDone_of_no_orphans ho, hq, hph, Phase.isIssued]

end Done

/-- Settles O13: the last lines complete the set, whose members find room in their queues one after the other; a failed read takes the
item out of the queue, and the arrival is placed. -/
theorem multicastReadIssuesItsMembers : Obligations.MulticastReadIssuesItsMembers := by
  unfold Obligations.MulticastReadIssuesItsMembers
  intro s n m pa dev sh f hq hph _ _ hfl hf hw ho b p
  refine ⟨fun bytes c cs hgot hneed hmem hcount hroom => .of_effect rfl ((effMcsSetReadDone_ok hq hph ho bytes).trans ?_),
    fun htok => .of_effect rfl ((effMcsSetReadDone_err hq hph ho).trans ?_)⟩
  · rw [Block.setLines_last hq hph hgot hneed hw,
      Block.setRead_members (b := giveShared s.blk m.lines) (m := m.answered) hcount hmem hfl]
    exact Block.drainMc_set rfl hroom
  · rw [Block.freeLines_of_no_wait hw, Block.setGone_of_no_record (b := giveShared s.blk m.lines) hq htok hfl hf,
      Block.drainMc_of_empty (by simp)]
    rfl

end Sys2Proof.Machine

namespace Sys2Proof.Machine

/-! ### A class read (R152) -/

theorem Block.joins_of_empty {b : Block} {n : Nat} (hq : (b.engine n).mcq = []) (a : Arrival) {t : Targets} (ht : t ≠ .set) :
    b.joins n a t = false := by
  simp [Block.joins, hq, ht]

/-- An arrival of an ACTIVE owner, which is no record of its own, of a class without an error leaves its queue, and its class says the
rest. -/
theorem Block.routeNext_of_class {b : Block} {n : Nat} {a : Arrival} {rest : List Arrival} (hin : (b.engine n).inq = a :: rest)
    (hrec : a.recOnly = false) (hbad : b.badClass a.attr.cls = false) (how : b.ownerActive a.attr.owner = true) :
    b.routeNext n a = (((b.setEngine n { b.engine n with inq := rest }).routeBy n a (b.rte a.attr.cls)).cnt48 (pgRE n)
      0x068 0x06C).pmuEv 0x0A n := by
  simp [Block.routeNext, hbad, hrec, how, hin]

/-- What the engine does with its next arrival when the arbiter picks it. -/
theorem effRouteArrival_of_pick {b : Block} {n : Nat} {a : Arrival} (hnext : b.nextArrival n = some a)
    (hpick : b.classPick (a.attr.cls.toNat % 16) = some n) :
    effRouteArrival b n = (b.routeNext n a).granted (.classBank (a.attr.cls.toNat % 16)) n := by
  simp [effRouteArrival, hnext, hpick]

/-- The next arrival of an engine is one that it can act on. -/
theorem Block.canRoute_of_next {b : Block} {n : Nat} {a : Arrival} (hnext : b.nextArrival n = some a)
    (hbad : b.badClass a.attr.cls = false) (how : b.ownerActive a.attr.owner = true) : b.canRoute n a (b.rte a.attr.cls) = true := by
  unfold Block.nextArrival at hnext
  split at hnext
  · cases hnext
  · simpa [hbad, how] using (Option.filter_eq_some_iff.mp hnext).2

/-- Where the multicast queue is empty, an unpinned REMOTE class that the engine can act on finds room in the VC0 lane of its port. -/
theorem Block.vc0_room_of_canRoute {b : Block} {n : Nat} {a : Arrival} {r : Rte} {pt : BitVec 2} (h : b.canRoute n a r = true)
    (hrec : a.recOnly = false) (hq : (b.engine n).mcq = []) (ht : b.targets r = .remote) (hpin : r.pin = false)
    (hout : b.outPort r.inst = .inl pt) : ((b.engine n).lane pt.toNat).vc0.length < 4 := by
  have hjoin : b.joins n a .remote = false := Block.joins_of_empty hq a (by simp)
  simp only [Block.canRoute, hrec, ht, hjoin, Bool.and_eq_true, Bool.false_or] at h
  simpa [Block.laneRoom, hout, hpin] using h.2

/-! ### What a class does with an arrival without payload and ring (R152 to R156) -/

/-- The block in which a flight of an event waits for `k` grants. -/
def Block.awaits (b : Block) (e : Event) (f : Flight) (k : Nat) : Block :=
  b.setPend e { b.pendOf e with fl := some { f with left := k } }

theorem Block.place_awaits (b : Block) (e : Event) {f : Flight} (k : Nat) (hf : f.frees = []) :
    (b.awaits e f k).place e = b.setPend e { b.pendOf e with p := false, fl := none } := by
  rw [Block.place_of_flight (f := { f with left := k }) (by simp [Block.awaits]) hf]
  simp [Block.awaits]

section Plain

variable {b : Block} {n : Nat} {a : Arrival} {r : Rte} {f : Flight} (hring : r.ringValid = false) (hpay : a.pay = none)
  (hq : (b.engine n).mcq = []) (hfl : (b.pendOf a.ev).fl = some f)
include hring hpay hq hfl

/-- A class that names nothing places the arrival. -/
theorem Block.routeBy_discard (hk : r.kind = 0) : b.routeBy n a r = ((b.awaits a.ev f 0).place a.ev).owe n 2 := by
  have ht : b.targets r = .none := by simp [Block.targets, hk]
  unfold Block.routeBy
  simp [ht, hring, hpay, hk, Block.joins_of_empty hq, Block.setReaders, Block.modFlight, hfl, Block.awaits]

/-- A SINGLE class queues one insert, for whose grant the arrival waits. -/
theorem Block.routeBy_single (hk : r.kind = 1) :
    b.routeBy n a r = (b.awaits a.ev f 1).enqueueIns n (insertOf a r r.target none) := by
  have ht : b.targets r = .one r.target := by simp [Block.targets, hk]
  unfold Block.routeBy
  simp [ht, hring, hpay, Block.joins_of_empty hq, Block.setReaders, Block.modFlight, hfl, Block.awaits]

/-- A REMOTE class forwards the arrival. -/
theorem Block.routeBy_remote (hk : r.kind = 4) :
    b.routeBy n a r = ((b.awaits a.ev f 0).forward n a r).getD (b.awaits a.ev f 0) := by
  have ht : b.targets r = .remote := by simp [Block.targets, hk]
  unfold Block.routeBy
  simp [ht, hring, hpay, Block.joins_of_empty hq, Block.setReaders, Block.modFlight, hfl, Block.awaits]

end Plain

/-- The engine with another VC0 lane towards a port. -/
def Engine.withVc0 (g : Engine) (p : Nat) (l : List LaneFrame) : Engine :=
  { g with lanes := g.lanes.set {} p { g.lane p with vc0 := l } }

/-- An unpinned frame joins the VC0 lane of its port, which has room (R298, R305). -/
theorem Block.forward_vc0 {b : Block} {n : Nat} {a : Arrival} {r : Rte} {pt : BitVec 2}
    (hroom : ((b.engine n).lane pt.toNat).vc0.length < 4) (hout : b.outPort r.inst = .inl pt) (hpin : r.pin = false) :
    b.forward n a r =
      some ((b.setEngine n ((b.engine n).withVc0 pt.toNat (laneIn b ((b.engine n).lane pt.toNat).vc0 (b.frameOf a r)))).owe n 3) := by
  simp [Block.forward, hout, hpin, Nat.not_le.mpr hroom, Engine.withVc0]

/-- Settles O12: the arrival that leaves the input queue meets an empty multicast queue, so its class acts on it at once; a frame finds
room in its lane, or the engine could not have acted on the arrival (R305). The performance monitor's event is what is noted. -/
theorem routingFollowsTheClass : Obligations.RoutingFollowsTheClass := by
  unfold Obligations.RoutingFollowsTheClass
  intro s n a rest f hnext hpick hf hq hin hrec hpay hbad how hfl g p r left hring
  have heff : effRouteArrival s.blk n =
      (((left.routeBy n a r).cnt48 (pgRE n) 0x068 0x06C).pmuEv 0x0A n).granted (.classBank (a.attr.cls.toNat % 16)) n := by
    rw [effRouteArrival_of_pick hnext hpick, Block.routeNext_of_class hin hrec hbad how]
  have hmcq : (left.engine n).mcq = [] := by simpa [left] using hq
  have hnotes {b : Block} (h : left.routeBy n a r = b) : Gives s (.routeArrival n) (Block.Notes [pgPMU, pgRM]
      ((b.cnt48 (pgRE n) 0x068 0x06C).granted (.classBank (a.attr.cls.toNat % 16)) n)) := by
    subst h
    exact .of_effect rfl heff ((Block.pmuEv_notes _ 0x0A n 1).granted _ n)
  refine ⟨fun hk => hnotes ?_, fun hk => hnotes ?_, fun pt hk hpin hout => hnotes ?_⟩
  · rw [Block.routeBy_discard hring hpay hmcq hfl hk, Block.place_awaits _ _ _ hf]
    rfl
  · rw [Block.routeBy_single hring hpay hmcq hfl hk]
    rfl
  · have hroom : ((s.blk.engine n).lane pt.toNat).vc0.length < 4 := Block.vc0_room_of_canRoute
      (Block.canRoute_of_next hnext hbad how) hrec hq (by simp [Block.targets, r, hk]) hpin hout
    have hlane : ((left.awaits a.ev f 0).engine n) = { g with inq := rest } := Block.engine_setEngine ..
    rw [Block.routeBy_remote hring hpay hmcq hfl hk,
      Block.forward_vc0 (b := left.awaits a.ev f 0) (by rw [hlane]; exact hroom) hout hpin, hlane]
    rfl

end Sys2Proof.Machine

namespace Sys2Proof.Machine

/-! ### Register writes that are posted (R334) -/

/-- An access of register space meets the port that serves it, or the early pages alone (Table 15-1). -/
theorem Block.modeOf_regAccess {b : Block} {pg off : Nat} {al : Alias} {id : BitVec 5} {d : Word} (hpg : pg < 128) (hoff : off < 0x1000)
    (h : (b.portMode == .serve || (b.portMode == .few && earlyPage pg)) = true) : b.modeOf (regAccess pg off al id d) = .serve := by
  have haddr : pageOf (regAccess pg off al id d).addr.toNat = pg := by
    rw [regAccess_addr al hpg hoff, pageOf_regAddr al hpg hoff]
  have hspace : (regAccess pg off al id d).space = .regs := rfl
  unfold Block.modeOf
  cases hm : b.portMode <;> simp_all

section Served

variable {b : Block} {pg off : Nat} {w : RegAcc}

/-- A register write that needs no grant, at a free port that serves it, is performed and answered. -/
theorem Block.regCmd_of_served (hpg : pg < 128) (hoff : off < 0x1000) (h4 : off % 4 = 0) (hfree : b.portFree = true)
    (hmode : b.modeOf (regAccess pg off w.als w.rid w.data) = .serve) (hadm : b.admits true w.rid pg (off / 4) true = true)
    (hask : b.regAsk pg off = .none) (hempty : (b.writeOpen w.rid pg w.als off w.data).1.fab.q = []) :
    b.regCmd pg off w =
      (b.oneSeq (b.writeOpen w.rid pg w.als off w.data).1).answer (b.writeOpen w.rid pg w.als off w.data).2 0 := by
  obtain ⟨-, hnone, -⟩ := Block.portFree_iff.mp hfree
  have hserve : (b.arrived (regAccess pg off w.als w.rid w.data)).modeOf (regAccess pg off w.als w.rid w.data) = .serve := hmode
  have hadm' : (b.arrived (regAccess pg off w.als w.rid w.data)).admits true w.rid pg (off / 4) true = true := hadm
  have hnone' : (b.arrived (regAccess pg off w.als w.rid w.data)).fab.ask = .none := hnone
  have hstep : (b.arrived (regAccess pg off w.als w.rid w.data)).portStep =
      some ((b.oneSeq (b.writeOpen w.rid pg w.als off w.data).1).answer (b.writeOpen w.rid pg w.als off w.data).2 0) := by
    rw [← Block.tryPart_regAccess hpg hoff h4 hfree (q := .none) (.inl hask)]
    unfold Block.portStep
    rw [show (b.arrived (regAccess pg off w.als w.rid w.data)).fab.q = [(regAccess pg off w.als w.rid w.data, true)] from rfl]
    simp only [hserve, Block.nextPart_regAccess hpg hoff h4, badAccess_regAccess hpg hoff h4, Block.admitsPart_regAccess hpg hoff,
      hadm', hnone', if_true]
  have hend : ((b.oneSeq (b.writeOpen w.rid pg w.als off w.data).1).answer
      (b.writeOpen w.rid pg w.als off w.data).2 0).fab.q = [] := hempty
  rw [Block.regCmd_of_free hfree, Block.servePort, hstep]
  exact Block.servePort_of_empty hend 3

end Served

theorem PgClass.posted_cases {cl : PgClass} (hp : cl.posted = true) : cl = .cpc ∨ cl = .pwr ∨ cl = .tu ∨ cl = .rm := by
  revert hp
  cases cl <;> decide

/-- The owner's access to the mailbox restarts the Ringmaster's idle time only (R378). -/
@[simp] theorem Block.mbxTouch_fab (b : Block) (id : BitVec 5) (pg off : Nat) : (b.mbxTouch id pg off).fab = b.fab := by
  unfold Block.mbxTouch
  split <;> rfl

/-- One block is another but for what the port and the Ringmaster hold: every register has its value. -/
structure Block.Abides (b c : Block) : Prop where
  rest : c = { b with fab := c.fab, rm := c.rm }
  regs : c.fab.regs = b.fab.regs
  held : c.fab.held = b.fab.held
  rgnHeld : c.fab.rgnHeld = b.fab.rgnHeld

section Abides

variable {b c : Block} (h : Block.Abides b c)
include h

theorem Block.Abides.reg (pg off : Nat) : c.reg pg off = b.reg pg off := by rw [Block.reg, h.regs, Block.reg]
theorem Block.Abides.regFld (pg off hi lo : Nat) : c.regFld pg off hi lo = b.regFld pg off hi lo := by
  rw [Block.regFld, h.reg, Block.regFld]
theorem Block.Abides.tu : c.tu = b.tu := by rw [h.rest]
theorem Block.Abides.car : c.car = b.car := by rw [h.rest]
theorem Block.Abides.clk : c.clk = b.clk := by rw [h.rest]

theorem Block.Abides.isHeld (pg : Nat) : c.isHeld pg = b.isHeld pg := by
  rw [Block.isHeld, h.held, h.car, h.rgnHeld, Block.isHeld]

end Abides

theorem Block.Abides.trans {a b c : Block} (h : Block.Abides a b) (k : Block.Abides b c) : Block.Abides a c := by
  refine ⟨?_, k.regs.trans h.regs, k.held.trans h.held, k.rgnHeld.trans h.rgnHeld⟩
  rw [k.rest, h.rest]

theorem Block.Abides.mbxTouch (b : Block) (id : BitVec 5) (pg off : Nat) : Block.Abides b (b.mbxTouch id pg off) := by
  unfold Block.mbxTouch
  split <;> exact ⟨rfl, rfl, rfl, rfl⟩

section Posted

variable {b : Block} {pg off : Nat} {cl : PgClass} {w : RegAcc} (hc : pgClass pg = some cl) (hp : cl.posted = true)
include hc hp

theorem Block.regAsk_of_posted : b.regAsk pg off = .none := by
  have hre : cl ≠ .re := by rintro rfl; cases hp
  have herw : pg ≠ pgERW := by
    rintro rfl
    cases hc
    cases hp
  simp [Block.regAsk, hc, hre, herw]

theorem Block.selBad_of_posted : b.selBad pg off = (b, false) := by
  unfold Block.selBad
  rw [hc]
  rcases PgClass.posted_cases hp with rfl | rfl | rfl | rfl <;> rfl

theorem Block.subOf_of_posted : b.subOf pg off = 0 := by
  unfold Block.subOf
  rw [hc]
  rcases PgClass.posted_cases hp with rfl | rfl | rfl | rfl <;> rfl

/-- No unit of such a page is gated. -/
theorem Block.opened_of_posted : b.opened pg off = b.relock pg := by
  have hunits : pageUnits pg off = [] := by
    unfold pageUnits
    rw [hc]
    rcases PgClass.posted_cases hp with rfl | rfl | rfl | rfl <;> rfl
  rw [Block.opened, Block.regAsk_of_posted hc hp, Block.turn_none, Block.wakeUnits, hunits]
  rfl

/-- The key has no part in what the registers of such a page read. -/
theorem Block.wval_relock_of_posted (h40 : 0x40 ≤ off) : (b.relock pg).wval pg off w = b.wval pg off w := by
  have hlow : ¬ off < 0x40 := by omega
  simp only [Block.wval, hc, Block.readReg, if_neg hlow]
  rcases PgClass.posted_cases hp with rfl | rfl | rfl | rfl <;> rfl

theorem Block.wrote_of_posted : b.wrote pg off w = ((b.relock pg).mbxTouch w.rid pg off).answer false 0 := by
  have hopen := Block.opened_of_posted (b := b) (off := off) hc hp
  rw [Block.opened] at hopen
  rw [Block.wrote, ← hopen]

/-- The write as it travels to the slow domain of its page. -/
def Block.travels (b : Block) (pg off : Nat) (w : RegAcc) : Posted :=
  { id := w.rid, off, al := w.als, val := b.stval pg off w, defer := false, old := false }

variable (h : b.posts pg off w = true)
include h

/-- Rows 6 to 8 of Table 12-3 let the write of the opened page be posted. -/
theorem Block.writeFields_of_posts :
    (b.relock pg).writeFields w.rid pg cl w.als off w.data (!(b.hdr pg).unlocked) = (b.relock pg).post pg (b.travels pg off w) := by
  simp only [Block.posts, Block.takes, Block.postedAt, hc, Bool.and_eq_true, decide_eq_true_eq, beq_iff_eq, Bool.not_eq_true',
    and_assoc] at h
  obtain ⟨-, h40, -, -, -, hpost, hen, hkey, hheld, hex, honce, hals, -, -, hpwr, hcpc, hpst, happ⟩ := h
  have hhdr : (b.relock pg).hdr pg = { b.hdr pg with unlocked := false } := Block.hdr_setHdr ..
  rw [Block.writeFields_ok (b.relock pg) _ _ _ _ _ hc h40 (by rw [hhdr, hen]) (fun hk => by simpa [hk] using hkey)
    (fun hw => (by simpa [hw] using honce : b.fab.instSet = false)) hheld hpost ?_ ?_ (by rw [Block.selBad_of_posted hc hp]) ?_ ?_]
  · rw [Block.commitWrite_posted _ _ _ _ _ _ _ hpst (by rw [hhdr, happ]), Block.wval_relock_of_posted hc hp h40]
    simp only [Block.travels, Block.stval, hc]
  · unfold Block.expertOf at hex ⊢
    rw [hhdr]
    exact hex
  · by_cases hb : w.als = .base <;> simpa [hb] using hals
  · rw [show (b.relock pg).rm = b.rm from rfl]
    rintro ⟨rfl, rfl, hgrant⟩
    simp [hgrant] at hpwr
  · rw [show (b.relock pg).clk = b.clk from rfl]
    rintro ⟨rfl, rfl, hun⟩
    simp only [hun, beq_self_eq_true, Bool.and_self] at hcpc
    cases hcpc

theorem Block.writeOpen_of_posts : b.writeOpen w.rid pg w.als off w.data =
    (((b.relock pg).post pg (b.travels pg off w)).mbxTouch w.rid pg off, false) := by
  have hfields := Block.writeFields_of_posts hc hp h
  have hopen := Block.opened_of_posted (b := b) (off := off) hc hp
  rw [Block.opened, Block.regAsk_of_posted hc hp, Block.turn_none] at hopen
  simp only [Block.posts, Block.takes, hc, Bool.and_eq_true, decide_eq_true_eq, Option.isNone_iff_eq_none, and_assoc] at h
  obtain ⟨-, h40, -, -, -, hpost, -⟩ := h
  have hcsg : cl ≠ .csg := by rintro rfl; cases hp
  have hkey : ¬ (off = 0x014 ∧ w.als = .base) := by omega
  have hlock : b.setHdr pg { b.hdr pg with unlocked := false } = b.relock pg := rfl
  have hpost' : ((b.relock pg).fab.posted.find? pg).isSome = false := by
    rw [show (b.relock pg).fab.posted = b.fab.posted from rfl, hpost]
    rfl
  unfold Block.writeOpen
  simp only [hc, hcsg, hkey, hlock, hpost', hopen, hfields, false_and, if_false, Bool.false_eq_true]

/-- A register write to which Table 12-3 has no objection is posted. -/
theorem Block.regCmd_of_posts (hoff : off < 0x1000) (h4 : off % 4 = 0) :
    b.regCmd pg off w = b.oneSeq ((b.wrote pg off w).post pg (b.travels pg off w)) := by
  have hopen := Block.writeOpen_of_posts hc hp h
  simp only [Block.posts, Block.takes, hc, Bool.and_eq_true, and_assoc] at h
  obtain ⟨hfree, -, hmode, hadm, -⟩ := h
  have hpost : ((b.relock pg).post pg (b.travels pg off w)).mbxTouch w.rid pg off =
      ((b.relock pg).mbxTouch w.rid pg off).post pg (b.travels pg off w) := by
    unfold Block.mbxTouch
    rw [apply_ite (Block.post · pg (b.travels pg off w))]
    rfl
  rw [Block.regCmd_of_served (page_lt_of_class hc) hoff h4 hfree (Block.modeOf_regAccess (page_lt_of_class hc) hoff hmode) hadm
    (Block.regAsk_of_posted hc hp), hopen, Block.wrote_of_posted hc hp, hpost]
  · rfl
  · rw [hopen, hpost]
    rw [show (((b.relock pg).mbxTouch w.rid pg off).post pg (b.travels pg off w)).fab.q =
      ((b.relock pg).mbxTouch w.rid pg off).fab.q from rfl, Block.mbxTouch_fab]
    exact (Block.portFree_iff.mp hfree).1

omit h in
theorem Block.Abides.wrote : Block.Abides b (b.wrote pg off w) := by
  rw [Block.wrote_of_posted hc hp]
  have hlock : Block.Abides b (b.relock pg) := ⟨rfl, rfl, rfl, rfl⟩
  exact (hlock.trans (.mbxTouch (b.relock pg) w.rid pg off)).trans ⟨rfl, rfl, rfl, rfl⟩

end Posted

/-- A posted write lands with what the page makes of its value. -/
theorem effPostedLand_of_travels {b c : Block} {pg off : Nat} {cl : PgClass} {w : RegAcc} {f : Block → Block}
    (hc : pgClass pg = some cl) (hp : cl.posted = true) (hrm : pg ≠ pgRM) (h : b.posts pg off w = true) (hbc : Block.Abides b c)
    (hpost : c.fab.posted.find? pg = some (b.travels pg off w))
    (hf : ∀ d, Block.Abides b d → d.applyReg w.rid pg cl w.als off 0 (b.stval pg off w) false = f d) :
    effPostedLand c pg = c.oneSeq (f (c.unpost pg)) := by
  have hheld : b.isHeld pg = false := by
    simp only [Block.posts, Block.takes, hc, Bool.and_eq_true, Bool.not_eq_true', and_assoc] at h
    obtain ⟨-, -, -, -, -, -, -, -, hheld, -⟩ := h
    exact hheld
  rw [effPostedLand_now c pg _ cl hc (fun hn => hrm hn.1) hpost rfl ((hbc.isHeld pg).trans hheld), Block.subOf_of_posted hc hp]
  exact congrArg c.oneSeq (hf _ (hbc.trans ⟨rfl, rfl, rfl, rfl⟩))

/-- A register write to which Table 12-3 has no objection is posted and lands. -/
theorem Lands.of_posts {s : State} {c : Instr} {pg off : Nat} {cl : PgClass} {w : RegAcc} {f : Block → Block}
    (hc : pgClass pg = some cl) (hp : cl.posted = true) (e : exec c s = .next { s with blk := s.blk.regCmd pg off w })
    (hoff : off < 0x1000) (h4 : off % 4 = 0) (h : s.blk.posts pg off w = true) (hrm : pg ≠ pgRM)
    (hf : ∀ b, Block.Abides s.blk b → b.applyReg w.rid pg cl w.als off 0 (s.blk.stval pg off w) false = f b) :
    Lands s c pg off w f := by
  have hpage : (BitVec.ofNat 7 pg).toNat = pg := by
    have := page_lt_of_class hc
    simp only [BitVec.toNat_ofNat]
    omega
  refine ⟨.of_effect e (Block.regCmd_of_posts hc hp h hoff h4),
    .of_effect (b := effPostedLand _ (BitVec.ofNat 7 pg).toNat) rfl ?_⟩
  rw [hpage]
  exact effPostedLand_of_travels hc hp hrm h ((Block.Abides.wrote hc hp).trans ⟨rfl, rfl, rfl, rfl⟩) (Map.find?_insert_self _ _ _) hf

end Sys2Proof.Machine

namespace Sys2Proof.Machine

/-! ### The writes that steer GT (R174 to R176, R181) -/

theorem pgClass_tu : pgClass pgTU = some .tu := rfl

theorem defOf_tu_ctl : defOf .tu 0x040 = { rw := 0x1F, key := true, pst := true } := by decide
theorem defOf_tu_adj : defOf .tu 0x054 = { rw := 0xFFFFFFFF, pst := true } := by decide
theorem defOf_tu_step : defOf .tu 0x05C = { rw := 0xFFFFFFFF, key := true, pst := true } := by decide
theorem defOf_tu_set : defOf .tu 0x064 = { rw := 0xFFFFFFFF, key := true, pst := true } := by decide

/-- A register of the time unit that the write takes whole. -/
theorem Block.store_tu {b : Block} {off : Nat} (h : (defOf .tu off).rw = 0xFFFFFFFF) (v : Word) :
    b.store pgTU .tu off v = b.setReg pgTU off v := by
  rw [Block.store, h, blend_ones]

/-- A posted write of the time unit's page. -/
theorem Lands.of_posts_tu {s : State} {c : Instr} {off : Nat} {w : RegAcc} {f : Block → Block}
    (e : exec c s = .next { s with blk := s.blk.regCmd pgTU off w }) (hoff : off < 0x1000) (h4 : off % 4 = 0)
    (h : s.blk.posts pgTU off w = true) (hf : ∀ b, Block.Abides s.blk b → b.applyTu off (s.blk.stval pgTU off w) = f b) :
    Lands s c pgTU off w f :=
  .of_posts pgClass_tu rfl e hoff h4 h (by decide) hf

section NotFollowing

variable {b : Block} (h : b.tuFollow = false) (v : Word)
include h

theorem Block.applyTu_adj : b.applyTu 0x054 v = (b.setReg pgTU 0x054 v).setFreqAdj := by
  simp only [Block.applyTu, h, Block.store_tu (congrArg RegDef.rw defOf_tu_adj), Bool.false_eq_true, if_false]

theorem Block.applyTu_step : b.applyTu 0x05C v = (b.setReg pgTU 0x05C v).stepTime := by
  simp only [Block.applyTu, h, Block.store_tu (congrArg RegDef.rw defOf_tu_step), Bool.false_eq_true, if_false]

theorem Block.applyTu_set : b.applyTu 0x064 v = (b.setReg pgTU 0x064 v).setTime := by
  simp only [Block.applyTu, h, Block.store_tu (congrArg RegDef.rw defOf_tu_set), Bool.false_eq_true, if_false]

end NotFollowing

/-- The GT that a step sets is what a scheduled period is taken anew from (R186). -/
theorem Block.stepGt_eq (b : Block) (ns : Gt) (frac : BitVec 48) : b.stepGt ns frac = { b with
    tu := { b.tu with ns, frac }
    car := { b.car with stepped := true, incomplete := true, takeAt := b.retake ns } } := rfl

section Abides

variable {b c : Block} (h : Block.Abides b c) (v : Word)
include h

theorem Block.Abides.tuFollow : c.tuFollow = b.tuFollow := by rw [Block.tuFollow, h.regFld, Block.tuFollow]

theorem Block.Abides.reg_setReg_tu {off off' : Nat} (hoff : off < 4096) (hoff' : off' < 4096) (hne : off' ≠ off) :
    (c.setReg pgTU off v).reg pgTU off' = b.reg pgTU off' := by
  rw [Block.reg_setReg_ne _ _ hoff hoff' (.inr hne), h.reg]

/-- A register of the time unit has no part in when a scheduled period is taken. -/
theorem Block.Abides.retake_setReg {off : Nat} (hoff : off < 4096) (ns : Gt) : (c.setReg pgTU off v).retake ns = b.retake ns := by
  have hnext : (c.setReg pgTU off v).regFld pgCAR 0x040 12 0 = b.regFld pgCAR 0x040 12 0 := by
    rw [Block.regFld, Block.reg_setReg_ne _ _ hoff (by decide) (.inl (by decide)), h.reg, Block.regFld]
  have hdue : (c.setReg pgTU off v).periodDue = b.periodDue := by
    rw [Block.periodDue, Block.gt, Block.setReg_car, Block.setReg_clk, h.car, h.clk, Block.periodDue, Block.gt]
  rw [Block.retake, hnext, hdue, Block.setReg_car, h.car, Block.retake]

/-- The adjustment takes effect with the held high byte (R174). -/
theorem Block.Abides.setFreqAdj : (c.setReg pgTU 0x054 v).setFreqAdj =
    let raw : Int := ((b.regFld pgTU 0x058 7 0) ++ v : BitVec 40).toInt
    let d : Block := { c.setReg pgTU 0x054 v with tu := { c.tu with adj := BitVec.ofInt 40 (adjClamp raw) } }
    if adjClamp raw = raw then d.makeValid else (d.flag pgTU 5).makeValid := by
  rw [Block.setFreqAdj, Block.regFld, h.reg_setReg_tu v (by decide) (by decide) (by decide), Block.reg_setReg]
  exact apply_ite Block.makeValid _ _ _

/-- GT moves by the step with the held high half (R175). -/
theorem Block.Abides.stepTime : (c.setReg pgTU 0x05C v).stepTime =
    let step : BitVec 48 := b.regFld pgTU 0x060 15 0 ++ v
    let t := b.tu.withFull (b.tu.full + step.toInt * 2 ^ 32)
    (({ c.setReg pgTU 0x05C v with
        tu := { c.tu with ns := t.ns, frac := t.frac }
        car := { c.car with stepped := true, incomplete := true, takeAt := b.retake t.ns } } : Block).flag pgTU 3).makeValid := by
  rw [Block.stepTime, Block.regFld, h.reg_setReg_tu v (by decide) (by decide) (by decide), Block.reg_setReg, Block.stepGt_eq,
    h.retake_setReg v (by decide), Block.setReg_tu, h.tu]
  rfl

/-- GT takes the value written with the held high word (R176). -/
theorem Block.Abides.setTime : (c.setReg pgTU 0x064 v).setTime =
    let ns : Gt := b.reg pgTU 0x068 ++ v
    (({ c.setReg pgTU 0x064 v with
        tu := { c.tu with ns, frac := 0, gtStopped := false }
        car := { c.car with stepped := true, incomplete := true, takeAt := b.retake ns } } : Block).flag pgTU 4).makeValid := by
  rw [Block.setTime, h.reg_setReg_tu v (by decide) (by decide) (by decide), Block.reg_setReg, Block.stepGt_eq,
    h.retake_setReg v (by decide)]
  rfl

end Abides

theorem TimeUnit.with_no_holdover {t : TimeUnit} (h : t.holdover = false) (k : t.silent = false) :
    { t with holdover := false, silent := false } = t := by
  cases t
  cases h
  cases k
  rfl

/-- Outside HOLDOVER there is none to leave. -/
theorem Block.leaveHoldover_of_none {b : Block} (h : b.tu.holdover = false) (k : b.tu.silent = false) : b.leaveHoldover = b := by
  rw [Block.leaveHoldover, TimeUnit.with_no_holdover h k]

/-- A write of TU_CTL that names the reference in use, with FOLLOW off and no HOLDOVER, restarts the follower's counts only (R178, R181). -/
theorem Block.tuCtlSet_of_used {b : Block} (hfol : b.tuFollow = false) (href : b.tuRef = b.clk.tRefUsed) (hlock : b.clk.lockT = true)
    (hhold : b.tu.holdover = false) (hsil : b.tu.silent = false) :
    b.tuCtlSet = { b with tu := { b.tu with goodRevs := 0, badRevs := 0, remove := 0, removeLeft := 0 } } := by
  have hleave : ({ b with tu := { b.tu with goodRevs := 0, badRevs := 0, remove := 0, removeLeft := 0 } } : Block).leaveHoldover =
      { b with tu := { b.tu with goodRevs := 0, badRevs := 0, remove := 0, removeLeft := 0 } } :=
    Block.leaveHoldover_of_none hhold hsil
  unfold Block.tuCtlSet
  simp only [hfol, href, hlock, hleave, Bool.false_eq_true, if_false, decide_true, Bool.and_self, if_true, ite_self]

/-- Of what is blended in, only the bits of the mask count. -/
theorem blend_and_mask {w : Nat} (m x y : BitVec w) : blend m x (y &&& m) = blend m x y := by
  rw [blend, BitVec.and_assoc, BitVec.and_self, blend]

/-- With FOLLOW 0 the register stores the five fields as they are written. -/
theorem Block.stval_tuCtl {b : Block} {w : RegAcc} (ha : w.als = .base) (hfol : fld w.data 2 1 = 0) :
    b.stval pgTU 0x040 w = w.data &&& 0x1F := by
  have hbit : bit (w.data &&& 0x1F) 2 = false := by
    have := congrArg (·.getLsbD 1) hfol
    simpa [bit, fld] using this
  have hmask : (0x1F : Word) ||| 0 = 0x1F := by decide
  simp only [Block.stval, pgClass_tu, Block.wval_base _ _ _ _ _ pgClass_tu ha, defOf_tu_ctl, hmask]
  exact if_neg (ne_true_of_eq_false hbit)

/-- Settles O32: each of the four writes is posted, and where it lands the page acts with the halves and the reference that the block
held when it was posted. -/
theorem timeRegistersSteerGt : Obligations.TimeRegistersSteerGt := by
  unfold Obligations.TimeRegistersSteerGt
  refine ⟨fun s w h hfol => ?_, fun s w h hfol => ?_, fun s w h hfol => ?_, fun s w ha h hfol href hlock hhold hsil => ?_⟩
  · exact .of_posts_tu rfl (by decide) (by decide) h fun b hb =>
      (Block.applyTu_adj (hb.tuFollow.trans hfol) _).trans (hb.setFreqAdj _)
  · exact .of_posts_tu rfl (by decide) (by decide) h fun b hb =>
      (Block.applyTu_step (hb.tuFollow.trans hfol) _).trans (hb.stepTime _)
  · exact .of_posts_tu rfl (by decide) (by decide) h fun b hb =>
      (Block.applyTu_set (hb.tuFollow.trans hfol) _).trans (hb.setTime _)
  · refine .of_posts_tu rfl (by decide) (by decide) h fun b hb => ?_
    have hctl : (b.setReg pgTU 0x040 (blend 0x1F (s.blk.reg pgTU 0x040) w.data)).reg pgTU 0x040 =
        blend 0x1F (s.blk.reg pgTU 0x040) w.data := Block.reg_setReg ..
    have hput : b.applyTu 0x040 (w.data &&& 0x1F) =
        (b.setReg pgTU 0x040 (blend 0x1F (s.blk.reg pgTU 0x040) w.data)).tuCtlSet := by
      simp only [Block.applyTu, Block.store, defOf_tu_ctl, blend_and_mask, hb.reg]
    rw [Block.stval_tuCtl ha hfol, hput]
    refine Block.tuCtlSet_of_used ?_ ?_ ?_ ?_ ?_
    · rw [Block.tuFollow, Block.regFld, hctl, fld_blend_of_ones _ _ (by decide), hfol]
      rfl
    · rw [Block.tuRef, Block.regBit, hctl, Block.setReg_clk, hb.clk, ← href]
      simp [bit, blend]
    · rw [Block.setReg_clk, hb.clk, hlock]
    · rw [Block.setReg_tu, hb.tu, hhold]
    · rw [Block.setReg_tu, hb.tu, hsil]

end Sys2Proof.Machine

namespace Sys2Proof.Machine

/-! ### A register read at a free port (R324, R326) -/

theorem getLsbD_lowLanes : ∀ i < 32, (0xFFFFFFFF#64).getLsbD i = true := by decide
theorem getLsbD_highLanes : ∀ i < 32, (0xFFFFFFFF00000000#64).getLsbD (i + 32) = true := by decide

/-- A register read stands alone at the port. -/
def Block.reading (b : Block) (a : Access) : Block := { b with fab := { b.fab with q := [(a, false)] } }

section Read

variable {b : Block} {pg off : Nat} {al : Alias} {id : BitVec 5} {d : Word}

/-- The lanes that a read of one register shows are those of its offset. -/
theorem inLane_and_laneMask (v : Word) (h4 : off % 4 = 0) :
    inLane (regAddr pg off al) v &&& laneMask (regAddr pg off al) 2 = inLane off v := by
  have hlane : regAddr pg off al % 8 = off % 8 := by
    unfold regAddr
    omega
  refine BitVec.eq_of_getLsbD_eq fun i hi => ?_
  simp only [inLane, laneMask, hlane]
  rcases (show off % 8 = 0 ∨ off % 8 = 4 by omega) with h | h
  · simp only [h, Nat.ofNat_pos, if_true]
    simpa [hi] using fun hv => getLsbD_lowLanes i (BitVec.lt_of_getLsbD hv)
  · have hhigh : 32 ≤ i → v.getLsbD (i - 32) = true → (0xFFFFFFFF00000000#64).getLsbD i = true := fun hle hv => by
      rw [← Nat.sub_add_cancel hle]
      exact getLsbD_highLanes _ (BitVec.lt_of_getLsbD hv)
    simp only [h, Nat.lt_irrefl, if_false]
    simpa [hi, at'] using hhigh

variable (hpg : pg < 128) (hoff : off < 0x1000) (h4 : off % 4 = 0)
include hpg hoff h4

/-- One register read, behind the Turnstile and with nothing before it, is performed and answered in the lanes of its offset. -/
theorem Block.doPart_read (hfree : b.portFree = true) :
    (b.reading (regAccess pg off al id d)).doPart (regAccess pg off al id d) false (regAddr pg off al)
        (·.openPart (regAccess pg off al id d) false (regAddr pg off al)) =
      (b.oneSeq (b.readOpen id pg off).1).answer (b.readOpen id pg off).2.1 (inLane off (b.readOpen id pg off).2.2) := by
  obtain ⟨hq, -, hdone⟩ := Block.portFree_iff.mp hfree
  have hpop : (b.reading (regAccess pg off al id d)).popHead = b := by
    simp only [Block.popHead, Block.reading, List.drop_succ_cons, List.drop_zero, ← hq, ← hdone]
  have hopen : b.openPart (regAccess pg off al id d) false (regAddr pg off al) = b.readOpen id pg off := by
    have hread : b.openPart (regAccess pg off al id d) false (regAddr pg off al) =
        b.readOpen id (pageOf (regAddr pg off al)) (offOf (regAddr pg off al)) := rfl
    rw [hread, pageOf_regAddr al hpg hoff, offOf_regAddr al hoff h4]
  have hmask : laneMask (regAccess pg off al id d).addr.toNat (regAccess pg off al id d).size.toNat = laneMask (regAddr pg off al) 2 := by
    rw [regAccess_addr al hpg hoff]
    rfl
  have hone : ((regAccess pg off al id d).size.toNat = 3) = False := by simp [regAccess]
  have hdone' : (b.reading (regAccess pg off al id d)).fab.done = none := hdone
  unfold Block.doPart
  simp only [hpop, hopen, hdone', hmask, hone]
  simp [Block.answer, inLane_and_laneMask _ h4]

/-- A register read that the Turnstile admits, at a free port that serves it, is performed and answered. -/
theorem Block.access_of_read (hfree : b.portFree = true) (hmode : b.modeOf (regAccess pg off al id d) = .serve)
    (hadm : b.admits true id pg (off / 4) false = true) (hempty : (b.readOpen id pg off).1.fab.q = []) :
    b.access (regAccess pg off al id d) false =
      (b.oneSeq (b.readOpen id pg off).1).answer (b.readOpen id pg off).2.1 (inLane off (b.readOpen id pg off).2.2) := by
  obtain ⟨hq, hnone, -⟩ := Block.portFree_iff.mp hfree
  have hserve : (b.reading (regAccess pg off al id d)).modeOf (regAccess pg off al id d) = .serve := hmode
  have hbad : badAccess (regAccess pg off al id d) false = none := badAccess_regAccess (al := al) (id := id) (d := d) hpg hoff h4
  have hadm' : (b.reading (regAccess pg off al id d)).admitsPart (regAccess pg off al id d) false (regAddr pg off al) = true := by
    have htpn : tpnOf (regAccess pg off al id d) (regAddr pg off al) = pg := pageOf_regAddr al hpg hoff
    rw [Block.admitsPart, htpn, regAddr_mod al hoff]
    exact hadm
  have hnone' : (b.reading (regAccess pg off al id d)).fab.ask = .none := hnone
  have hask : (b.reading (regAccess pg off al id d)).partAsk (regAccess pg off al id d) false (regAddr pg off al) = .none := rfl
  have hstep : (b.reading (regAccess pg off al id d)).portStep =
      some ((b.oneSeq (b.readOpen id pg off).1).answer (b.readOpen id pg off).2.1 (inLane off (b.readOpen id pg off).2.2)) := by
    rw [← Block.doPart_read (al := al) (d := d) hpg hoff h4 hfree]
    unfold Block.portStep
    rw [show (b.reading (regAccess pg off al id d)).fab.q = [(regAccess pg off al id d, false)] from rfl]
    simp only [hserve, Block.nextPart_regAccess hpg hoff h4, hbad, hadm', hnone', if_true, Block.tryPart, hask, decide_true, Bool.true_or]
  have hrun : b.access (regAccess pg off al id d) false = (b.reading (regAccess pg off al id d)).servePort 4 := by
    simp [Block.access, regAccess, Block.runPort, Block.reading, hq]
  have hend : ((b.oneSeq (b.readOpen id pg off).1).answer (b.readOpen id pg off).2.1
      (inLane off (b.readOpen id pg off).2.2)).fab.q = [] := hempty
  rw [hrun, Block.servePort, hstep]
  exact Block.servePort_of_empty hend 3

end Read

end Sys2Proof.Machine

namespace Sys2Proof.Machine

/-! ### The windows close (R192, R203) -/

theorem Map.drop_of_look_eq_none {α : Type} {l : List (Nat × α)} {i : Nat} (h : Map.look l i = none) : Map.drop l i = l := by
  induction l with
  | nil => rfl
  | cons x l ih =>
    obtain ⟨j, v⟩ := x
    by_cases hj : j = i
    · simp [Map.look, hj] at h
    · simp only [Map.look, if_neg hj] at h
      simp only [Map.drop, if_neg hj, ih h]

/-- Nothing is left of a list whose every number is dropped. -/
theorem Map.foldl_drop_eq_nil {α β : Type} (l : List (Nat × β)) (m : List (Nat × α)) (h : ∀ q ∈ m, ∃ p ∈ l, p.1 = q.1) :
    l.foldl (fun m p => Map.drop m p.1) m = [] := by
  induction l generalizing m with
  | nil => exact List.eq_nil_iff_forall_not_mem.2 fun q hq => by simpa using h q hq
  | cons x l ih =>
    refine ih _ fun q hq => ?_
    obtain ⟨p, hp, hpq⟩ := h q (Map.mem_drop m x.1 q hq)
    rcases List.mem_cons.1 hp with rfl | hp
    · exact absurd hpq.symm (Map.drop_ne m p.1 q hq)
    · exact ⟨p, hp, hpq⟩

theorem Block.flush_fab (b : Block) (r : RingNo) (prio : Prio) : (b.flush r prio).fab = b.fab := by
  unfold Block.flush
  dsimp only
  split <;> rfl

theorem Block.flush_car (b : Block) (r : RingNo) (prio : Prio) : (b.flush r prio).car = b.car := by
  unfold Block.flush
  dsimp only
  split <;> rfl

theorem Block.closeWindow_windows (b : Block) (r : RingNo) (why : Nat) :
    (b.closeWindow r why).car.windows = b.car.windows.erase r.toNat := by
  unfold Block.closeWindow
  split
  next h => exact congrArg Map.mk (Map.drop_of_look_eq_none h).symm
  next => rw [Block.flush_car]; rfl

theorem Block.closeWindow_queue (b : Block) (r : RingNo) (why : Nat) : (b.closeWindow r why).fab.q = b.fab.q := by
  unfold Block.closeWindow
  split
  · rfl
  · rw [Block.flush_fab]; rfl

/-- A window that closes counts in the register of its way only. -/
theorem Block.closeWindow_reg (b : Block) (r : RingNo) {why off : Nat} (hwhy : why < 4096) (hoff : off < 4096) (hne : off ≠ why)
    (pg : Nat) : (b.closeWindow r why).reg pg off = b.reg pg off := by
  unfold Block.closeWindow
  split
  · rfl
  next w _ =>
    have hcnt := Block.reg_setReg_ne { b with car := { b.car with windows := b.car.windows.erase r.toNat } }
      (satAdd (b.reg pgCAR why) 1) hwhy hoff (.inr hne) (pg := pgCAR) (pg' := pg)
    rw [Block.reg, Block.flush_fab]
    exact hcnt

/-- What every window that closes keeps, the flush of all windows keeps. -/
theorem Block.flushWindows_keeps {α : Type} (f : Block → α) (h : ∀ b r, f (Block.closeWindow b r flushExp) = f b) (b : Block) :
    f b.flushWindows = f b := by
  unfold Block.flushWindows
  generalize b.car.windows.cells = l
  induction l generalizing b with
  | nil => rfl
  | cons x l ih => exact (ih _).trans (h b _)

/-- A flush of every window of a ring number leaves none open. -/
theorem Block.flushWindows_windows {b : Block} (h : ∀ q ∈ b.car.windows.cells, q.1 < 16384) : b.flushWindows.car.windows.cells = [] := by
  have hfold : ∀ (l : List (Nat × Window)) (c : Block), (∀ q ∈ l, q.1 < 16384) →
      (l.foldl (fun c p => c.closeWindow (BitVec.ofNat 14 p.1) flushExp) c).car.windows.cells =
        l.foldl (fun m p => Map.drop m p.1) c.car.windows.cells := by
    intro l
    induction l with
    | nil => exact fun _ _ => rfl
    | cons x l ih =>
      intro c hl
      have hx : (BitVec.ofNat 14 x.1).toNat = x.1 := by
        have := hl x (by simp)
        simp only [BitVec.toNat_ofNat]
        omega
      rw [List.foldl_cons, ih _ fun q hq => hl q (by simp [hq]), Block.closeWindow_windows, hx]
      rfl
  rw [Block.flushWindows, hfold _ _ h]
  exact Map.foldl_drop_eq_nil _ _ fun q hq => ⟨q, hq, rfl⟩

/-! ### Writes of the Carousel's page -/

theorem pgClass_car : pgClass pgCAR = some .car := rfl

theorem defOf_car_period : defOf .car 0x040 = { rw := 0x1FFF, reset := 250, key := true, atOnce := true, expert := 0x1FFF } := by decide
theorem defOf_car_ctl : defOf .car 0x050 = { rw := 0x7, reset := 0x6, expert := 0x1 } := by decide

/-- No unit of the Carousel's page is gated. -/
theorem Block.opened_car (b : Block) (off : Nat) : b.opened pgCAR off = b.relock pgCAR := by
  rw [Block.opened, Block.regAsk_of_plain pgClass_car rfl, Block.turn_none]
  rfl

theorem Block.wrote_car (b : Block) (off : Nat) (w : RegAcc) : b.wrote pgCAR off w = (b.relock pgCAR).answer false 0 := by
  rw [Block.wrote_of_plain pgClass_car rfl, Block.opened_car]

theorem Block.slotNext_queue (b : Block) : b.slotNext.fab.q = b.fab.q := by
  unfold Block.slotNext
  dsimp only
  split <;> rfl

theorem Block.applyCar_queue (b : Block) (off : Nat) (v : Word) (defer : Bool) : (b.applyCar off v defer).fab.q = b.fab.q := by
  unfold Block.applyCar
  split
  · rfl
  · exact Block.slotNext_queue _
  · split
    · rfl
    · exact Block.flushWindows_keeps (·.fab.q) (fun c r => Block.closeWindow_queue c r flushExp) _
  · rfl

/-- A write of the Carousel's page that meets no obstacle. -/
theorem Puts.of_writes_car {s : State} {i : Instr} {off : Nat} {w : RegAcc} {r : Block}
    (e : exec i s = .next { s with blk := s.blk.regCmd pgCAR off w }) (h40 : 0x40 ≤ off) (hoff : off < 0x1000) (h4 : off % 4 = 0)
    (h : s.blk.writes pgCAR off w = true)
    (hr : ((s.blk.relock pgCAR).applyCar off (s.blk.stval pgCAR off w) false).answer false 0 = r) : Puts s i r := by
  have hlow : ¬ off < 0x40 := by omega
  have hval : (s.blk.relock pgCAR).wval pgCAR off w = s.blk.wval pgCAR off w := by
    simp only [Block.wval, pgClass_car, Block.readReg, if_neg hlow]
    rfl
  refine .of_writes pgClass_car rfl e hoff h4 h (fun b => Block.applyCar_queue b off _ false) ?_
  rw [Block.opened_car, hval]
  exact hr

theorem Block.stval_car_base {b : Block} {off : Nat} {w : RegAcc} (ha : w.als = .base) :
    b.stval pgCAR off w = w.data &&& ((defOf .car off).rw ||| (defOf .car off).wo) := by
  simp only [Block.stval, pgClass_car, Block.wval_base _ _ _ _ _ pgClass_car ha, storedVal]

/-- NEXT is stored within its range, and taken at the first of its multiples from now on (R186). -/
theorem Block.applyCar_period (b : Block) (d : Word) : b.applyCar 0x040 (d &&& 0x1FFF) false =
    let next := max 64 (min 4096 (fld d 12 0).toNat)
    { b.setReg pgCAR 0x040 (BitVec.ofNat 32 next) with
      car := { b.car with pend := true, takeAt := BitVec.ofNat 64 (takeGt b.gt.toNat next) } } := by
  have hnext : fld (blend 0x1FFF (b.reg pgCAR 0x040) (d &&& 0x1FFF)) 12 0 = fld d 12 0 := by
    rw [blend_and_mask, fld_blend_of_ones _ _ (by decide)]
  simp only [Block.applyCar, Block.store, defOf_car_period, Block.schedule, Block.reg_setReg, hnext, Block.setReg_setReg]
  rfl

/-- CAR_CTL with the bits written to it. -/
def Block.ctlStored (b : Block) (d : Word) : Block := b.setReg pgCAR 0x050 (blend 7 (b.reg pgCAR 0x050) d)

/-- COAL_EN = 0 closes every window (R192). -/
theorem Block.applyCar_ctl (b : Block) (d : Word) :
    b.applyCar 0x050 (d &&& 7) false = if bit d 2 then b.ctlStored d else (b.ctlStored d).flushWindows := by
  have hbit : bit (d &&& 7) 2 = bit d 2 := by simp [bit]
  simp only [Block.applyCar, Block.store, defOf_car_ctl, blend_and_mask, hbit]
  rfl

/-- A write of CAR_CTL that meets no obstacle. -/
theorem Puts.of_writes_carCtl {s : State} {w : RegAcc} {r : Block} (ha : w.als = .base) (h : s.blk.writes pgCAR 0x050 w = true)
    (hr : (if bit w.data 2 then (s.blk.relock pgCAR).ctlStored w.data
      else ((s.blk.relock pgCAR).ctlStored w.data).flushWindows).answer false 0 = r) : Puts s (.carCtlWrite w) r := by
  refine .of_writes_car rfl (by decide) (by decide) (by decide) h ?_
  rw [Block.stval_car_base ha, defOf_car_ctl, show ((7 : Word) ||| 0) = 7 by decide, Block.applyCar_ctl]
  exact hr

theorem Block.slotNext_answer (b : Block) (err : Bool) (v : BitVec 64) : (b.answer err v).slotNext = b.slotNext.answer err v := by
  simp only [Block.slotNext, apply_ite (Block.answer · err v)]
  rfl

/-- A read of CAR_SLOT_DATA shows the indexed word and advances the index (R190). -/
theorem Block.readOpen_slotData {b : Block} (rid : BitVec 5) (hpost : b.fab.posted.find? pgCAR = none)
    (hheld : ∀ x ∈ b.fab.held, x.pg ≠ pgCAR) :
    b.readOpen rid pgCAR 0x04C = (b.slotNext, false, b.slotWord b.slotIdx) := by
  have hnone : b.fab.held.find? (fun h => h.pg == pgCAR && h.off == 0x04C && h.sub == b.subOf pgCAR 0x04C) = none := by
    rw [List.find?_eq_none]
    intro x hx
    simp [hheld x hx]
  have hwait : b.waiting pgCAR 0x04C = none := by
    rw [Block.waiting, hnone, hpost]
    rfl
  have hread : b.readReg rid pgCAR .car 0x04C = b.slotWord b.slotIdx := by
    rw [Block.readReg, hwait]
    rfl
  have hopen : b.readOpen rid pgCAR 0x04C = (b.slotNext, false, b.readReg rid pgCAR .car 0x04C) := rfl
  rw [hopen, hread]

/-- Settles O31: a write of the Carousel's page is its effect and the port's answer; a read shows the word that the index selects; a
flush closes each window in turn. -/
theorem carouselRegisterWrites : Obligations.CarouselRegisterWrites := by
  unfold Obligations.CarouselRegisterWrites
  refine ⟨fun s w ha h => ?_, fun s w h => ?_, fun s rid hfree hmode hadm hpost hheld => ?_, fun s w ha h => ?_⟩
  · refine .of_writes_car rfl (by decide) (by decide) (by decide) h ?_
    rw [Block.wrote_car, Block.stval_car_base ha, defOf_car_period, show ((0x1FFF : Word) ||| 0) = 0x1FFF by decide,
      Block.applyCar_period]
    rfl
  · refine .of_writes_car rfl (by decide) (by decide) (by decide) h ?_
    rw [Block.wrote_car]
    exact (Block.slotNext_answer _ _ _).symm
  · have hread := Block.readOpen_slotData rid hpost hheld
    refine .of_effect rfl ((Block.access_of_read (by decide) (by decide) (by decide) hfree
      (Block.modeOf_regAccess (by decide) (by decide) (by simp [hmode])) hadm ?_).trans ?_)
    · rw [hread]
      exact (Block.slotNext_queue _).trans (Block.portFree_iff.mp hfree).1
    · rw [hread]
      rfl
  · refine ⟨fun hen => .of_writes_carCtl ha h ?_, fun hen hall => ⟨_, Puts.of_writes_carCtl ha h rfl, rfl, ?_⟩⟩
    · rw [if_pos hen, Block.wrote_car]
      rfl
    · have hkeep := Block.flushWindows_keeps (·.reg pgCAR 0x050)
        (fun c r => Block.closeWindow_reg c r (by decide) (by decide) (by decide) pgCAR) ((s.blk.relock pgCAR).ctlStored w.data)
      rw [hen, Block.wrote_car]
      exact ⟨Block.flushWindows_windows hall, hkeep, rfl⟩

end Sys2Proof.Machine

namespace Sys2Proof.Machine

/-! ### HOLDOVER of a follower that hears nothing (R181) -/

/-- The HOLDOVER is one that missing frames alone have set. -/
def Block.silenced (b : Block) : Block := { b with tu := { b.tu with silent := true } }

theorem Block.rmLog_silenced (b : Block) (cls code : BitVec 8) (src : BitVec 16) (data : BitVec 128) :
    b.silenced.rmLog cls code src data = (b.rmLog cls code src data).silenced := by
  simp only [Block.rmLog, apply_ite Block.silenced]
  rfl

theorem Block.even_silenced (b : Block) (pg : Nat) (m : BitVec 24) : b.silenced.even pg m = (b.even pg m).silenced := by
  have hlog : b.silenced.evenLog pg = (b.evenLog pg).silenced := Block.rmLog_silenced b _ _ _ _
  simp only [Block.even, apply_ite Block.silenced, hlog]
  rfl

/-- A flag is set before or after the mark. -/
theorem Block.flag_silenced (b : Block) (pg i : Nat) : b.silenced.flag pg i = (b.flag pg i).silenced := by
  simp only [Block.flag, Block.raise, apply_ite Block.silenced, ← Block.even_silenced]
  rfl

theorem Block.loseValid_silenced (b : Block) : b.silenced.loseValid = b.loseValid.silenced := by
  simp only [Block.loseValid, apply_ite Block.silenced, ← Block.flag_silenced]
  rfl

/-- Eight revolutions without a frame set HOLDOVER and end VALID. -/
theorem effFollowHoldover_of_silence {b : Block} (hfol : b.tuFollow = true) (hbad : 8 ≤ b.tu.badRevs) (hhold : b.tu.holdover = false) :
    effFollowHoldover b = (({ b with tu := { b.tu with holdover := true, silent := true } } : Block).flag pgTU 1).loseValid := by
  have henter : b.enterHoldover = (({ b with tu := { b.tu with silent := false, holdover := true } } : Block).flag pgTU 1).loseValid := by
    simp only [Block.enterHoldover, hhold, Bool.false_eq_true, if_false]
  have hmark : effFollowHoldover b = b.enterHoldover.silenced := by
    simp only [effFollowHoldover, hfol, hbad, hhold, decide_true, Bool.and_self, if_true, Bool.false_eq_true, if_false]
    rfl
  rw [hmark, henter, ← Block.loseValid_silenced, ← Block.flag_silenced]
  rfl

/-! ### Timers (R195 to R197) -/

/-- A timer in the bucket of the next slot, or an earlier one, takes a free comparator. -/
theorem effTimerFineLoad_of_bucket {b : Block} {c : CtxNo} {x : Ctx} {k : Nat} (hon : b.dpOn = true) (hx : b.rec? c = some x)
    (hloc : x.loc = .bucket k) (hk : k ≤ b.car.n + 1) (hfree : b.fineCount < 256) :
    effTimerFineLoad b c = ((b.setRec c { x with loc := .fine }).pmuEv 0x19 0).lagEnd := by
  have hnot : (!b.dpOn || decide (b.car.n + 1 < k) || decide (256 ≤ b.fineCount)) = false := by
    simp [hon, hk, hfree]
  simp only [effTimerFineLoad, hx, hloc, hnot, Bool.false_eq_true, if_false]

/-- With no overrun being measured none ends. -/
theorem Block.lagEnd_of_none {b : Block} (h : b.car.lagAt = none) : b.lagEnd = b := by rw [Block.lagEnd, h]

/-- The comparator of an armed timer fires at its deadline. -/
theorem effTimerFire_of_due {b : Block} {c : CtxNo} {x : Ctx} (hon : b.dpOn = true) (hx : b.rec? c = some x) (hloc : x.loc = .fine)
    (harm : x.tarm = true) (hdue : x.tdl.toNat ≤ b.gt.toNat) (hen : b.regBit pgCAR 0x050 1 = true) :
    effTimerFire b c =
      if 64 < b.dclkIn (b.gt.toNat - x.tdl.toNat) then (b.fireTimer c x).cnt pgCAR 0x064 else b.fireTimer c x := by
  have hnot : (!b.dpOn || !x.tarm || x.loc != .fine || decide (b.gt.toNat < x.tdl.toNat) || !b.regBit pgCAR 0x050 1) = false := by
    simp [hon, harm, hloc, hdue, hen]
  simp only [effTimerFire, hx, hnot, Bool.false_eq_true, if_false, decide_eq_true_eq]

/-! ### PPS and tick (R182, R183) -/

theorem effPpsEdge_of_runs {b : Block} (h : b.gtRuns = true) :
    effPpsEdge b = ({ b with tu := { b.tu with ppsCap := b.tu.ns - 2, ppsCnt := b.tu.ppsCnt + 1 } } : Block).flag pgTU 0 := by
  rw [effPpsEdge, h]
  rfl

theorem effTickPulse_of_due {b : Block} (hrun : b.gtRuns = true) (hon : b.regBit pgTU 0x080 0 = true) (hend : b.tu.tickEnd = none)
    (hdue : b.tu.ns.toNat % b.tickPeriod ≤ 1) :
    effTickPulse b =
      { b with tu := { b.tu with
          tickEnd := some (b.clk.ns + min (((b.regFld pgTU 0x080 15 8).toNat + 1) * 8) (b.tickPeriod / 2)) } } := by
  have hnot : (!b.gtRuns || !b.regBit pgTU 0x080 0 || b.tu.tickEnd.isSome || decide (1 < b.tu.ns.toNat % b.tickPeriod)) = false := by
    simp [hrun, hon, hend, hdue]
  simp only [effTickPulse, hnot, Bool.false_eq_true, if_false]

/-- Settles O29: each event finds what it waits for, so it acts; what the fine stage counts is the performance monitor's. -/
theorem timersAndTimeUnitEvents : Obligations.TimersAndTimeUnitEvents := by
  unfold Obligations.TimersAndTimeUnitEvents
  refine ⟨⟨fun s c x k hon hx hloc hk hfree hlag => ?_, fun s c x hon hx hloc harm hdue hen => ?_⟩, fun s hrun => ?_,
    fun s hrun hon hend hdue => ?_, fun s hfol hbad hhold => ?_, fun s hbkp => ?_⟩
  · refine .of_effect rfl ((effTimerFineLoad_of_bucket hon hx hloc hk hfree).trans (Block.lagEnd_of_none ?_)) (Block.pmuEv_notes _ 0x19 0 1)
    rw [Block.pmuEv_car]
    exact hlag
  · exact .of_effect rfl (effTimerFire_of_due hon hx hloc harm hdue hen)
  · exact .of_effect rfl (effPpsEdge_of_runs hrun)
  · exact .of_effect rfl (effTickPulse_of_due hrun hon hend hdue)
  · refine .of_effect rfl ((effFollowHoldover_of_silence hfol hbad hhold).trans ?_)
    rw [Block.loseValid, Block.flag_tu]
  · exact .of_effect rfl (if_pos hbkp)

/-- Settles O1: both clauses are the two cases of the queue in the definition of a step. -/
theorem stepRunsTheFrontCommand : Obligations.StepRunsTheFrontCommand := by
  unfold Obligations.StepRunsTheFrontCommand
  refine ⟨fun s c rest h => ?_, fun s h => ?_⟩
  · rw [step, h]
  · rw [step, h]

end Sys2Proof.Machine

namespace Sys2Proof.Machine

/-! ### What the duties of a boundary leave as it is (R185) -/

/-- One block is another but for what most duties of a boundary touch: of the Carousel windows and overruns only, of the Last neither
the sweep's results nor the pause, no time, no held write, no count of the revolution; a flag of the Carousel's page that stood stands. -/
structure Block.Spares (b c : Block) : Prop where
  car : c.car = { b.car with windows := c.car.windows, lagAt := c.car.lagAt }
  clk : c.clk = b.clk
  held : c.fab.held = b.fab.held
  revs : c.ras.revs = b.ras.revs
  due : c.rm.due = b.rm.due
  sweepSeq : c.last.sweepSeq = b.last.sweepSeq
  crcCur : c.last.crcCur = b.last.crcCur
  paused : c.last.paused = b.last.paused
  flag : bit (b.hdr pgCAR).flags 0 = true → bit (c.hdr pgCAR).flags 0 = true

theorem Block.Spares.refl (b : Block) : Block.Spares b b := ⟨rfl, rfl, rfl, rfl, rfl, rfl, rfl, rfl, id⟩

theorem Block.Spares.trans {a b c : Block} (h : Block.Spares a b) (k : Block.Spares b c) : Block.Spares a c :=
  ⟨by rw [k.car, h.car], k.clk.trans h.clk, k.held.trans h.held, k.revs.trans h.revs, k.due.trans h.due,
    k.sweepSeq.trans h.sweepSeq, k.crcCur.trans h.crcCur, k.paused.trans h.paused, k.flag ∘ h.flag⟩

theorem Block.Spares.ite {a b c : Block} {p : Prop} [Decidable p] (h : Block.Spares a b) (k : Block.Spares a c) :
    Block.Spares a (if p then b else c) := by
  split
  · exact h
  · exact k

theorem Block.Spares.foldl {α : Type} {f : Block → α → Block} (h : ∀ b x, Block.Spares b (f b x)) (l : List α) (b : Block) :
    Block.Spares b (l.foldl f b) := by
  induction l generalizing b with
  | nil => exact .refl b
  | cons x l ih => exact (h b x).trans (ih (f b x))

/-- An update of other parts, or of the windows and overruns. -/
theorem Block.Spares.of_windows {b c : Block} (hcar : c.car = { b.car with windows := c.car.windows, lagAt := c.car.lagAt })
    (hclk : c.clk = b.clk) (hfab : c.fab = b.fab) (hlast : c.last = b.last) (hras : c.ras = b.ras) (hrm : c.rm = b.rm) :
    Block.Spares b c :=
  ⟨hcar, hclk, by rw [hfab], by rw [hras], by rw [hrm], by rw [hlast], by rw [hlast], by rw [hlast],
    fun hf => by rwa [Block.hdr, hfab]⟩

theorem Block.Spares.of_parts {b c : Block} (hcar : c.car = b.car) (hclk : c.clk = b.clk) (hfab : c.fab = b.fab)
    (hlast : c.last = b.last) (hras : c.ras = b.ras) (hrm : c.rm = b.rm) : Block.Spares b c :=
  .of_windows (by rw [hcar]) hclk hfab hlast hras hrm

/-- What counts and reports spares the rest, if no flag of the Carousel's page falls. -/
theorem Block.Spares.of_notes {pgs : List Nat} {b c : Block} (h : Block.Notes pgs b c)
    (hflag : bit (b.hdr pgCAR).flags 0 = true → bit (c.hdr pgCAR).flags 0 = true) : Block.Spares b c := by
  have hrest := h.rest
  refine ⟨?_, ?_, ?_, ?_, ?_, ?_, ?_, ?_, hflag⟩ <;> rw [hrest]

theorem Block.Spares.of_notes_elsewhere {pgs : List Nat} {b c : Block} (h : Block.Notes pgs b c) (hcar : pgCAR ∉ pgs) :
    Block.Spares b c :=
  .of_notes h fun hf => h.hdr pgCAR hcar ▸ hf

theorem Block.Spares.cnt (b : Block) (pg off n : Nat) : Block.Spares b (b.cnt pg off n) :=
  ⟨rfl, rfl, rfl, rfl, rfl, rfl, rfl, rfl, id⟩

theorem Block.Spares.rmLog (b : Block) (cls code : BitVec 8) (src : BitVec 16) (data : BitVec 128) :
    Block.Spares b (b.rmLog cls code src data) :=
  .of_notes_elsewhere (Block.rmLog_notes b cls code src data) (by decide)

theorem Block.Spares.flag_set (b : Block) (pg : Nat) {i : Nat} (hi : i < 8) : Block.Spares b (b.flag pg i) := by
  refine .of_notes (Block.flag_notes b pg i) fun hf => ?_
  by_cases hpg : pg = pgCAR
  · subst hpg
    rw [Block.flag_hdr b pgCAR i hi]
    simpa [bit] using .inl hf
  · rwa [(Block.flag_notes b pg i).hdr pgCAR (by simpa using Ne.symm hpg)]

theorem Block.Spares.rasEvent (b : Block) (source : BitVec 5) (index : BitVec 24) (owner : OwnerNo) :
    Block.Spares b (b.rasEvent source index owner) := by
  unfold Block.rasEvent Block.rasPost
  exact .ite ⟨rfl, rfl, rfl, rfl, rfl, rfl, rfl, rfl, id⟩ ((Block.Spares.cnt b pgRAS 0x070 1).trans (.flag_set _ pgRAS (by decide)))

theorem Block.Spares.orphan (b : Block) (c : Cont) (p : Phase) (t : Tag) : Block.Spares b (b.orphan c p t) := by
  unfold Block.orphan
  exact .ite ⟨rfl, rfl, rfl, rfl, rfl, rfl, rfl, rfl, id⟩ ⟨rfl, rfl, rfl, rfl, rfl, rfl, rfl, rfl, id⟩

/-- A load that ends in failure gives no result of a sweep. -/
theorem Block.Spares.loadErr (b : Block) (e : ImgErr) : Block.Spares b (b.loadErr e) := by
  unfold Block.loadErr
  refine .trans (b := match b.last.load.phase with | some ph => b.orphan .loader ph {} | none => b) ?_
    (.trans ?_ (.flag_set _ pgLAST (by decide)))
  · split
    · exact .orphan b _ _ _
    · exact .refl b
  · exact ⟨rfl, rfl, rfl, rfl, rfl, rfl, rfl, rfl, id⟩

theorem Block.Spares.activity (b : Block) (a : Activity) : Block.Spares b { b with last := { b.last with activity := a } } :=
  ⟨rfl, rfl, rfl, rfl, rfl, rfl, rfl, rfl, id⟩

theorem Block.Spares.autoRollback (b : Block) (data : BitVec 128) : Block.Spares b (b.autoRollback data) := by
  unfold Block.autoRollback
  refine .ite ?_ (.flag_set b pgLAST (by decide))
  have hload : Block.Spares b (if b.last.activity == .pass1 then b.loadErr { reason := 23 } else b) := .ite (.loadErr b _) (.refl b)
  exact ((hload.trans (.activity _ .rollbackPend)).trans (.flag_set _ pgLAST (by decide))).trans (.rmLog _ _ _ _ _)

/-- The comparison with the reference changes no result of the sweep (R135). -/
theorem Block.Spares.drift (b : Block) : Block.Spares b b.drift := by
  have hcnt : Block.Spares b (b.cntHalf pgLAST 0x080 true) := ⟨rfl, rfl, rfl, rfl, rfl, rfl, rfl, rfl, id⟩
  unfold Block.drift
  refine .ite (.refl b) (.ite hcnt ?_)
  have hnew := ((hcnt.trans (.flag_set _ pgLAST (i := 4) (by decide))).trans (.rasEvent _ 17 0 0)).trans
    (.rmLog _ 6 1 6 (b.last.crcCur.setWidth 128 ||| at' (b.reg pgLAST 0x074) 32))
  exact .ite (hnew.trans (.autoRollback _ _)) hnew

/-! ### The duties of a revolution boundary (R185 to R190) -/

theorem Block.Spares.lagCheck (b : Block) : Block.Spares b b.lagCheck := by
  have hopen : Block.Spares b (if b.car.lagAt.isNone
      then { b with car := { b.car with lagAt := some (b.clk.dclk, b.car.n * b.car.cur.toNat) } } else b) :=
    .ite (.of_windows rfl rfl rfl rfl rfl rfl) (.refl b)
  unfold Block.lagCheck
  exact .ite (hopen.trans (.flag_set _ pgCAR (i := 3) (by decide))) (.refl b)

theorem Block.Spares.relinkAll (b : Block) : Block.Spares b b.relinkAll := .of_windows rfl rfl rfl rfl rfl rfl

theorem Block.Spares.scanFar (b : Block) (n : Nat) : Block.Spares b (b.scanFar n) := .of_windows rfl rfl rfl rfl rfl rfl

theorem Block.Spares.followRev (b : Block) : Block.Spares b b.followRev := by
  unfold Block.followRev
  exact .ite (.of_parts rfl rfl rfl rfl rfl rfl) (.ite (.of_parts rfl rfl rfl rfl rfl rfl) (.of_parts rfl rfl rfl rfl rfl rfl))

theorem Block.Spares.setPort (b : Block) (p : Nat) (x : JPort) : Block.Spares b (b.setPort p x) := .of_parts rfl rfl rfl rfl rfl rfl

theorem Block.Spares.granted (b : Block) (r : Res) (i : Nat) : Block.Spares b (b.granted r i) :=
  .of_parts (Block.granted_car b r i) (Block.granted_clk b r i) (Block.granted_fab b r i) (Block.granted_last b r i)
    (Block.granted_ras b r i) (Block.granted_rm b r i)

/-- A port sends nothing, or a frame and then goes on. The recursion is opened at its recursor and the arbiter's pick made a variable
first: else Lean computes the arbiter to derive the equation. -/
theorem Block.sendWaiting_cases (b : Block) (p fuel : Nat) : b.sendWaiting p (fuel + 1) = b ∨ ∃ x beats i,
    b.sendWaiting p (fuel + 1) = (((b.setPort p x).tx p beats).granted (.juwaTx p) i).sendWaiting p fuel := by
  delta Block.sendWaiting Block.sendWaiting._f
  dsimp only [Nat.brecOn, Nat.brecOn.go]
  generalize b.txPick p = k
  split
  · exact .inr ⟨_, _, _, rfl⟩
  · exact .inr ⟨_, _, _, rfl⟩
  · exact .inl rfl

theorem Block.Spares.sendWaiting (b : Block) (p fuel : Nat) : Block.Spares b (b.sendWaiting p fuel) := by
  induction fuel generalizing b with
  | zero => exact .refl b
  | succ fuel ih =>
    rcases Block.sendWaiting_cases b p fuel with h | ⟨x, beats, i, h⟩ <;> rw [h]
    · exact .refl b
    · exact (((Block.Spares.setPort b p x).trans (.setPort _ p _)).trans (.granted _ (.juwaTx p) i)).trans (ih _)

theorem Block.Spares.sendTime (b : Block) (p : Nat) : Block.Spares b (b.sendTime p) := by
  unfold Block.sendTime
  exact .ite (.refl b) ((Block.Spares.setPort b p _).trans (.sendWaiting _ p 8))

theorem Block.Spares.releaseRgns (b : Block) : Block.Spares b b.releaseRgns := by
  unfold Block.releaseRgns Block.setRgns
  have hnone : Block.Spares b { b with fab := { b.fab with rgnHeld := [] } } := ⟨rfl, rfl, rfl, rfl, rfl, rfl, rfl, rfl, id⟩
  have hset : ∀ m, Block.Spares b { b with fab := { b.fab with rgnHeld := [], rgn := m } } := fun _ => ⟨rfl, rfl, rfl, rfl, rfl, rfl, rfl, rfl, id⟩
  exact .ite hnone ((hset _).trans (.flag_set _ pgTRN (i := 2) (by decide)))

theorem Block.Spares.latchSlot (b : Block) : Block.Spares b b.latchSlot := by
  unfold Block.latchSlot
  exact .ite (.refl b) (.ite ((Block.Spares.cnt b pgCAR 0x068 1).trans (.flag_set _ pgCAR (by decide)))
    (.of_parts rfl rfl rfl rfl rfl rfl))

theorem Block.releaseHeld_of_none {b : Block} (h : b.fab.held = []) (at? : BitVec 2 → Bool) : b.releaseHeld at? = b := by
  unfold Block.releaseHeld
  rw [h]
  rfl

/-- A pending switch pauses the lanes; nothing else of the block changes. -/
theorem Block.startSwitch_eq (b : Block) : ∃ p, b.startSwitch = { b with last := { b.last with paused := p } } := by
  unfold Block.startSwitch
  split
  · exact ⟨true, rfl⟩
  · exact ⟨true, rfl⟩
  · exact ⟨b.last.paused, rfl⟩

theorem Block.startSwitch_paused {b : Block} (h : b.last.activity = .commitPend ∨ b.last.activity = .rollbackPend) :
    b.startSwitch.last.paused = true := by
  unfold Block.startSwitch
  rcases h with h | h <;> rw [h]

/-- The sweep of an incomplete revolution gives no result (R187). -/
theorem Block.sweep_of_incomplete {b : Block} (h : b.car.incomplete = true) :
    b.sweep = { b with car := { b.car with incomplete := false } } := if_pos h

/-- The pages show what the sweep has found for them. -/
def Block.showCrcs (b : Block) (pages : List (Nat × Word)) : Block :=
  pages.foldl (fun b p => b.setHdr p.1 { b.hdr p.1 with crc := p.2 }) b

theorem Block.Spares.setCrc (b : Block) (pg : Nat) (crc : Word) : Block.Spares b (b.setHdr pg { b.hdr pg with crc }) := by
  refine ⟨rfl, rfl, rfl, rfl, rfl, rfl, rfl, rfl, fun hf => ?_⟩
  by_cases hpg : pg = pgCAR
  · subst hpg
    rw [Block.hdr_setHdr]
    exact hf
  · rwa [Block.hdr_setHdr_ne _ _ (Ne.symm hpg)]

theorem Block.Spares.showCrcs (b : Block) (pages : List (Nat × Word)) : Block.Spares b (b.showCrcs pages) :=
  .foldl (f := fun (b : Block) (p : Nat × Word) => b.setHdr p.1 { b.hdr p.1 with crc := p.2 }) (fun c p => .setCrc c p.1 p.2) pages b

/-- The results of a sweep. -/
def Block.withResults (b : Block) (crc : Word) : Block :=
  { b with last := { b.last with crcCur := crc, sweepSeq := b.last.sweepSeq + 1 } }

theorem Block.Spares.withResults {b c : Block} (h : Block.Spares b c) (crc : Word) :
    Block.Spares (b.withResults crc) (c.withResults crc) :=
  ⟨h.car, h.clk, h.held, h.revs, h.due, congrArg (· + 1) h.sweepSeq, rfl, h.paused, h.flag⟩

/-- The sweep of a complete revolution gives its results, which are compared with the reference (R133, R135). -/
theorem Block.sweep_of_complete {b : Block} (h : b.car.incomplete = false) :
    b.sweep = ((b.showCrcs b.pageCrcs).withResults (b.sweepCrc b.pageCrcs)).drift := by
  unfold Block.sweep Block.showCrcs Block.withResults
  rw [if_neg (by rw [h]; decide)]

/-- The Last as the sweep leaves it. -/
def Block.sweptLast (b : Block) : Last :=
  if b.car.incomplete then b.last else (b.withResults (b.sweepCrc b.pageCrcs)).last

theorem Block.Spares.sweep (b : Block) :
    Block.Spares { b with car := { b.car with incomplete := false }, last := b.sweptLast } b.sweep := by
  cases h : b.car.incomplete with
  | true =>
    rw [Block.sweptLast, if_pos h, Block.sweep_of_incomplete h]
    exact .refl _
  | false =>
    have hsame : { b.car with incomplete := false } = b.car := by rw [← h]
    rw [Block.sweptLast, if_neg (by rw [h]; decide), Block.sweep_of_complete h, hsame]
    exact ((Block.Spares.showCrcs b _).withResults _).trans (.drift _)

/-! #### The block that a revolution boundary leaves -/

/-- The Carousel with its revolution ended and the shadow words copied. -/
def Carousel.turned (c : Carousel) : Carousel :=
  { c with incomplete := false, slots := c.shadow.cells.foldl (fun m p => m.set 0 p.1 p.2) c.slots, shadow := .empty }

theorem Block.Spares.slotCopy {b c : Block} {l : Last} (h : Block.Spares { b with car := { b.car with incomplete := false }, last := l } c) :
    Block.Spares { b with car := b.car.turned, last := l } c.slotCopy := by
  refine ⟨?_, h.clk, h.held, h.revs, h.due, h.sweepSeq, h.crcCur, h.paused, h.flag⟩
  have hcar := h.car
  rw [Block.slotCopy, hcar]
  rfl

/-- The pause for a pending switch, then the sweep. -/
theorem Block.Spares.switchSweep (b : Block) :
    Block.Spares { b with car := { b.car with incomplete := false }, last := b.startSwitch.sweptLast } b.startSwitch.sweep := by
  obtain ⟨p, hsw⟩ := Block.startSwitch_eq b
  rw [hsw]
  exact Block.Spares.sweep { b with last := { b.last with paused := p } }

/-- Far list, follower and TIME frames of a revolution boundary. -/
def Block.revolving (b : Block) : Block := (List.range 4).foldl Block.sendTime (b.scanFar b.slotNow).followRev

theorem Block.Spares.revolving (b : Block) : Block.Spares b b.revolving :=
  ((Block.Spares.scanFar b _).trans (.followRev _)).trans (.foldl .sendTime _ _)

/-- The revolution is counted and its samples are due. -/
def Block.counted (b : Block) : Block := { b with ras := { b.ras with revs := b.ras.revs + 1 }, rm := { b.rm with due := true } }

theorem Block.Spares.counted {b c : Block} (h : Block.Spares b c) : Block.Spares b.counted c.counted :=
  ⟨h.car, h.clk, h.held, congrArg (· + 1) h.revs, rfl, h.sweepSeq, h.crcCur, h.paused, h.flag⟩

theorem Block.revolution_of_none {b : Block} (h : b.startSwitch.sweep.slotCopy.revolving.counted.fab.held = []) :
    b.revolution = b.startSwitch.sweep.slotCopy.revolving.counted.releaseRgns := by
  unfold Block.revolution
  unfold Block.revolving Block.counted at *
  dsimp only
  rw [Block.releaseHeld_of_none (by exact h)]

theorem Block.Spares.revolution {b : Block} (h : b.fab.held = []) :
    Block.Spares (Block.counted { b with car := b.car.turned, last := b.startSwitch.sweptLast }) b.revolution := by
  have hcounted := ((Block.Spares.switchSweep b).slotCopy.trans (.revolving _)).counted
  rw [Block.revolution_of_none (hcounted.held.trans h)]
  exact hcounted.trans (.releaseRgns _)

/-- The position reached. -/
def Block.placed (b : Block) (n : Nat) : Block := { b with car := { b.car with n } }

theorem Block.Spares.placed {b c : Block} (h : Block.Spares b c) (n : Nat) : Block.Spares (b.placed n) (c.placed n) := by
  refine ⟨?_, h.clk, h.held, h.revs, h.due, h.sweepSeq, h.crcCur, h.paused, h.flag⟩
  have hcar := h.car
  rw [Block.placed, hcar]
  rfl

theorem Block.Spares.slotNow {b c : Block} (h : Block.Spares b c) : c.slotNow = b.slotNow := by
  rw [Block.slotNow, Block.gt, h.clk, h.car, Block.slotNow, Block.gt]

/-- The duties of every boundary with no held write: the position and its word (R185, R189). -/
theorem Block.slotDuties_of_none {b : Block} (h : b.fab.held = []) : b.slotDuties = (b.placed b.slotNow).latchSlot := by
  unfold Block.slotDuties
  rw [Block.releaseHeld_of_none h]
  rfl

/-- The duties of a boundary at which no step is seen. -/
theorem Block.duties_of_not_stepped {b : Block} (h : b.car.stepped = false) (rev : Bool) :
    b.duties rev = (if rev then b.revolution else b).slotDuties := by
  have hcar : { b.car with stepped := false } = b.car := by rw [← h]
  unfold Block.duties
  rw [hcar, h]
  rfl

/-- The block after a revolution boundary, but for what the duties count, report and send. -/
def Block.revolved (b : Block) : Block :=
  (Block.counted { b with car := b.car.turned, last := b.startSwitch.sweptLast }).placed b.slotNow

theorem Block.Spares.duties {b : Block} (hheld : b.fab.held = []) (hstep : b.car.stepped = false) :
    Block.Spares b.revolved (b.duties true) := by
  have hrev := Block.Spares.revolution hheld
  have hnow : b.revolution.slotNow = b.slotNow := hrev.slotNow
  rw [Block.duties_of_not_stepped hstep, if_pos rfl, Block.slotDuties_of_none (hrev.held.trans hheld), hnow]
  exact (hrev.placed _).trans (.latchSlot _)

theorem Block.withResults_sweepSeq (b : Block) (crc : Word) : (b.withResults crc).last.sweepSeq = b.last.sweepSeq + 1 := rfl
theorem Block.withResults_paused (b : Block) (crc : Word) : (b.withResults crc).last.paused = b.last.paused := rfl

theorem Block.startSwitch_car (b : Block) : b.startSwitch.car = b.car := by
  obtain ⟨p, hsw⟩ := Block.startSwitch_eq b
  rw [hsw]

theorem Block.startSwitch_sweepSeq (b : Block) : b.startSwitch.last.sweepSeq = b.last.sweepSeq := by
  obtain ⟨p, hsw⟩ := Block.startSwitch_eq b
  rw [hsw]

theorem Block.startSwitch_crcCur (b : Block) : b.startSwitch.last.crcCur = b.last.crcCur := by
  obtain ⟨p, hsw⟩ := Block.startSwitch_eq b
  rw [hsw]

/-- SWEEP_SEQ advances where the revolution was complete. -/
theorem Block.sweptLast_sweepSeq (b : Block) :
    b.sweptLast.sweepSeq = if b.car.incomplete then b.last.sweepSeq else b.last.sweepSeq + 1 := by
  rw [Block.sweptLast, apply_ite Last.sweepSeq, Block.withResults_sweepSeq]

theorem Block.sweptLast_paused (b : Block) : b.sweptLast.paused = b.last.paused := by
  rw [Block.sweptLast, apply_ite Last.paused, Block.withResults_paused, ite_self]

theorem Block.sweptLast_of_incomplete {b : Block} (h : b.car.incomplete = true) : b.sweptLast = b.last := by
  rw [Block.sweptLast, if_pos h]

/-! ### SLOT_BOUNDARY, REVOLUTION_BOUNDARY and PERIOD_TAKEN -/

/-- A slot boundary with nothing else to do reaches its position. -/
theorem effSlotBoundary_of_quiet {b : Block} (hon : b.carOn = true) (hdue : b.periodDue = false) (hne : b.slotNow ≠ b.car.n)
    (hrev : b.newRev = false) (hheld : b.fab.held = []) (hstep : b.car.stepped = false)
    (hlate : b.wheelLate (b.car.n * b.car.cur.toNat) = false) : effSlotBoundary b = (b.placed b.slotNow).latchSlot := by
  have hgo : (!b.carOn || b.periodDue || b.slotNow == b.car.n || b.newRev) = false := by simp [hon, hdue, hne, hrev]
  have hlag : b.lagCheck = b := by
    rw [Block.lagCheck, hlate]
    rfl
  rw [effSlotBoundary, hgo, if_neg (by decide), Block.boundary, hstep, if_neg (by decide), hlag, Block.duties_of_not_stepped hstep,
    if_neg (by decide), Block.slotDuties_of_none hheld]

section Latch

variable {b : Block}

theorem Block.latchSlot_of_none (h : bit (b.car.slots.get 0 b.car.pos) 31 = false ∨ b.regBit pgCAR 0x050 0 = false) :
    b.latchSlot = b := by
  unfold Block.latchSlot
  rw [if_pos (by rcases h with h | h <;> rw [h] <;> simp)]

variable (hv : bit (b.car.slots.get 0 b.car.pos) 31 = true) (hen : b.regBit pgCAR 0x050 0 = true) (hok : b.car.pos ∉ b.ras.badSlots)
include hv hen hok

theorem Block.latchSlot_of_event (hcls : (fld (b.car.slots.get 0 b.car.pos) 23 22).toNat < 2) :
    b.latchSlot = b.ask17 { ctx := fld (b.car.slots.get 0 b.car.pos) 15 0
                            entry := bankedEntry 0x00908 (fld (b.car.slots.get 0 b.car.pos) 21 16) (fld (b.car.slots.get 0 b.car.pos) 23 22) } := by
  unfold Block.latchSlot
  rw [if_neg (by rw [hv, hen]; simpa using hok), if_neg (by omega)]

theorem Block.latchSlot_of_badClass (hcls : 2 ≤ (fld (b.car.slots.get 0 b.car.pos) 23 22).toNat) :
    b.latchSlot = (b.cnt pgCAR 0x068).flag pgCAR 2 := by
  unfold Block.latchSlot
  rw [if_neg (by rw [hv, hen]; simpa using hok), if_pos hcls]

end Latch

/-- A flag changes no register but one of the retention log's page. -/
theorem Block.flag_reg (b : Block) (pg i : Nat) {q off : Nat} (hq : q ≠ pgRM) (hoff : off < 4096) :
    (b.flag pg i).reg q off = b.reg q off := by
  unfold Block.flag Block.raise
  split
  · rfl
  · exact ((Block.even_notes _ pg _).reg q off (by simpa using hq) hoff).trans (Block.reg_setHdr b pg _ q off)

theorem Block.lagCheck_reg (b : Block) {q off : Nat} (hq : q ≠ pgRM) (hoff : off < 4096) : b.lagCheck.reg q off = b.reg q off := by
  unfold Block.lagCheck
  dsimp only
  split
  · rw [Block.flag_reg _ pgCAR 3 hq hoff]
    split <;> rfl
  · rfl

theorem Block.lagCheck_last (b : Block) : b.lagCheck.last = b.last := by
  unfold Block.lagCheck
  dsimp only
  split
  · rw [Block.flag_last]
    split <;> rfl
  · rfl

theorem Block.revolved_hdr (b : Block) (pg : Nat) : b.revolved.hdr pg = b.hdr pg := rfl

section Turned

variable {b c : Block} (h : Block.Spares b.revolved c)
include h

/-- The Carousel after a revolution boundary: its period as before, the position reached, the shadow words copied. -/
theorem Block.Spares.car_of_revolved : c.car.cur = b.car.cur ∧ c.car.pend = b.car.pend ∧ c.car.n = b.slotNow ∧
    c.car.incomplete = false ∧ c.car.shadow = .empty ∧ c.car.slots = b.car.shadow.cells.foldl (fun m p => m.set 0 p.1 p.2) b.car.slots := by
  rw [h.car]
  exact ⟨rfl, rfl, rfl, rfl, rfl, rfl⟩

theorem Block.Spares.revs_of_revolved : c.ras.revs = b.ras.revs + 1 := by
  rw [h.revs]
  rfl

/-- SWEEP_SEQ advances at the end of a complete revolution only (R187). -/
theorem Block.Spares.sweepSeq_of_revolved :
    c.last.sweepSeq = if b.car.incomplete then b.last.sweepSeq else b.last.sweepSeq + 1 := by
  have hswept : c.last.sweepSeq = b.startSwitch.sweptLast.sweepSeq := h.sweepSeq
  rw [hswept, Block.sweptLast_sweepSeq, Block.startSwitch_car, Block.startSwitch_sweepSeq]

theorem Block.Spares.crcCur_of_revolved (hinc : b.car.incomplete = true) : c.last.crcCur = b.last.crcCur := by
  have hswept : c.last.crcCur = b.startSwitch.sweptLast.crcCur := h.crcCur
  rw [hswept, Block.sweptLast_of_incomplete (by rw [Block.startSwitch_car, hinc]), Block.startSwitch_crcCur]

theorem Block.Spares.paused_of_revolved (hpend : b.last.activity = .commitPend ∨ b.last.activity = .rollbackPend) :
    c.last.paused = true := by
  have hswept : c.last.paused = b.startSwitch.sweptLast.paused := h.paused
  rw [hswept, Block.sweptLast_paused, Block.startSwitch_paused hpend]

end Turned

theorem effRevolutionBoundary_of_due {b : Block} (hon : b.carOn = true) (hdue : b.periodDue = false) (hrev : b.newRev = true)
    (hstep : b.car.stepped = false) : effRevolutionBoundary b = b.lagCheck.duties true := by
  have hgo : (!b.carOn || b.periodDue || !b.newRev) = false := by simp [hon, hdue, hrev]
  rw [effRevolutionBoundary, hgo, if_neg (by decide), Block.boundary, hstep, if_neg (by decide)]

/-- NEXT comes into force; a revolution that does not end there is cut short (R186, R187). -/
def Block.newPeriod (b : Block) : Block :=
  { b with car := { b.car with cur := b.regFld pgCAR 0x040 12 0, pend := false,
                               incomplete := b.car.incomplete || b.car.takeAt.toNat % (4096 * b.car.cur.toNat) != 0 } }

theorem Block.newPeriod_clk (b : Block) : b.newPeriod.clk = b.clk := rfl
theorem Block.newPeriod_ras (b : Block) : b.newPeriod.ras = b.ras := rfl
theorem Block.newPeriod_last (b : Block) : b.newPeriod.last = b.last := rfl
theorem Block.newPeriod_fab (b : Block) : b.newPeriod.fab = b.fab := rfl
theorem Block.newPeriod_stepped (b : Block) : b.newPeriod.car.stepped = b.car.stepped := rfl

theorem effPeriodTaken_of_due {b : Block} (hon : b.carOn = true) (hdue : b.periodDue = true) (hstep : b.car.stepped = false) :
    effPeriodTaken b = ((b.lagCheck.newPeriod.flag pgCAR 0).relinkAll).duties true := by
  have hgo : (!b.carOn || !b.periodDue) = false := by simp [hon, hdue]
  rw [effPeriodTaken, hgo, if_neg (by decide), hstep, if_neg (by decide)]
  rfl

/-- Settles O30: a slot boundary with nothing else to do is its position and the latch of that slot's word; at the other two each duty
spares what the others decide, so that the block is `Block.revolved` of the block before in all that the statement speaks of. -/
theorem boundariesFollowGt : Obligations.BoundariesFollowGt := by
  unfold Obligations.BoundariesFollowGt
  refine ⟨fun s hon hdue hne hrev hheld hstep hlate => ?_, fun s hon hdue hrev hheld hstep hinc => ?_, fun s hon hpend hdue hheld hstep => ?_⟩
  · have heff := effSlotBoundary_of_quiet hon hdue hne hrev hheld hstep hlate
    exact ⟨fun h => .of_effect rfl (heff.trans (Block.latchSlot_of_none h)),
      fun hv hen hcls hok => .of_effect rfl (heff.trans (Block.latchSlot_of_event hv hen hok hcls)),
      fun hv hen hcls hok => .of_effect rfl (heff.trans (Block.latchSlot_of_badClass hv hen hok hcls))⟩
  · have hlag := Block.Spares.lagCheck s.blk
    have hd := Block.Spares.duties (hlag.held.trans hheld) (show s.blk.lagCheck.car.stepped = false by rw [hlag.car]; exact hstep)
    have hinc' : s.blk.lagCheck.car.incomplete = true := by rw [hlag.car]; exact hinc
    obtain ⟨-, -, hn, hcomplete, hshadow, hslots⟩ := hd.car_of_revolved
    refine .of_effect rfl (effRevolutionBoundary_of_due hon hdue hrev hstep)
      ⟨hn.trans hlag.slotNow, hcomplete, hshadow, ?_, by rw [hd.revs_of_revolved, hlag.revs], hd.due, ?_, ?_, fun hpend => ?_⟩
    · rw [hslots, hlag.car]
    · rw [hd.sweepSeq_of_revolved, if_pos hinc', hlag.sweepSeq]
    · rw [hd.crcCur_of_revolved hinc', hlag.crcCur]
    · exact hd.paused_of_revolved (by rwa [Block.lagCheck_last])
  · have hlag := Block.Spares.lagCheck s.blk
    have hlink := (Block.Spares.flag_set s.blk.lagCheck.newPeriod pgCAR (i := 0) (by decide)).trans (.relinkAll _)
    have hnext : s.blk.lagCheck.newPeriod.car.cur = s.blk.regFld pgCAR 0x040 12 0 :=
      congrArg (fld · 12 0) (s.blk.lagCheck_reg (by decide) (by decide))
    have hd := Block.Spares.duties (by rw [hlink.held, Block.newPeriod_fab, hlag.held, hheld])
      (by rw [hlink.car]; exact s.blk.lagCheck.newPeriod_stepped.trans (by rw [hlag.car]; exact hstep))
    obtain ⟨hcur, hoff, hn, hcomplete, -, -⟩ := hd.car_of_revolved
    refine .of_effect rfl (effPeriodTaken_of_due hon (by simp [Block.periodDue, hpend, hdue]) hstep)
      ⟨?_, ?_, ?_, hcomplete, ?_, ?_, ?_⟩
    · rw [hcur, hlink.car]
      exact hnext
    · rw [hoff, hlink.car]
      rfl
    · rw [hn, hlink.slotNow, Block.slotNow, hnext, Block.gt, Block.newPeriod_clk, hlag.clk, ← Block.gt, slotOf]
    · have hset : bit ((s.blk.lagCheck.newPeriod.flag pgCAR 0).hdr pgCAR).flags 0 = true := by
        rw [Block.flag_hdr _ pgCAR 0 (by decide)]
        simp [bit]
      exact hd.flag (by rw [Block.revolved_hdr]; exact (Block.Spares.relinkAll _).flag hset)
    · rw [hd.revs_of_revolved, hlink.revs, Block.newPeriod_ras, hlag.revs]
    · have hcut : s.blk.lagCheck.newPeriod.car.incomplete =
          (s.blk.car.incomplete || s.blk.car.takeAt.toNat % (4096 * s.blk.car.cur.toNat) != 0) := by
        rw [Block.newPeriod, hlag.car]
      rw [hd.sweepSeq_of_revolved, hlink.sweepSeq, Block.newPeriod_last, hlag.sweepSeq, hlink.car]
      simp [hcut]

end Sys2Proof.Machine

namespace Sys2Proof.Machine

/-! ### Statements of chapter 7 that a state outside the block's own bookkeeping refutes -/

/-- The block that a command makes is its effect on the block. -/
theorem Makes.of_exec {s : State} {c : Instr} {b b' : Block} (h : Makes s c b) (e : exec c s = .next { s with blk := b' }) : b' = b := by
  simpa using e.symm.trans h

/-- Refutes O25 by the state that refutes O23: a GATE write through an absolute page takes the request left at the head of bank 3's
intake for its own and leaves its own behind the thread's operation, where the statement keeps every bank as it was. -/
theorem not_threadRegistersOfTheContext : ¬ Obligations.ThreadRegistersOfTheContext := by
  unfold Obligations.ThreadRegistersOfTheContext
  rintro ⟨h, -⟩
  have hanswers := ((h leftPortRequest absoluteHost 0 3 _ (by decide) ⟨rfl, rfl⟩).1 (by decide)).of_exec rfl
  exact absurd (hanswers.bank 3) (by decide)

/-- A LOAD of context 3 that waits for its last descriptor; the 63 before it show empty buckets. -/
def lastDescLoad : LoadOp :=
  { page := 0, seat := none, ph := .descs, next := 64, descs := [(63, .issued 0 false false)],
    got := (List.range 63).map fun j => (j, .ok []) }

/-- A block in which context 3 has that LOAD while a record of it, of a basic build, still leaves for Intermission. -/
def loadWhileLeaving : State :=
  { blk := { loads := ⟨[(3, lastDescLoad)]⟩
             leave := ⟨[(3, { x := { basic := true }, why := .sleep })]⟩ } }

/-- Refutes O27 in the end of its LOAD: CTX_LOAD_COMPLETE lets all go on that waits for the context (`Block.kickCtx`), a record of it
that leaves included, while the statement keeps every such record. Nothing in the hypotheses says that a context in a LOAD is not
leaving: in `loadWhileLeaving` its record is gone afterwards. -/
theorem not_loadsReadTheEntry : ¬ Obligations.LoadsReadTheEntry := by
  unfold Obligations.LoadsReadTheEntry
  rintro ⟨-, h⟩
  have hmakes := (h loadWhileLeaving 3 lastDescLoad rfl rfl rfl rfl rfl).2 .err 63 0 false false [] rfl rfl rfl rfl rfl rfl
    (by decide +kernel) rfl (by decide)
  have hkept := congrArg (·.leave.find? 3) (hmakes.of_exec rfl)
  have hgone : (effCtxLoadComplete loadWhileLeaving.blk 3 .err []).leave.find? 3 = none := by decide +kernel
  exact absurd (hkept.symm.trans hgone) (by decide +kernel)

end Sys2Proof.Machine

namespace Sys2Proof.Machine

/-! ### The delivery port's grant (R207, R209) -/

theorem Block.Notes.cnt {pgs : List Nat} {b b' : Block} (h : Block.Notes pgs b b') {pg off : Nat} (hpg : pg ∉ pgs) (hoff : off < 4096)
    (n : Nat) : Block.Notes pgs (b.cnt pg off n) (b'.cnt pg off n) := by
  refine ⟨?_, fun q o hq ho => ?_, h.hdr⟩
  · exact congrArg (fun c : Block => { c with fab := { c.fab with regs := (b'.cnt pg off n).fab.regs } }) h.rest
  · by_cases hsame : q = pg ∧ o = off
    · obtain ⟨rfl, rfl⟩ := hsame
      rw [Block.cnt, Block.reg_setReg, Block.cnt, Block.reg_setReg, h.reg q o hpg hoff]
    · have hne : q ≠ pg ∨ o ≠ off := not_and_or.mp hsame
      rw [Block.cnt, Block.reg_setReg_ne _ _ hoff ho hne, Block.cnt, Block.reg_setReg_ne _ _ hoff ho hne, h.reg q o hq ho]

theorem seatIx_div (t : Nat) (gs : Bool) : seatIx t gs / 2 = t := by
  cases gs
  · simp [seatIx]
  · simp [seatIx]
    omega

theorem seatIx_odd (t : Nat) (gs : Bool) : decide (seatIx t gs % 2 = 1) = gs := by
  cases gs <;> simp [seatIx]

/-- The page of a core-slice group is neither the performance monitor's nor the Ringmaster's. -/
theorem pgCSG_not_counting (g : Nat) : pgCSG g ∉ [pgPMU, pgRM] := by
  change 0x40 + g ∉ [0x0B, 0x0C]
  simp only [List.mem_cons, List.not_mem_nil, or_false]
  omega

theorem effDeliveryGrant_of_pick {b : Block} {t n : Nat} {gs : Bool} (hpick : b.dportPick (t / 4 % 4) = some n)
    (hnote : b.noteHead n (t / 4 % 4) = some (seatIx t gs)) :
    effDeliveryGrant b t = (b.grantSeat (seatIx t gs)).granted (.dport (t / 4 % 4)) n := by
  unfold effDeliveryGrant
  simp only [hpick, hnote, seatIx_div, if_true]

/-- The banks' queues without a seat's request. -/
def Block.unlist (b : Block) (i : Nat) : Block :=
  { b with cb := b.cb.remap {} fun _ k => { k with notes := k.notes.filter (· != i) } }

/-- A message goes to its slice under the thread's tracker. -/
def Thread.sends (h : Thread) (m : SliceMsg) : Thread := { h with trk := true, sent := some m, notifCh := h.notifCh ++ [m] }

section Grant

variable {b : Block} {t : Nat} {gs : Bool} {nnum : BitVec 4}

theorem Block.grantSeat_notify {line : Line} {prio : Prio} {again : Bool} {c : CtxNo} {x : Ctx}
    (hreq : (b.seatOf (seatIx t gs)).req = some (.notify line prio again, nnum)) (hctx : (b.seatOf (seatIx t gs)).ctx = some c)
    (hx : b.rec? c = some x) :
    b.grantSeat (seatIx t gs) =
      let h := { (b.thread t).sends (.notify gs line nnum prio) with tag := b.tagOf x.owner }
      let b' := (((b.unlist (seatIx t gs)).setSeat (seatIx t gs) { b.seatOf (seatIx t gs) with req := none }).setThread t h).setRec c
        { x with lastSent := some b.gt, lastNote := if again then x.lastNote else some b.gt }
      let b' := (b'.cnt (pgCSG (csgOf t)) 0x060).pmuEv 0x0F (t / 4 % 4)
      if again then b'.cnt (pgCSG (csgOf t)) 0x068 else b' := by
  have hfind : b.ctx.find? c.toNat = some x := hx
  unfold Block.grantSeat
  simp only [hreq, hctx, seatIx_div, seatIx_odd, Block.modRec, Block.rec?, Block.setThread_ctx, Block.setSeat_ctx, hfind]
  cases again <;> rfl

theorem Block.grantSeat_withdraw (hreq : (b.seatOf (seatIx t gs)).req = some (.withdraw, nnum)) :
    b.grantSeat (seatIx t gs) =
      (((b.unlist (seatIx t gs)).setSeat (seatIx t gs) { b.seatOf (seatIx t gs) with req := none, out := false }).setThread t
        ((b.thread t).sends (.withdraw gs nnum))).cnt (pgCSG (csgOf t)) 0x064 := by
  unfold Block.grantSeat
  simp only [hreq, seatIx_div, seatIx_odd]
  rfl

end Grant

/-- Settles O20: the grant is the one of the picked seat's request; what it counts besides is one event of the performance monitor. -/
theorem deliveryTakesTheTracker : Obligations.DeliveryTakesTheTracker := by
  unfold Obligations.DeliveryTakesTheTracker
  intro s t gs n hpick i hnote z h pg b
  have heff := effDeliveryGrant_of_pick hpick hnote
  have hpg : pg ∉ [pgPMU, pgRM] := pgCSG_not_counting _
  refine ⟨fun line prio again nnum c x hreq hctx hx => .of_effect rfl heff ?_, fun nnum hreq => .of_effect rfl ?_⟩
  · rw [show s.blk.grantSeat (seatIx t.toNat gs) = _ from Block.grantSeat_notify hreq hctx hx]
    cases again with
    | true => exact ((Block.pmuEv_notes _ 0x0F (t.toNat / 4 % 4) 1).cnt hpg (by decide) 1).granted _ n
    | false => exact (Block.pmuEv_notes _ 0x0F (t.toNat / 4 % 4) 1).granted _ n
  · rw [heff, show s.blk.grantSeat (seatIx t.toNat gs) = _ from Block.grantSeat_withdraw hreq]
    rfl

end Sys2Proof.Machine

namespace Sys2Proof.Machine

/-! ### A lane on which nothing is on its way (R212, R444) -/

/-- Nothing of the core's operations is on the lane: none held, none queued, none in the channel, none at the block. -/
structure Thread.Idle (h : Thread) : Prop where
  held : h.held = []
  upq : h.upq = []
  up : h.up = []
  ops : h.ops = []
  asked : h.asked = none

theorem Thread.Idle.takeHeld {h : Thread} (hidle : h.Idle) (fuel : Nat) : h.takeHeld fuel = h := by
  cases fuel with
  | zero => rfl
  | succ fuel => rw [Thread.takeHeld, hidle.held]

theorem Thread.Idle.pull {h : Thread} (hidle : h.Idle) (fuel : Nat) : h.pull fuel = h := by
  cases fuel with
  | zero => rfl
  | succ fuel => rw [Thread.pull, hidle.up]

theorem Block.forwardOps_of_idle {b : Block} {t : Nat} (hidle : (b.thread t).Idle) (fuel : Nat) : b.forwardOps t fuel = b := by
  cases fuel with
  | zero => rfl
  | succ fuel => simp only [Block.forwardOps, hidle.upq]

/-- Writing a thread that has just been written as it reads changes nothing. -/
theorem Block.setThread_thread {b : Block} {m : Map Thread} {t : Nat} {h : Thread} (hthr : b.thr = m.set {} t h) :
    b.setThread t (b.thread t) = b := by
  have hset : b.thr.set {} t (b.thread t) = b.thr := by rw [Block.thread, hthr, Map.get_set_self, Map.set_set]
  rw [Block.setThread, hset]

/-- A lane with nothing on its way, its thread written before, stays as it is. -/
theorem Block.laneStep_of_idle {b : Block} {m : Map Thread} {t : Nat} {h : Thread} (hthr : b.thr = m.set {} t h)
    (hidle : (b.thread t).Idle) (fuel : Nat) : b.laneStep t fuel = b := by
  cases fuel with
  | zero => rfl
  | succ fuel =>
    rw [Block.laneStep]
    simp only [hidle.takeHeld, Block.setThread_thread hthr, ite_self, Block.forwardOps_of_idle hidle, hidle.pull, hidle.ops,
      List.isEmpty_nil, Bool.or_true, if_true]

theorem Block.runLane_of_idle {b : Block} {m : Map Thread} {t : Nat} {h : Thread} (hthr : b.thr = m.set {} t h) (hidle : h.Idle) :
    b.runLane t = b := by
  have hidle : (b.thread t).Idle := by rwa [Block.thread, hthr, Map.get_set_self]
  rw [Block.runLane, Block.laneStep_of_idle hthr hidle, hidle.asked]
  rfl

theorem Thread.deliver_of_none {h : Thread} (hresp : h.respCh = []) (fuel : Nat) : h.deliver fuel = h := by
  cases fuel with
  | zero => rfl
  | succ fuel => rw [Thread.deliver, hresp]

/-! ### The slice's side (R209 to R211) -/

@[simp] theorem Block.seatOf_setThread (b : Block) (t : Nat) (h : Thread) (i : Nat) : (b.setThread t h).seatOf i = b.seatOf i := rfl

theorem Seat.assert_eq (z : Seat) (ns : Nat) (line : Line) (n : BitVec 4) : z.assert ns line n =
    { z with line := some (line, n), low := if z.line.map Prod.fst = some line then ns + 8 else 0 } := by
  rcases hline : z.line with - | ⟨l, m⟩
  · simp [Seat.assert, hline]
  · simp [Seat.assert, hline]

section Slice

variable {b : Block} {t : Nat} {gs : Bool} {n : BitVec 4} {rest : List SliceMsg}

/-- The slice takes the head of the notification channel. -/
def Block.noteTaken (b : Block) (t : Nat) (rest : List SliceMsg) : Block := b.setThread t { b.thread t with notifCh := rest }

theorem effSliceMsg_notify {line : Line} {prio : Prio} (hch : (b.thread t).notifCh = .notify gs line n prio :: rest) :
    effSliceMsg b false t =
      if covers (b.seatOf (seatIx t gs)).covered n then
        ((b.noteTaken t rest).cnt (pgCSG (csgOf t)) 0x074).confirms t gs n true
      else ((b.noteTaken t rest).setSeat (seatIx t gs) ((b.seatOf (seatIx t gs)).assert b.clk.ns line n)).confirms t gs n false := by
  simp only [effSliceMsg, hch]
  rfl

theorem effSliceMsg_withdraw (hch : (b.thread t).notifCh = .withdraw gs n :: rest) :
    effSliceMsg b true t =
      let z := b.seatOf (seatIx t gs)
      ((b.noteTaken t rest).setSeat (seatIx t gs)
        { z with line := if z.line.map Prod.snd = some n then none else z.line, covered := moveCovered z.covered n }).confirms t gs n
          false := by
  simp only [effSliceMsg, hch, Block.seatOf_setThread, Bool.not_true, Bool.false_eq_true, if_false]
  rcases hline : (b.seatOf (seatIx t gs)).line with - | ⟨l, m⟩
  · rfl
  · simp only [Option.map_some, Option.some_inj]
    rfl

/-- What the response of an ACK makes of its seat (R209): COVERED moves, and a covered line is de-asserted. -/
def Seat.acked (z : Seat) (n : BitVec 4) : Seat :=
  let cov := moveCovered z.covered n
  { z with
    covered := cov
    line := match z.line with
      | some (l, m) => if (cov - m).toNat ≤ 7 then none else some (l, m)
      | none => none }

/-- The thread once its only response, an ACK's, has reached the core. -/
def Thread.ackDone (h : Thread) (gs : Bool) (r : Resp) : Thread :=
  { h with respCh := [], acks := h.acks.erase gs, coreRsp := some { err := r.err, data := r.data.setWidth 64 } }

theorem effAckResponse_only {r : Resp} (hresp : (b.thread t).respCh = [r]) (hack : r.ack = some (gs, some n))
    (hwide : (b.thread t).wide = none) (hidle : (b.thread t).Idle) :
    effAckResponse b t =
      (b.setThread t ((b.thread t).ackDone gs r)).setSeat (seatIx t gs) ((b.seatOf (seatIx t gs)).acked n) := by
  have hans : ({ b.thread t with respCh := [], acks := (b.thread t).acks.erase gs } : Thread).answer r.hi
      { err := r.err, data := r.data.setWidth 64 } = (b.thread t).ackDone gs r := by
    simp only [Thread.answer, hwide, Thread.ackDone]
  have hdone : ((b.thread t).ackDone gs r).Idle := ⟨hidle.held, hidle.upq, hidle.up, hidle.ops, hidle.asked⟩
  simp only [effAckResponse, hresp, hack, hans, Thread.deliver_of_none (show ((b.thread t).ackDone gs r).respCh = [] from rfl),
    Block.seatOf_setThread]
  rw [Block.runLane_of_idle (m := b.thr) (h := (b.thread t).ackDone gs r) rfl hdone]
  simp only [Seat.acked, covers, decide_eq_true_eq] <;> rfl

end Slice

/-- Settles O21: each message's effect on a slice is written out by the lemma of its form; with nothing else of the thread on its way,
the lane stays after the response of an ACK. -/
theorem slicesAssertAndConfirm : Obligations.SlicesAssertAndConfirm := by
  unfold Obligations.SlicesAssertAndConfirm
  refine ⟨fun s t gs line n prio rest hch => ⟨fun hcov => .of_effect rfl ?_, fun hcov => .of_effect rfl ?_⟩,
    fun s t gs n rest hch => .of_effect rfl (effSliceMsg_withdraw hch),
    fun s t r gs n hresp hack hupq hheld hup hops hasked hwide =>
      .of_effect rfl (effAckResponse_only hresp hack hwide ⟨hheld, hupq, hup, hops, hasked⟩)⟩
  · rw [effSliceMsg_notify hch, if_pos (by simpa [covers] using hcov)]
    rfl
  · rw [effSliceMsg_notify hch, if_neg (by simpa [covers] using hcov)]
    rw [Seat.assert_eq]
    rfl
end Sys2Proof.Machine

namespace Sys2Proof.Machine

/-! ### The end of a message (R207) -/

theorem Map.mapVals_of_fixed {α : Type} {m : Map α} {f : Nat → α → α} (h : ∀ p ∈ m.cells, f p.1 p.2 = p.2) : m.mapVals f = m := by
  have hid : m.cells.map (fun p => (p.1, f p.1 p.2)) = m.cells.map id := List.map_congr_left fun p hp => by rw [h p hp]; rfl
  rw [Map.mapVals, hid, List.map_id]

/-- Reading a seat after a write, by number. -/
theorem Block.seatOf_setSeat_if (b : Block) (i j : Nat) (v : Seat) : (b.setSeat j v).seatOf i = if i = j then v else b.seatOf i :=
  Map.get_set b.seat {} j i v

theorem Block.refreshReq_of_none {b : Block} {i : Nat} (h : (b.seatOf i).req = none) : b.refreshReq i = b := by
  simp only [Block.refreshReq, h]

/-- Other records. -/
def Block.withCtx (b : Block) (ctx : Map Ctx) : Block := { b with ctx }

@[simp] theorem Block.withCtx_thr (b : Block) (m : Map Ctx) : (b.withCtx m).thr = b.thr := rfl
@[simp] theorem Block.withCtx_up (b : Block) (m : Map Ctx) : (b.withCtx m).up = b.up := rfl
@[simp] theorem Block.withCtx_seatOf (b : Block) (m : Map Ctx) (i : Nat) : (b.withCtx m).seatOf i = b.seatOf i := rfl
@[simp] theorem Block.withCtx_thread (b : Block) (m : Map Ctx) (t : Nat) : (b.withCtx m).thread t = b.thread t := rfl

/-- Re-evaluation of a seat's context touches the records only. -/
theorem Block.dirtySeat_eq (b : Block) (i : Nat) : ∃ m, b.dirtySeat i = b.withCtx m := by
  unfold Block.dirtySeat Block.dirty Block.modRec
  split
  · split
    · exact ⟨_, rfl⟩
    · exact ⟨b.ctx, rfl⟩
  · exact ⟨b.ctx, rfl⟩

@[simp] theorem Block.dirtySeat_thr (b : Block) (i : Nat) : (b.dirtySeat i).thr = b.thr := by
  obtain ⟨m, h⟩ := b.dirtySeat_eq i
  rw [h, Block.withCtx_thr]

@[simp] theorem Block.dirtySeat_seatOf (b : Block) (i j : Nat) : (b.dirtySeat i).seatOf j = b.seatOf j := by
  obtain ⟨m, h⟩ := b.dirtySeat_eq i
  rw [h, Block.withCtx_seatOf]

@[simp] theorem Seat.confirmed_req (z : Seat) (m : Option SliceMsg) (d : Bool) : (z.confirmed m d).req = z.req := by
  unfold Seat.confirmed
  split <;> rfl

/-- A handoff that waits for a seat's message goes on once the seat asks for nothing (R226). -/
def Block.handoffGoes (b : Block) (i : Nat) : Block :=
  let done (x : CsgCmd) : CsgCmd := if x.old == some i && (b.seatOf i).req.isNone then { x with old := none } else x
  { b with csg := b.csg.mapVals fun _ x => done x }

theorem Block.handoffGoes_of_none {b : Block} {i : Nat} (h : ∀ p ∈ b.csg.cells, p.2.old ≠ some i) : b.handoffGoes i = b := by
  have hcsg : (b.csg.mapVals fun _ x => if x.old == some i && (b.seatOf i).req.isNone then { x with old := none } else x) = b.csg :=
    Map.mapVals_of_fixed fun p hp => if_neg (by simp [h p hp])
  rw [Block.handoffGoes, hcsg]

section Confirm

variable {b : Block} {t : Nat} {gs d : Bool} {n : BitVec 4}

/-- The thread once the CONFIRM at the head of its channel has freed its tracker. -/
def Thread.freed (h : Thread) (rest : List UpMsg) : Thread := { h with up := rest, trk := false, tag := {}, sent := none }

/-- The CONFIRM at the head of the channel has told the block of its seat's line and freed the tracker. -/
def Block.told (b : Block) (t : Nat) (gs d : Bool) (rest : List UpMsg) : Block :=
  (b.setSeat (seatIx t gs) ((b.seatOf (seatIx t gs)).confirmed (b.thread t).sent d)).setThread t ((b.thread t).freed rest)

theorem effConfirm_of_head {rest : List UpMsg} (hup : (b.thread t).up = .confirm gs n d :: rest) :
    effConfirm b t = ((((((b.told t gs d rest).handoffGoes (seatIx t gs)).refreshReq (2 * t)).refreshReq (2 * t + 1)).dirtySeat
      (2 * t)).dirtySeat (2 * t + 1)).runLane t := by
  simp only [effConfirm, hup]
  rfl

theorem Block.told_req {i : Nat} {rest : List UpMsg} (h : (b.seatOf i).req = none) : ((b.told t gs d rest).seatOf i).req = none := by
  rw [Block.told, Block.seatOf_setThread, Block.seatOf_setSeat_if]
  split
  · next heq => rw [Seat.confirmed_req, ← heq, h]
  · exact h

theorem effConfirm_only (hup : (b.thread t).up = [.confirm gs n d]) (hupq : (b.thread t).upq = []) (hheld : (b.thread t).held = [])
    (hops : (b.thread t).ops = []) (hasked : (b.thread t).asked = none)
    (hold : ∀ p ∈ b.csg.cells, p.2.old ≠ some (seatIx t gs)) (hhost : (b.seatOf (2 * t)).req = none)
    (hguest : (b.seatOf (2 * t + 1)).req = none) :
    effConfirm b t = ((b.told t gs d []).dirtySeat (2 * t)).dirtySeat (2 * t + 1) := by
  rw [effConfirm_of_head hup, Block.handoffGoes_of_none (b := b.told t gs d []) hold, Block.refreshReq_of_none (Block.told_req hhost),
    Block.refreshReq_of_none (Block.told_req hguest)]
  exact Block.runLane_of_idle (m := b.thr) (h := (b.thread t).freed []) (by rw [Block.dirtySeat_thr, Block.dirtySeat_thr]; rfl)
    ⟨hheld, hupq, rfl, hops, hasked⟩

end Confirm

/-! ### A slice link's restart (R206) -/

/-- The restart of one thread's side of its link. -/
def Block.laneReset (b : Block) (t : Nat) : Block :=
  let b := (b.unask (2 * t)).unask (2 * t + 1)
  let b := (b.setSeat (2 * t) (b.seatOf (2 * t)).linkReset).setSeat (2 * t + 1) (b.seatOf (2 * t + 1)).linkReset
  let b := b.setThread t (b.thread t).linkReset
  let done (x : CsgCmd) : CsgCmd := if x.old == some (2 * t) || x.old == some (2 * t + 1) then { x with old := none } else x
  { b with csg := b.csg.mapVals fun _ x => done x }

theorem Block.sliceReset_eq (b : Block) (sl : Nat) :
    b.sliceReset sl = (List.range 4).foldl (fun b j => b.laneReset (4 * sl + j)) b := rfl

@[simp] theorem Seat.linkReset_linkReset (z : Seat) : z.linkReset.linkReset = z.linkReset := rfl
@[simp] theorem Thread.linkReset_linkReset (h : Thread) : h.linkReset.linkReset = h.linkReset := rfl

@[simp] theorem Block.unask_ctx (b : Block) (i : Nat) : (b.unask i).ctx = b.ctx := rfl
@[simp] theorem Block.unask_thr (b : Block) (i : Nat) : (b.unask i).thr = b.thr := rfl

theorem Block.unask_seatOf (b : Block) (i j : Nat) : (b.unask i).seatOf j = if j = i then { b.seatOf i with req := none } else b.seatOf j :=
  b.seatOf_setSeat_if j i { b.seatOf i with req := none }

@[simp] theorem Block.laneReset_ctx (b : Block) (t : Nat) : (b.laneReset t).ctx = b.ctx := by
  simp only [Block.laneReset, Block.setThread_ctx, Block.setSeat_ctx, Block.unask_ctx]

theorem Block.laneReset_thread (b : Block) (t u : Nat) :
    (b.laneReset t).thread u = if u = t then (b.thread u).linkReset else b.thread u := by
  have hthr : (b.laneReset t).thr = b.thr.set {} t (b.thread t).linkReset := by
    simp only [Block.laneReset, Block.setThread, Block.thread, Block.setSeat_thr, Block.unask_thr]
  rw [Block.thread, hthr, Map.get_set]
  split
  · next h => rw [h]
  · rfl

theorem Block.laneReset_seatOf (b : Block) (t i : Nat) :
    (b.laneReset t).seatOf i = if i / 2 = t then (b.seatOf i).linkReset else b.seatOf i := by
  have hodd : (2 * t + 1) / 2 = t := by omega
  have hseat : (b.laneReset t).seat = ((((b.unask (2 * t)).unask (2 * t + 1)).setSeat (2 * t)
      (((b.unask (2 * t)).unask (2 * t + 1)).seatOf (2 * t)).linkReset).setSeat (2 * t + 1)
        (((b.unask (2 * t)).unask (2 * t + 1)).seatOf (2 * t + 1)).linkReset).seat := by
    simp only [Block.laneReset, Block.setThread_seat]
  rw [Block.seatOf, hseat, ← Block.seatOf]
  simp only [Block.seatOf_setSeat_if, Block.unask_seatOf]
  by_cases hguest : i = 2 * t + 1
  · subst hguest
    simp [hodd, Seat.linkReset]
  · by_cases hhost : i = 2 * t
    · subst hhost
      simp [Seat.linkReset]
    · have hother : i / 2 ≠ t := by omega
      simp only [hguest, hhost, hother, if_false]

theorem Block.laneResets_seatOf (k i : Nat) (l : List Nat) (b : Block) :
    (l.foldl (fun b j => b.laneReset (k + j)) b).seatOf i = if ∃ j ∈ l, k + j = i / 2 then (b.seatOf i).linkReset else b.seatOf i := by
  induction l generalizing b with
  | nil => simp
  | cons j l ih =>
    rw [List.foldl_cons, ih, Block.laneReset_seatOf]
    by_cases hj : i / 2 = k + j
    · simp [hj]
    · simp [hj, Ne.symm hj]

theorem Block.laneResets_thread (k u : Nat) (l : List Nat) (b : Block) :
    (l.foldl (fun b j => b.laneReset (k + j)) b).thread u = if ∃ j ∈ l, k + j = u then (b.thread u).linkReset else b.thread u := by
  induction l generalizing b with
  | nil => simp
  | cons j l ih =>
    rw [List.foldl_cons, ih, Block.laneReset_thread]
    by_cases hj : u = k + j
    · simp [hj]
    · simp [hj, Ne.symm hj]

theorem mem_four_iff (sl t : Nat) : (∃ j ∈ List.range 4, 4 * sl + j = t) ↔ t / 4 = sl := by
  simp only [List.mem_range]
  constructor
  · rintro ⟨j, hj, rfl⟩
    omega
  · intro h
    exact ⟨t % 4, by omega, by omega⟩

theorem Block.sliceReset_seatOf (b : Block) (sl i : Nat) :
    (b.sliceReset sl).seatOf i = if i / 8 = sl then { ctx := (b.seatOf i).ctx } else b.seatOf i := by
  have hseat : i / 2 / 4 = i / 8 := Nat.div_div_eq_div_mul i 2 4
  rw [Block.sliceReset_eq, Block.laneResets_seatOf]
  simp only [mem_four_iff, hseat]
  rfl

theorem Block.sliceReset_thread (b : Block) (sl t : Nat) :
    (b.sliceReset sl).thread t = if t / 4 = sl then { coreRsp := (b.thread t).coreRsp } else b.thread t := by
  rw [Block.sliceReset_eq, Block.laneResets_thread]
  simp only [mem_four_iff]
  rfl

@[simp] theorem Block.sliceReset_ctx (b : Block) (sl : Nat) : (b.sliceReset sl).ctx = b.ctx := by
  simp only [Block.sliceReset_eq, List.range_succ, List.range_zero, List.nil_append, List.cons_append, List.foldl_cons, List.foldl_nil,
    Block.laneReset_ctx]

/-! #### Re-evaluation of the slice's contexts -/

theorem Block.rec?_setRec_ne (b : Block) {c d : CtxNo} (x : Ctx) (h : d ≠ c) : (b.setRec c x).rec? d = b.rec? d :=
  Map.find?_insert_ne _ _ fun e => h (BitVec.eq_of_toNat_eq e)

/-- The record is to be re-evaluated. -/
def Ctx.asDirty (x : Ctx) : Ctx := { x with dirty := true }

theorem Block.dirtySeat_rec? (b : Block) (i : Nat) (c : CtxNo) :
    (b.dirtySeat i).rec? c = if (b.seatOf i).ctx = some c then (b.rec? c).map Ctx.asDirty else b.rec? c := by
  unfold Block.dirtySeat Block.dirty Block.modRec
  rcases hctx : (b.seatOf i).ctx with - | d
  · simp
  · by_cases hd : d = c
    · subst hd
      rcases hx : b.rec? d with - | x
      · simp [hx]
      · simp [hx, Ctx.asDirty]
    · rcases hx : b.rec? d with - | x
      · simp [hx, hd]
      · simp [hx, hd, Block.rec?_setRec_ne _ _ (Ne.symm hd)]

theorem Block.dirtySeats_rec? (k : Nat) (c : CtxNo) (l : List Nat) (b : Block) :
    (l.foldl (fun b j => b.dirtySeat (k + j)) b).rec? c =
      if ∃ j ∈ l, (b.seatOf (k + j)).ctx = some c then (b.rec? c).map Ctx.asDirty else b.rec? c := by
  induction l generalizing b with
  | nil => simp
  | cons j l ih =>
    rw [List.foldl_cons, ih, Block.dirtySeat_rec?]
    simp only [Block.dirtySeat_seatOf]
    by_cases hj : (b.seatOf (k + j)).ctx = some c
    · have hagain : ((b.rec? c).map Ctx.asDirty).map Ctx.asDirty = (b.rec? c).map Ctx.asDirty := by
        rw [Option.map_map]
        rfl
      simp [hj, hagain]
    · simp [hj]

theorem Block.dirtySeats_eq (k : Nat) (l : List Nat) (b : Block) : ∃ m, l.foldl (fun b j => b.dirtySeat (k + j)) b = b.withCtx m := by
  induction l generalizing b with
  | nil => exact ⟨b.ctx, rfl⟩
  | cons j l ih =>
    obtain ⟨m, hm⟩ := b.dirtySeat_eq (k + j)
    obtain ⟨m', hm'⟩ := ih (b.dirtySeat (k + j))
    exact ⟨m', by rw [List.foldl_cons, hm', hm]; rfl⟩

/-- Other slice links are up. -/
def Block.withUp (b : Block) (up : List Nat) : Block := { b with up }

@[simp] theorem Block.withUp_up (b : Block) (up : List Nat) : (b.withUp up).up = up := rfl
@[simp] theorem Block.withUp_ctx (b : Block) (up : List Nat) : (b.withUp up).ctx = b.ctx := rfl
@[simp] theorem Block.withUp_rec? (b : Block) (up : List Nat) (c : CtxNo) : (b.withUp up).rec? c = b.rec? c := rfl
@[simp] theorem Block.withUp_seatOf (b : Block) (up : List Nat) (i : Nat) : (b.withUp up).seatOf i = b.seatOf i := rfl
@[simp] theorem Block.withUp_thread (b : Block) (up : List Nat) (t : Nat) : (b.withUp up).thread t = b.thread t := rfl

/-- The slice with its link up again. -/
def Block.linked (b : Block) (sl : Nat) : Block := (b.sliceReset sl).withUp ((sl :: b.up).mergeSort (· ≤ ·))

theorem Block.linked_dirtySeats_rec? (b : Block) (sl : Nat) (c : CtxNo) :
    ((List.range 8).foldl (fun b j => b.dirtySeat (8 * sl + j)) (b.linked sl)).rec? c =
      if ∃ j : Fin 8, (b.seatOf (8 * sl + j)).ctx = some c then (b.rec? c).map Ctx.asDirty else b.rec? c := by
  have hctx : ∀ j < 8, ((b.linked sl).seatOf (8 * sl + j)).ctx = (b.seatOf (8 * sl + j)).ctx := by
    intro j hj
    rw [Block.linked, Block.withUp_seatOf, Block.sliceReset_seatOf, if_pos (by omega)]
  have hrec : (b.linked sl).rec? c = b.rec? c := by
    rw [Block.linked, Block.withUp_rec?, Block.rec?, Block.sliceReset_ctx, Block.rec?]
  have hsome : (∃ j ∈ List.range 8, ((b.linked sl).seatOf (8 * sl + j)).ctx = some c) ↔
      ∃ j : Fin 8, (b.seatOf (8 * sl + j)).ctx = some c := by
    constructor
    · rintro ⟨j, hj, h⟩
      rw [List.mem_range] at hj
      exact ⟨⟨j, hj⟩, (hctx j hj).symm.trans h⟩
    · rintro ⟨j, h⟩
      exact ⟨j, List.mem_range.mpr j.isLt, (hctx j j.isLt).trans h⟩
  rw [Block.dirtySeats_rec?, hrec]
  simp only [hsome]

theorem effSliceUp_of_down {b : Block} {sl : Nat} (hon : b.dpOn = true) (hbuilt : sl < b.prm.slices) (hdown : sl ∉ b.up) :
    effSliceUp b sl = ((List.range 8).foldl (fun b j => b.dirtySeat (8 * sl + j)) (b.linked sl)).flag (pgCSG (sl / 16)) 6 := by
  have hgo : (decide (b.prm.slices ≤ sl) || b.up.contains sl || !b.dpOn) = false := by simp [hon, hbuilt, hdown]
  rw [effSliceUp, hgo, if_neg (by decide)]
  rfl

theorem effSliceDown_of_up {b : Block} {sl : Nat} (hup : sl ∈ b.up) :
    effSliceDown b sl = ((b.sliceReset sl).withUp (b.up.erase sl)).flag (pgCSG (sl / 16)) 5 := by
  rw [effSliceDown, if_neg (by simp [hup])]
  rfl

/-- Settles O22: a CONFIRM with nothing else of its thread on the way; the restart of a slice's four lanes and eight seats; on the way
up the re-evaluation of the contexts in them. -/
theorem confirmsAndLinksRestartDelivery : Obligations.ConfirmsAndLinksRestartDelivery := by
  unfold Obligations.ConfirmsAndLinksRestartDelivery
  refine ⟨fun s t gs d n hup hupq hheld hops hasked hold hhost hguest => .of_effect rfl ?_,
    fun s sl hon hbuilt hdown => .of_effect rfl (effSliceUp_of_down hon hbuilt hdown) ?_,
    fun s sl hup => .of_effect rfl (effSliceDown_of_up hup) ?_⟩
  · rw [effConfirm_only hup hupq hheld hops hasked hold hhost hguest, Block.told]
    unfold Seat.confirmed
    rcases (s.blk.thread t.toNat).sent with - | ⟨⟨⟩⟩ <;> rfl
  · have hrec (c : CtxNo) := s.blk.linked_dirtySeats_rec? sl.toNat c
    obtain ⟨m, hm⟩ := Block.dirtySeats_eq (8 * sl.toNat) (List.range 8) (s.blk.linked sl.toNat)
    refine ⟨?_, fun x hx => ?_, fun t => ?_, fun i => ?_, fun j c hj => ?_, fun c hc => ?_⟩
    · rw [Block.flag_up, hm, Block.withCtx_up, Block.linked, Block.withUp_up]
      exact List.mem_mergeSort.mpr (List.mem_cons_self ..)
    · rw [Block.flag_up, hm, Block.withCtx_up, Block.linked, Block.withUp_up]
      exact List.mem_mergeSort.mpr (List.mem_cons_of_mem _ hx)
    · rw [Block.thread_flag, hm, Block.withCtx_thread, Block.linked, Block.withUp_thread, Block.sliceReset_thread]
    · rw [Block.seatOf_flag, hm, Block.withCtx_seatOf, Block.linked, Block.withUp_seatOf, Block.sliceReset_seatOf]
    · rw [Block.rec?_flag, hrec, if_pos ⟨j, hj⟩]
      rfl
    · rw [Block.rec?_flag, hrec, if_neg (not_exists.mpr hc)]
  · refine ⟨?_, ?_, fun t => ?_, fun i => ?_⟩
    · rw [Block.flag_up, Block.withUp_up]
    · rw [Block.flag_ctx, Block.withUp_ctx, Block.sliceReset_ctx]
    · rw [Block.thread_flag, Block.withUp_thread, Block.sliceReset_thread]
    · rw [Block.seatOf_flag, Block.withUp_seatOf, Block.sliceReset_seatOf]

end Sys2Proof.Machine

namespace Sys2Proof.Machine

/-! ### A write of CSG_CMD at the port (R222, R229) -/

theorem defOf_csg_cmd : defOf .csg 0x044 = { wo := 0x0007FF3F, key := true, atOnce := true } := by decide

theorem pgCSG_lt (g : Fin 32) : pgCSG g < 128 := by
  simp only [pgCSG]
  omega

theorem earlyPage_csg (g : Fin 32) : earlyPage (pgCSG g) = false := by revert g; decide

/-- The command of CSG_CTX: the context that the page's next command is for. -/
def Block.csgCtx (b : Block) (g : Nat) : CtxNo := b.regFld (pgCSG g) 0x040 15 0

section Command

variable {b : Block} {g : Fin 32} {w : RegAcc}

theorem Block.regAsk_csg (off : Nat) : b.regAsk (pgCSG g) off = .none := by
  have herw : pgCSG g ≠ pgERW := by
    simp only [pgCSG, pgERW]
    omega
  simp [Block.regAsk, pgClass_csg, herw]

theorem Block.selBad_csg (off : Nat) : b.selBad (pgCSG g) off = (b, false) := by
  simp only [Block.selBad, pgClass_csg]

/-- A page of a core-slice group has no unit that is gated. -/
theorem Block.wakeUnits_csg (off : Nat) : b.wakeUnits (pgCSG g) off = b := by
  simp only [Block.wakeUnits, pageUnits, pgClass_csg, List.foldl_nil]

theorem Block.mbxTouch_csg (id : BitVec 5) (off : Nat) : b.mbxTouch id (pgCSG g) off = b := by
  have hrm : pgCSG g ≠ pgRM := by
    simp only [pgCSG, pgRM]
    omega
  simp only [Block.mbxTouch, hrm, false_and, if_false]

theorem Block.wrote_csg (off : Nat) : b.wrote (pgCSG g) off w = (b.relock (pgCSG g)).answer false 0 := by
  rw [Block.wrote, Block.regAsk_csg, Block.turn_none, Block.wakeUnits_csg, Block.mbxTouch_csg]

variable (ha : w.als = .base) (h : b.writes (pgCSG g) 0x044 w = true)
include ha h

/-- Table 12-3 lets the write be the command of its value. -/
theorem Block.writeFields_csgCmd :
    (b.relock (pgCSG g)).writeFields w.rid (pgCSG g) .csg w.als 0x044 w.data (!(b.hdr (pgCSG g)).unlocked) =
      (b.relock (pgCSG g)).csgCmd g (w.data &&& 0x0007FF3F) := by
  simp only [Block.writes, Block.takes, Block.immediate, pgClass_csg, Bool.and_eq_true, decide_eq_true_eq, Bool.not_eq_true',
    and_assoc] at h
  obtain ⟨-, h40, -, -, -, hpost, hen, hkey, hheld, -, -, -, -, -, -, -, hpst, happ⟩ := h
  have hhdr : (b.relock (pgCSG g)).hdr (pgCSG g) = { b.hdr (pgCSG g) with unlocked := false } := Block.hdr_setHdr b _ _
  have hunit : pgCSG g - 0x40 = g := by simp [pgCSG]
  rw [Block.writeFields_ok (b.relock (pgCSG g)) (pgCSG g) 0x044 w .csg _ (pgClass_csg g) h40 (by rw [hhdr, hen]) (fun hk => by simpa [hk] using hkey)
    (fun hw => by simp [defOf_csg_cmd] at hw) hheld hpost rfl (by rw [if_pos ha]; decide) (by rw [Block.selBad_csg]) (by simp) (by simp),
    Block.commitWrite_now (b.relock (pgCSG g)) _ _ _ _ _ _ hpst (by rw [hhdr, happ]) hheld, Block.wval_base _ _ _ _ _ (pgClass_csg g) ha, defOf_csg_cmd]
  simp only [Block.applyReg, Block.applyCsg, hunit, storedVal, if_true]
  rfl

theorem Block.writeOpen_csgCmd : b.writeOpen w.rid (pgCSG g) w.als 0x044 w.data =
    ((b.relock (pgCSG g)).csgCmd g (w.data &&& 0x0007FF3F), false) := by
  have hfields := Block.writeFields_csgCmd ha h
  simp only [Block.writes, Block.takes, pgClass_csg, Bool.and_eq_true, Option.isNone_iff_eq_none, and_assoc] at h
  obtain ⟨-, -, -, -, hbuilt, hpost, -⟩ := h
  have hlock : b.setHdr (pgCSG g) { b.hdr (pgCSG g) with unlocked := false } = b.relock (pgCSG g) := rfl
  have hpost' : ((b.relock (pgCSG g)).fab.posted.find? (pgCSG g)).isSome = false := by
    rw [show (b.relock (pgCSG g)).fab.posted = b.fab.posted from rfl, hpost]
    rfl
  have hbuilt' : b.csgBuilt (pgCSG g - 0x40) = true := by simpa using hbuilt
  unfold Block.writeOpen
  simp only [pgClass_csg, hbuilt', hlock, hpost', Block.wakeUnits_csg, hfields, Block.mbxTouch_csg, Bool.not_true, Bool.false_eq_true,
    and_false, if_false, show ¬ ((0x044 : Nat) = 0x014 ∧ w.als = .base) by omega]

theorem Block.regCmd_csgCmd (hq : ((b.relock (pgCSG g)).csgCmd g (w.data &&& 0x0007FF3F)).fab.q = b.fab.q) :
    b.regCmd (pgCSG g) 0x044 w = b.oneSeq (((b.relock (pgCSG g)).csgCmd g (w.data &&& 0x0007FF3F)).answer false 0) := by
  have hopen := Block.writeOpen_csgCmd ha h
  have hask : b.regAsk (pgCSG g) 0x044 = .none := Block.regAsk_csg _
  simp only [Block.writes, Block.takes, pgClass_csg, earlyPage_csg, Bool.and_eq_true, Bool.and_false, Bool.or_false,
    beq_iff_eq, and_assoc] at h
  obtain ⟨hfree, -, hmode, hadm, -⟩ := h
  rw [Block.regCmd_of_turn (pgCSG_lt g) (by decide) (by decide) hfree hmode hadm (by rw [hask]; trivial) (by rw [hask]; rfl), hask,
    Block.turn_none, hopen]
  · rfl
  · rw [hask, Block.turn_none, hopen, hq]
    exact (Block.portFree_iff.mp hfree).1

end Command

/-- A command of a CSG page that meets no obstacle puts what it makes of the locked page, the port's answer given before. -/
theorem Puts.of_csgCmd {s : State} {i : Instr} {g : Fin 32} {w : RegAcc} {op : Word} {r r' : Block} (ha : w.als = .base)
    (e : exec i s = .next { s with blk := s.blk.regCmd (pgCSG g) 0x044 (withOp w 0xF op) })
    (h : s.blk.writes (pgCSG g) 0x044 (withOp w 0xF op) = true)
    (hr : (s.blk.relock (pgCSG g)).csgCmd g (blend 0xF w.data op &&& 0x0007FF3F) = r) (hq : r.fab.q = s.blk.fab.q)
    (ht : r.answer false 0 = r') : Puts s i r' :=
  .of_effect e (ht ▸ hr ▸ Block.regCmd_csgCmd (w := withOp w 0xF op) ha h ((congrArg (·.fab.q) hr).trans hq))

/-! #### The fields of the command word -/

theorem fld_csgCmd_op (d op : Word) : fld (blend 0xF d op &&& 0x0007FF3F) 3 0 = fld op 3 0 :=
  fld_blend_and_of_ones d op (by decide) (by decide)

theorem fld_csgCmd_seat (d op : Word) : fld (blend 0xF d op &&& 0x0007FF3F) 5 4 = fld d 5 4 :=
  fld_blend_and d op (by decide) (by decide) (by decide) (by decide)

theorem fld_csgCmd_thread (d op : Word) : fld (blend 0xF d op &&& 0x0007FF3F) 18 8 = fld d 18 8 :=
  fld_blend_and d op (by decide) (by decide) (by decide) (by decide)

theorem seatArg_some {v : Word} {gs : Bool} (h : fld v 5 4 = if gs then 2 else 1) : seatArg v = some (seatIx (fld v 18 8).toNat gs) := by
  cases gs <;> simp only [seatArg, h] <;> rfl

/-! #### The codes of CSG_CMD (Table 7-5) -/

section Codes

variable {b : Block} {g : Nat} {v : Word} (hidle : (b.cmd g).busy = false)
include hidle

theorem Block.csgCmd_unload (hop : fld v 3 0 = 2) : b.csgCmd g v = b.csgUnload g (b.csgCtx g) := by
  simp only [Block.csgCmd, hidle, hop]
  rfl

theorem Block.csgCmd_seat (hop : fld v 3 0 = 3) : b.csgCmd g v = b.csgSeat g (b.csgCtx g) v := by
  simp only [Block.csgCmd, hidle, hop]
  rfl

theorem Block.csgCmd_unseat (hop : fld v 3 0 = 4) : b.csgCmd g v = b.csgUnseat g (b.csgCtx g) := by
  simp only [Block.csgCmd, hidle, hop]
  rfl

theorem Block.csgCmd_move (hop : fld v 3 0 = 5) : b.csgCmd g v = b.csgMove g (b.csgCtx g) v := by
  simp only [Block.csgCmd, hidle, hop]
  rfl

theorem Block.csgCmd_undefined (hop : (fld v 3 0).toNat = 0 ∨ 5 < (fld v 3 0).toNat) :
    b.csgCmd g v = b.csgEnd g (b.csgCtx g) resBadop := by
  unfold Block.csgCmd
  rw [if_neg (by simp [hidle])]
  split
  iterate 5 exact absurd hop (by omega)
  rfl

end Codes

end Sys2Proof.Machine

namespace Sys2Proof.Machine

/-! ### The end of a command (R222) -/

/-- A result other than CTX_PIN_FULL is told in the page of the command alone. -/
theorem Block.csgEnd_of_ne (b : Block) (g : Nat) (c : CtxNo) {r : BitVec 4} (h : r ≠ resPinFull) :
    b.csgEnd g c r = (b.setCmd g { busy := false, result := r, ctx := c }).raise (pgCSG g) (if r = resOk then 1 else 3) := by
  rw [Block.csgEnd, if_neg h]

theorem Block.raise_queue (b : Block) (pg : Nat) (m : BitVec 8) : (b.raise pg m).fab.q = b.fab.q :=
  (congrArg (·.fab.q) (Block.raise_notes b pg m).rest).trans rfl

/-- A command of a CSG page that ends at once: the port's answer may be given before its effect. -/
theorem Puts.of_csgEnd {s : State} {i : Instr} {g : Fin 32} {w : RegAcc} {op : Word} {c : CtxNo} {r : BitVec 4} {b b' : Block}
    (ha : w.als = .base) (e : exec i s = .next { s with blk := s.blk.regCmd (pgCSG g) 0x044 (withOp w 0xF op) })
    (h : s.blk.writes (pgCSG g) 0x044 (withOp w 0xF op) = true)
    (hr : (s.blk.relock (pgCSG g)).csgCmd g (blend 0xF w.data op &&& 0x0007FF3F) = b.csgEnd g c r) (hpin : r ≠ resPinFull)
    (hq : b.fab.q = s.blk.fab.q) (ht : b.answer false 0 = b') :
    Puts s i ((b'.setCmd g { busy := false, result := r, ctx := c }).raise (pgCSG g) (if r = resOk then 1 else 3)) := by
  rw [Block.csgEnd_of_ne _ _ _ hpin] at hr
  refine .of_csgCmd ha e h hr ((Block.raise_queue _ _ _).trans hq) ?_
  rw [← ht, ← Block.raise_answer]
  rfl

/-! ### Seats that fill and empty (Table 7-5) -/

theorem Block.unfilter_fab (b : Block) (c : CtxNo) : (b.unfilter c).fab = b.fab := by
  obtain ⟨m, h⟩ := Block.unfilter_eq b c
  rw [h]

theorem Block.unfilter_answer (b : Block) (c : CtxNo) (err : Bool) (v : BitVec 64) :
    (b.answer err v).unfilter c = (b.unfilter c).answer err v := by
  simp only [Block.unfilter, apply_ite (Block.answer · err v)]
  rfl

theorem Block.setCmd_answer (b : Block) (g : Nat) (m : CsgCmd) (err : Bool) (v : BitVec 64) :
    (b.answer err v).setCmd g m = (b.setCmd g m).answer err v := rfl

theorem Block.setRec_answer (b : Block) (c : CtxNo) (x : Ctx) (err : Bool) (v : BitVec 64) :
    (b.answer err v).setRec c x = (b.setRec c x).answer err v := rfl

theorem Block.ask_fab (b : Block) (i : Nat) (r : SeatReq × BitVec 4) : (b.ask i r).fab = b.fab := by
  unfold Block.ask
  dsimp only
  split <;> rfl

theorem Block.ask_answer (b : Block) (i : Nat) (r : SeatReq × BitVec 4) (err : Bool) (v : BitVec 64) :
    (b.answer err v).ask i r = (b.ask i r).answer err v := by
  simp only [Block.ask, apply_ite (Block.answer · err v)]
  rfl

theorem Block.emptySeat_fab (b : Block) (i : Nat) : (b.emptySeat i).fab = b.fab := by
  rw [Block.emptySeat, Block.setSeat_fab, Block.withdrawSeat]
  split
  · exact Block.ask_fab _ _ _
  · rfl

theorem Block.emptySeat_answer (b : Block) (i : Nat) (err : Bool) (v : BitVec 64) :
    (b.answer err v).emptySeat i = (b.emptySeat i).answer err v := by
  have hout : (b.answer err v).withdrawSeat i = (b.withdrawSeat i).answer err v := by
    simp only [Block.withdrawSeat, Block.seatOf_answer, Block.ask_answer, apply_ite (Block.answer · err v)]
  rw [Block.emptySeat, hout]
  rfl

/-- A resident context busy with nothing. -/
structure Block.Free (b : Block) (c : CtxNo) (x : Ctx) : Prop where
  here : b.rec? c = some x
  moving : x.moving = false
  refill : x.refill = none
  refillOn : x.refillOn = false
  load : b.loads.find? c.toNat = none
  leave : b.leave.find? c.toNat = none

section Free

variable {b : Block} {c : CtxNo} {x : Ctx} {i : Nat}

theorem Block.Free.not_busy (h : b.Free c x) : b.ctxBusy c = false := by
  simp [Block.ctxBusy, h.here, h.moving, h.refill, h.refillOn, h.load, h.leave]

theorem Block.enterSeat_of_rec (h : b.rec? c = some x) (j : Nat) :
    b.enterSeat c j =
      ((b.setSeat j { b.seatOf j with ctx := some c }).setRec c { x with seat := some j, dirty := true }).unfilter c := by
  have hx : (b.setSeat j { b.seatOf j with ctx := some c }).rec? c = some x := h
  rw [Block.enterSeat, Block.modRec, hx]

theorem Block.leaveSeat_of_rec (h : b.rec? c = some x) (hs : x.seat = some i) :
    b.leaveSeat c = (b.emptySeat i).setRec c { x with seat := none } := by
  simp only [Block.leaveSeat, h, hs]

theorem Block.leaveSeat_dirty (h : b.rec? c = some x) (hs : x.seat = some i) :
    (b.leaveSeat c).dirty c = (b.emptySeat i).setRec c { x with seat := none, dirty := true } := by
  rw [Block.leaveSeat_of_rec h hs, Block.dirty, Block.modRec, Block.rec?_setRec]
  exact Block.setRec_setRec _ _ _ _

end Free

/-! ### The seat commands (Table 7-5) -/

section SeatCmd

variable {b : Block} {g : Nat} {c : CtxNo} {x : Ctx} {v : Word} {i j : Nat} (h : b.Free c x)
include h

theorem Block.csgSeat_ok (harg : seatArg v = some j) (hthr : (fld v 18 8).toNat < b.threads) (hseat : x.seat = none)
    (hpin : x.pinned = true) (hown : ownerBad (some j) x.owner = false) (hfree : b.seatTaken j = false) :
    b.csgSeat g c v = (b.enterSeat c j).csgEnd g c resOk := by
  have hthr : ¬ b.threads ≤ (fld v 18 8).toNat := Nat.not_le.mpr hthr
  simp [Block.csgSeat, firstFail, harg, hthr, h.here, h.not_busy, Block.seatIn, hseat, Block.ownerOf, hown, hfree, Block.pinFull, hpin]

theorem Block.csgUnseat_ok (hseat : x.seat = some i) :
    b.csgUnseat g c = ((b.leaveSeat c).dirty c).csgEnd g c resOk := by
  simp [Block.csgUnseat, firstFail, h.here, h.not_busy, Block.seatIn, hseat]

theorem Block.csgMove_ok (harg : seatArg v = some j) (hthr : (fld v 18 8).toNat < b.threads) (hseat : x.seat = some i)
    (hne : i ≠ j) (hown : ownerBad (some j) x.owner = false) (hfree : b.seatTaken j = false) :
    b.csgMove g c v = ((b.emptySeat i).setRec c { x with seat := none, moving := true, loc := .none }).setCmd g
      { busy := true, target := some j, old := if (b.seatOf i).out then some i else none, ctx := c } := by
  have hthr : ¬ b.threads ≤ (fld v 18 8).toNat := Nat.not_le.mpr hthr
  simp [Block.csgMove, firstFail, harg, hthr, h.here, h.not_busy, Block.seatIn, hseat, hne, Block.ownerOf, hown, hfree,
    Block.leaveSeat_of_rec h.here hseat, Block.modRec]

end SeatCmd

/-- A guest seat takes a context of any owner, a host seat the PMF's only. -/
theorem ownerBad_seatIx {t : Nat} {gs : Bool} {o : OwnerNo} (h : gs = false → o = 0) : ownerBad (some (seatIx t gs)) o = false := by
  cases gs with
  | true => simp [ownerBad, seatIx]
  | false => simp [ownerBad, h rfl]

theorem undefOp_csgCmd (d : Word) :
    (fld (undefOp d 15 1 5) 3 0).toNat = 0 ∨ 5 < (fld (undefOp d 15 1 5) 3 0).toNat := by
  have hfld : (fld d 3 0).toNat = (d &&& 15).toNat := by
    have hmask : (fld d 3 0).toNat = d.toNat % 2 ^ 4 := by simp [fld]
    rw [hmask, BitVec.toNat_and, ← Nat.and_two_pow_sub_one_eq_mod]
    rfl
  unfold undefOp
  split
  · exact .inl (by decide)
  · rw [hfld]
    omega

/-! ### The end of a handoff (R226) -/

theorem Block.releaseHold_of_nil {b : Block} (h : b.hold = []) (c : CtxNo) : b.releaseHold c = b := by
  simp only [Block.releaseHold, h, List.filter_nil, List.reverse_nil, List.foldl_nil]
  rw [← h]

theorem Block.purgeIfDue_of_pmf {b : Block} {c : CtxNo} {x : Ctx} (h : b.rec? c = some x) (ho : x.owner = 0) :
    b.purgeIfDue c = b := by
  simp [Block.purgeIfDue, h, ho]

theorem Block.unfilter_setCmd (b : Block) (c : CtxNo) (g : Nat) (m : CsgCmd) : (b.setCmd g m).unfilter c = (b.unfilter c).setCmd g m := by
  simp only [Block.unfilter, apply_ite (Block.setCmd · g m)]
  rfl

theorem Block.unfilter_hold (b : Block) (c : CtxNo) : (b.unfilter c).hold = b.hold := by
  obtain ⟨m, h⟩ := Block.unfilter_eq b c
  rw [h]

section Handoff

variable {b : Block} {g j : Nat} {x : Ctx}

/-- The record at the end of its handoff: current in the seat, its timer back on the wheel. -/
def Block.handedOver (b : Block) (x : Ctx) (j : Nat) : Ctx :=
  { x with moving := false, seat := some j, dirty := true, loc := if x.tarm then b.timerLoc x.tdl else .none }

theorem Block.enterSeat_handoff (c : CtxNo) (m : CsgCmd) :
    ((b.setCmd g m).setRec c ((b.setCmd g m).linkTimer { x with moving := false })).enterSeat c j =
      (((b.setSeat j { b.seatOf j with ctx := some c }).setRec c (b.handedOver x j)).unfilter c).setCmd g m := by
  rw [Block.enterSeat_of_rec (Block.rec?_setRec _ _ _), ← Block.unfilter_setCmd]
  exact congrArg (Block.unfilter · c) (Block.setRec_setRec ((b.setCmd g m).setSeat j { b.seatOf j with ctx := some c }) c _ _)

theorem effHandoffEnd_of_rec (hbusy : (b.cmd g).busy = true) (htarget : (b.cmd g).target = some j) (hold : (b.cmd g).old = none)
    (hx : b.rec? (b.cmd g).ctx = some x) (hown : x.owner = 0) (hhold : b.hold = []) :
    effHandoffEnd b g =
      ((((b.setSeat j { b.seatOf j with ctx := some (b.cmd g).ctx }).setRec (b.cmd g).ctx (b.handedOver x j)).unfilter
          (b.cmd g).ctx).setCmd g { busy := false, result := 0, ctx := (b.cmd g).ctx }).raise (pgCSG g) 1 := by
  simp only [effHandoffEnd, htarget, hbusy, hold, hx, Block.enterSeat_handoff, Bool.not_true, Option.isSome_none, Bool.or_self,
    Bool.false_eq_true, if_false]
  rw [Block.releaseHold_of_nil (by rw [Block.setCmd_hold, Block.unfilter_hold]; exact hhold), Block.csgEnd_of_ne _ _ _ (by decide), Block.setCmd_setCmd,
    Block.purgeIfDue_of_pmf (x := b.handedOver x j) _ hown]
  · rfl
  · rw [Block.rec?, Block.raise_ctx]
    exact (Block.unfilter_rec? _ _ _).trans (Block.rec?_setRec _ _ _)

end Handoff

/-- Settles O26: a command's effect and its end commute with the port's answer. -/
theorem seatCommandsMoveContexts : Obligations.SeatCommandsMoveContexts := by
  unfold Obligations.SeatCommandsMoveContexts
  refine ⟨fun s g w x gs ha hidle hx hmove hrefill hon hload hleave => ?_,
    fun s g j x hbusy htarget hold hx hown hhold => .of_effect rfl (effHandoffEnd_of_rec hbusy htarget hold hx hown hhold),
    fun s g w ha hidle h => ?_⟩
  · simp only [Block.wrote_csg]
    have hfree : (s.blk.relock (pgCSG g)).Free ((s.blk.relock (pgCSG g)).csgCtx g) x := ⟨hx, hmove, hrefill, hon, hload, hleave⟩
    have hidle : ((s.blk.relock (pgCSG g)).cmd g).busy = false := hidle
    have harg (op : Word) (hs : fld w.data 5 4 = if gs then 2 else 1) :
        seatArg (blend 0xF w.data op &&& 0x0007FF3F) = some (seatIx (fld w.data 18 8).toNat gs) := by
      rw [seatArg_some ((fld_csgCmd_seat _ _).trans hs), fld_csgCmd_thread]
    have hthr (op : Word) (ht : (fld w.data 18 8).toNat < s.blk.threads) :
        (fld (blend 0xF w.data op &&& 0x0007FF3F) 18 8).toNat < (s.blk.relock (pgCSG g)).threads := by
      rw [fld_csgCmd_thread]
      exact ht
    refine ⟨fun h hs ht hseat hpin hown htaken => ?_, fun i hseat => ⟨fun h => ?_, fun h hs ht hne hown htaken => ?_⟩⟩
    · refine .of_csgEnd (r := resOk) ha rfl h ((Block.csgCmd_seat hidle (fld_csgCmd_op w.data 3)).trans
        (Block.csgSeat_ok hfree (harg 3 hs) (hthr 3 ht) hseat hpin (ownerBad_seatIx hown) htaken)) (by decide) ?_ ?_
      · rw [Block.enterSeat_of_rec hfree.here, Block.unfilter_fab]
        rfl
      · rw [Block.enterSeat_of_rec hfree.here, ← Block.unfilter_answer]
        rfl
    · refine .of_csgEnd (r := resOk) ha rfl h ((Block.csgCmd_unseat hidle (fld_csgCmd_op w.data 4)).trans
        (Block.csgUnseat_ok hfree hseat)) (by decide) ?_ ?_
      · rw [Block.leaveSeat_dirty hfree.here hseat, Block.setRec_fab, Block.emptySeat_fab]
        rfl
      · rw [Block.leaveSeat_dirty hfree.here hseat, ← Block.setRec_answer, ← Block.emptySeat_answer]
        rfl
    · refine .of_csgCmd ha rfl h ((Block.csgCmd_move hidle (fld_csgCmd_op w.data 5)).trans
        (Block.csgMove_ok hfree (harg 5 hs) (hthr 5 ht) hseat hne (ownerBad_seatIx hown) htaken)) ?_ ?_
      · rw [Block.setCmd_fab, Block.setRec_fab, Block.emptySeat_fab]
        rfl
      · rw [← Block.setCmd_answer, ← Block.setRec_answer, ← Block.emptySeat_answer]
        rfl
  · simp only [Block.wrote_csg]
    have hop : (fld (blend 0xF w.data (undefOp w.data 15 1 5) &&& 0x0007FF3F) 3 0).toNat = 0 ∨
        5 < (fld (blend 0xF w.data (undefOp w.data 15 1 5) &&& 0x0007FF3F) 3 0).toNat := by
      rw [fld_csgCmd_op]
      exact undefOp_csgCmd _
    have hcode := Block.csgCmd_undefined (b := s.blk.relock (pgCSG g)) hidle hop
    exact .of_csgEnd (r := resBadop) ha rfl h hcode (by decide) rfl rfl

end Sys2Proof.Machine

namespace Sys2Proof.Machine

/-! ### UNLOAD (R224) -/

/-- A record with an empty shortlist leaves with nothing to push. -/
theorem Block.leaves_of_empty {b : Block} {c : CtxNo} {x : Ctx} (hx : b.rec? c = some x) (hlist : x.shortlist = []) (why : LeaveFor) :
    b.leaves c why = { b.eraseRec c with leave := b.leave.insert c.toNat { x, why } } := by
  have hkeep : ({ x with shortlist := [] } : Ctx) = x := by rw [← hlist]
  simp only [Block.leaves, hx, hlist, hkeep, List.countP_nil, List.filter_nil, List.reverse_nil, List.foldl_nil, if_true]

theorem Block.csgUnload_ok {b : Block} {g : Nat} {c : CtxNo} {x : Ctx} (h : b.Free c x) (hlist : x.shortlist = [])
    (hseat : x.seat = none) : b.csgUnload g c = { (b.setCmd g { busy := true, ctx := c }).eraseRec c with
      leave := b.leave.insert c.toNat { x, why := .unload g } } := by
  have hx : (b.setCmd g { busy := true, ctx := c }).rec? c = some x := h.here
  have hstay : (b.setCmd g { busy := true, ctx := c }).leaveSeat c = b.setCmd g { busy := true, ctx := c } := by
    simp only [Block.leaveSeat, hx, hseat]
  simp only [Block.csgUnload, firstFail, h.here, h.not_busy, Option.isNone_some, Bool.false_eq_true, if_false, hstay,
    Block.leaves_of_empty hx hlist]
  rfl

/-! ### A writer's port with one write (R248, R249) -/

/-- Where requesters 1 and 2 present nothing, the port's own grants end. -/
theorem Block.grantPort_of_none_ready {b : Block} {w : Nat} (h : (b.writer w).ready = []) (fuel : Nat) : b.grantPort w fuel = b := by
  cases fuel with
  | zero => rfl
  | succ fuel =>
    have hnone (i : Nat) : (b.writer w).portHead i = none := by rw [Writer.portHead, h, List.find?_nil]
    unfold Block.grantPort
    split
    · rfl
    · rfl
    · rw [hnone]

/-- The block once the only write presented has left the port, of the PMF. -/
def Block.wroteOut (b : Block) (w : Nat) (m : MemWrite) : Block :=
  ((b.setWriter w { (b.writer w).spend m.bytes.length with ready := [], out := (b.writer w).out ++ [m] }).granted (.wmem w) 1).pmuEv
    0x13 w (beats32 m.bytes.length)

theorem Block.wroteOut_writer (b : Block) (w : Nat) (m : MemWrite) :
    (b.wroteOut w m).writer w = { (b.writer w).spend m.bytes.length with ready := [], out := (b.writer w).out ++ [m] } := by
  rw [Block.wroteOut, Block.writer_pmuEv]
  exact Block.writer_setWriter _ _ _

theorem Block.issueWrite_granted {b : Block} {w : Nat} {m : MemWrite} (hown : m.tag.owner = 0) (seg : BitVec 6) :
    ((b.setWriter w { b.writer w with ready := [] }).granted (.wmem w) 1).issueWrite w m seg = b.wroteOut w m := by
  have hw : ((b.setWriter w { b.writer w with ready := [] }).granted (.wmem w) 1).writer w = { b.writer w with ready := [] } :=
    Block.writer_setWriter _ _ _
  rw [Block.issueWrite_of_pmf _ _ _ _ hown, hw]
  exact congrArg (fun b : Block => (b.granted (.wmem w) 1).pmuEv 0x13 w (beats32 m.bytes.length)) (Block.setWriter_setWriter _ _ _ _)

theorem Block.grantPort_of_one {b : Block} {w : Nat} {p : PortWrite} (hready : (b.writer w).ready = [p]) (hreq : p.req = 1)
    (hown : p.m.tag.owner = 0) (hpick : b.wmemPick w = some 1) (fuel : Nat) : b.grantPort w (fuel + 1) = b.wroteOut w p.m := by
  have hhead : (b.writer w).portHead 1 = some p := by simp [Writer.portHead, hready, hreq]
  have hempty : [p].erase p = [] := by simp
  unfold Block.grantPort
  simp only [hpick, hhead, hready, hempty, Block.issueWrite_granted hown]
  refine Block.grantPort_of_none_ready ?_ fuel
  rw [Block.wroteOut_writer]

/-- What the port's own grant changes besides the writers and ages is the performance monitor's. -/
theorem Block.wroteOut_notes (b : Block) (w : Nat) (m : MemWrite) :
    Block.Notes [pgPMU, pgRM] { b with wr := (b.wroteOut w m).wr, ages := (b.wroteOut w m).ages } (b.wroteOut w m) := by
  unfold Block.wroteOut
  generalize hb : (b.setWriter w { (b.writer w).spend m.bytes.length with
    ready := [], out := (b.writer w).out ++ [m] }).granted (.wmem w) 1 = b'
  have heq : ({ b with wr := b'.wr, ages := b'.ages } : Block) = b' := by
    rw [← hb]
    rfl
  rw [Block.pmuEv_wr, Block.pmuEv_ages, heq]
  exact Block.pmuEv_notes _ _ _ _

/-! ### The write-back of a record that leaves (R167, R224, Table 7-7) -/

section WriteBack

variable {b b' : Block} {c : CtxNo} {y : Ctx} {g : Nat} {pa : BitVec 64} {dev : Bool}

/-- The write of a context's write-back image to the start of its table entry. -/
def wbWrite (c : CtxNo) (y : Ctx) (off pa : BitVec 64) (dev : Bool) : MemWrite :=
  { kind := .wb c, pa := (pa &&& ~~~0xFFF#64) + BitVec.ofNat 64 (inPage off), bytes := wbBytes y, dev, tag := {} }

theorem Block.writeBack_ok (hown : y.owner = 0) (hbasic : y.basic = false)
    (hxl : xlate b { seg := (b.tableAddr c).1, off := (b.tableAddr c).2, op := opCtxW, obj := c, cont := .wb (c.toNat % 4) } =
      (b', .ok pa dev))
    (hready : (b'.writer (c.toNat % 4)).ready = [])
    (hpick : (b'.present (c.toNat % 4) { req := 1, m := wbWrite c y (b.tableAddr c).2 pa dev, seg := (b.tableAddr c).1 }).wmemPick
      (c.toNat % 4) = some 1) :
    b.writeBack c y =
      (b'.present (c.toNat % 4) { req := 1, m := wbWrite c y (b.tableAddr c).2 pa dev, seg := (b.tableAddr c).1 }).wroteOut
        (c.toNat % 4) (wbWrite c y (b.tableAddr c).2 pa dev) := by
  have hport : ((b'.present (c.toNat % 4) { req := 1, m := wbWrite c y (b.tableAddr c).2 pa dev, seg := (b.tableAddr c).1 }).writer
      (c.toNat % 4)).ready = [{ req := 1, m := wbWrite c y (b.tableAddr c).2 pa dev, seg := (b.tableAddr c).1 }] := by
    simp [Block.present, hready]
  have hgrant := Block.grantPort_of_one hport rfl rfl hpick 63
  simp only [Block.writeBack, hown, hbasic, bne_self_eq_false, Bool.false_and, Bool.false_eq_true, if_false]
  rw [Block.sendWb_ok (q := ⟨_, _, _, _, _, _, _⟩) hxl]
  exact hgrant

theorem Block.kickLeave_unload (hleave : b.leave.find? c.toNat = some { x := y, why := .unload g })
    (hsp : (b.bank (ctxBank c)).spills = []) :
    b.kickLeave c = (({ b with leave := b.leave.erase c.toNat } : Block).writeBack c y).csgEnd g c resOk := by
  have hpush : b.leavePushes c = false := by rw [Block.leavePushes, hsp, List.any_nil]
  simp only [Block.kickLeave, hleave, hpush, Bool.false_eq_true, if_false]

/-- A record that leaves goes on alone where the context has no push and is neither resident nor in a LOAD, now and then. -/
theorem Block.kickCtx_of_leaving (hrec : b.rec? c = none) (hsp : (b.bank (ctxBank c)).spills = [])
    (hsp' : ((b.kickLeave c).bank (ctxBank c)).spills = []) (hload' : (b.kickLeave c).loads.find? c.toNat = none) :
    b.kickCtx c = b.kickLeave c := by
  rw [Block.kickCtx, Block.kickSpills_of_no_push hsp, Block.maybeRefill_of_no_rec hrec, Block.kickSpills_of_no_push hsp',
    Block.kickLoad_of_no_load hload']

end WriteBack

/-! ### The acceptance of a push's last write (R66) -/

section Accept

variable {b : Block} {c : CtxNo} {m : MemWrite} {x : Spill}

theorem Block.startReloads_of_none_saved {b : Block} (h : b.pwr.saved = []) : b.startReloads = b := by
  rw [Block.startReloads, h]
  rfl

/-- The only write has left the port and the only push its bank. -/
def Block.pushAccepted (b : Block) (c : CtxNo) : Block :=
  (b.setWriter (c.toNat % 4) { b.writer (c.toNat % 4) with out := [] }).setBank (ctxBank c) { b.bank (ctxBank c) with spills := [] }

theorem effSpillWriteAccept_only (hout : (b.writer (c.toNat % 4)).out = [m]) (hkind : m.kind = .spill c)
    (hsp : (b.bank (ctxBank c)).spills = [x]) (hx : x.ctx = c) (hph : x.ph = .written 1) :
    effSpillWriteAccept b c = ((b.pushAccepted c).kickCtx c).startReloads := by
  subst hx
  have hof : (b.setWriter (x.ctx.toNat % 4) { b.writer (x.ctx.toNat % 4) with out := [] }).spillOf x.ctx = some x := by
    rw [Block.spillOf, show ((b.setWriter _ _).bank (ctxBank x.ctx)).spills = [x] from hsp]
    simp
  have hdrop : (b.setWriter (x.ctx.toNat % 4) { b.writer (x.ctx.toNat % 4) with out := [] }).dropSpill x.ctx = b.pushAccepted x.ctx :=
    Block.dropSpill_of_only hsp
  simp [effSpillWriteAccept, hout, hkind, acceptFirst, hof, hph, hdrop]

end Accept

/-- The command's end once its context's write-back has left the port. -/
def Block.unloaded (b : Block) (c : CtxNo) (g : Nat) (p : PortWrite) : Block :=
  (((b.present (c.toNat % 4) p).wroteOut (c.toNat % 4) p.m).setCmd g { busy := false, result := 0, ctx := c }).raise (pgCSG g) 1

section Unloaded

variable (b : Block) (c : CtxNo) (g : Nat) (p : PortWrite)

theorem Block.unloaded_cmd : (b.unloaded c g p).cmd g = { busy := false, result := 0, ctx := c } := by
  rw [Block.unloaded, Block.cmd_raise, Block.cmd_setCmd]

theorem Block.unloaded_writer : (b.unloaded c g p).writer (c.toNat % 4) = { (b.writer (c.toNat % 4)).spend p.m.bytes.length with
    ready := [], out := (b.writer (c.toNat % 4)).out ++ [p.m] } := by
  rw [Block.unloaded, Block.writer_raise]
  refine (Block.wroteOut_writer _ _ _).trans ?_
  rw [Block.present, Block.writer_setWriter]
  rfl

theorem Block.unloaded_done : bit ((b.unloaded c g p).hdr (pgCSG g)).flags 0 = true := by
  rw [Block.unloaded, Block.raise_hdr _ _ (by decide)]
  simp [bit]

theorem Block.unloaded_notes : Block.Notes [pgPMU, pgRM, pgCSG g]
    { b with wr := (b.unloaded c g p).wr, csg := (b.unloaded c g p).csg, ages := (b.unloaded c g p).ages } (b.unloaded c g p) := by
  generalize hout : (b.present (c.toNat % 4) p).wroteOut (c.toNat % 4) p.m = out
  have hcsg : out.csg = b.csg := by
    rw [← hout, Block.wroteOut, Block.pmuEv_csg]
    rfl
  have hwrote := Block.wroteOut_notes (b.present (c.toNat % 4) p) (c.toNat % 4) p.m
  rw [hout, show ({ b.present (c.toNat % 4) p with wr := out.wr, ages := out.ages } : Block) =
    { b with wr := out.wr, ages := out.ages } from rfl] at hwrote
  have hcmd := hwrote.map (·.setCmd g { busy := false, result := 0, ctx := c }) (fun _ _ _ _ _ => rfl) fun _ => ⟨rfl, rfl⟩
  rw [Block.unloaded, hout, Block.raise_wr, Block.raise_csg, Block.raise_ages]
  have hfrom : { b with wr := out.wr, csg := (out.setCmd g { busy := false, result := 0, ctx := c }).csg, ages := out.ages } =
      Block.setCmd { b with wr := out.wr, ages := out.ages } g { busy := false, result := 0, ctx := c } := by
    simp only [Block.setCmd, hcsg]
  rw [Block.setCmd_wr, Block.setCmd_ages, hfrom]
  exact (hcmd.of (by simp)).trans ((Block.raise_notes _ _ _).of (by simp))

end Unloaded

/-- A record that leaves with nothing to push is written back, and its command ends. -/
theorem Block.startReloads_kickCtx_unload {b b' : Block} {c : CtxNo} {y : Ctx} {g : Nat} {pa : BitVec 64} {dev : Bool}
    (hrec : b.rec? c = none) (hsp : (b.bank (ctxBank c)).spills = []) (hload : b.loads.find? c.toNat = none) (hsaved : b.pwr.saved = [])
    (hleave : b.leave.find? c.toNat = some { x := y, why := .unload g }) (hown : y.owner = 0) (hbasic : y.basic = false)
    (hxl : xlate { b with leave := b.leave.erase c.toNat }
      { seg := (b.tableAddr c).1, off := (b.tableAddr c).2, op := opCtxW, obj := c, cont := .wb (c.toNat % 4) } = (b', .ok pa dev))
    (hready : (b.writer (c.toNat % 4)).ready = [])
    (hpick : (b'.present (c.toNat % 4) { req := 1, m := wbWrite c y (b.tableAddr c).2 pa dev, seg := (b.tableAddr c).1 }).wmemPick
      (c.toNat % 4) = some 1) :
    (b.kickCtx c).startReloads =
      b'.unloaded c g { req := 1, m := wbWrite c y (b.tableAddr c).2 pa dev, seg := (b.tableAddr c).1 } := by
  obtain ⟨t, hb'⟩ := xlate_ok hxl
  have hready' : (b'.writer (c.toNat % 4)).ready = [] := by
    rw [hb']
    exact hready
  have hkick : b.kickLeave c =
      b'.unloaded c g { req := 1, m := wbWrite c y (b.tableAddr c).2 pa dev, seg := (b.tableAddr c).1 } := by
    rw [Block.kickLeave_unload hleave hsp, Block.writeBack_ok hown hbasic hxl hready' hpick, Block.csgEnd_of_ne _ _ _ (by decide)]
    rfl
  have hrest := (Block.unloaded_notes b' c g { req := 1, m := wbWrite c y (b.tableAddr c).2 pa dev, seg := (b.tableAddr c).1 }).rest
  have hkept : b.kickCtx c = b.kickLeave c := by
    refine Block.kickCtx_of_leaving hrec hsp ?_ ?_
    · rw [hkick, hrest, hb']
      exact hsp
    · rw [hkick, hrest, hb']
      exact hload
  rw [hkept, hkick]
  refine Block.startReloads_of_none_saved ?_
  rw [hrest, hb']
  exact hsaved

/-- Settles O28: the record leaves whole where its shortlist is empty; at the acceptance of its last push the write-back passes the
port in the same cycle, and the command ends. -/
theorem unloadsWriteTheContextBack : Obligations.UnloadsWriteTheContextBack := by
  unfold Obligations.UnloadsWriteTheContextBack
  refine ⟨fun s g w x ha hidle h hx hmove hrefill hon hload hleave hlist hseat => ?_,
    fun s c m x hout hkind hsp hxc hph hrec hload hsaved => ?_⟩
  · simp only [Block.wrote_csg]
    have hfree : (s.blk.relock (pgCSG g)).Free ((s.blk.relock (pgCSG g)).csgCtx g) x := ⟨hx, hmove, hrefill, hon, hload, hleave⟩
    have hidle : ((s.blk.relock (pgCSG g)).cmd g).busy = false := hidle
    exact .of_csgCmd ha rfl h ((Block.csgCmd_unload hidle (fld_csgCmd_op w.data 2)).trans (Block.csgUnload_ok hfree hlist hseat)) rfl rfl
  · have hacc := effSpillWriteAccept_only hout hkind hsp hxc hph
    have hnone : ((s.blk.pushAccepted c).bank (ctxBank c)).spills = [] := by simp [Block.pushAccepted]
    refine ⟨fun hleave => .of_effect rfl (hacc.trans ?_), fun y g hleave hown hbasic hready b' pa dev hxl hpick => ?_⟩
    · rw [Block.Away.kickCtx (b := s.blk.pushAccepted c) ⟨hrec, hleave, hload⟩ hnone]
      exact Block.startReloads_of_none_saved hsaved
    · have hwr : ((s.blk.pushAccepted c).writer (c.toNat % 4)) = { s.blk.writer (c.toNat % 4) with out := [] } :=
        Block.writer_setWriter _ _ _
      have hback := Block.startReloads_kickCtx_unload (b := s.blk.pushAccepted c) hrec hnone hload hsaved hleave hown hbasic hxl
        (by rw [hwr]; exact hready) hpick
      have hport : b'.writer (c.toNat % 4) = { s.blk.writer (c.toNat % 4) with out := [] } := by
        obtain ⟨t, hb'⟩ := xlate_ok hxl
        rw [hb']
        exact hwr
      have hwriter := Block.unloaded_writer b' c g
      refine .of_effect rfl (hacc.trans hback) ⟨Block.unloaded_cmd _ _ _ _, ?_, ?_, Block.unloaded_done _ _ _ _, Block.unloaded_notes _ _ _ _⟩
      · rw [hwriter, hport]
        rfl
      · rw [hwriter]

end Sys2Proof.Machine

namespace Sys2Proof.Machine

/-! ### A record joins its writer's staging (R239, R240) -/

/-- The record that a request stages: its ring's owner, and the mark of a drain of that owner. -/
def Block.stagedFrom (b : Block) (q : RecReq) : Staged :=
  let o := (b.ringCfg q.ring).owner
  { ring := q.ring, owner := o, rcd := q.rcd, tok := q.tok, tag := { b.tagOf o with drain := q.tag.drain && q.tag.owner == o } }

/-- A record that does not take the last tracker joins the end of staging, and nothing is flagged. -/
theorem Block.stage_of_room {b : Block} {w : Nat} {x : Staged} (htrk : x.trk = true) (h : (b.writer w).used + 1 < 1024) :
    b.stage w x = b.setWriter w { b.writer w with recs := (b.writer w).recs ++ [x] } := by
  have hused : ({ b.writer w with recs := (b.writer w).recs ++ [x] } : Writer).used = (b.writer w).used + 1 := by
    simp [Writer.used, htrk]
  simp only [Block.stage, Block.writer_setWriter, hused]
  rw [if_neg (by omega)]

theorem Block.intakeOne_of_empty {b : Block} {w n : Nat} (h : (b.engine n).recq.get [] w = []) : b.intakeOne w n = b := by
  rw [Block.intakeOne, h]

/-- A record for a ring of an ACTIVE owner, with two trackers free, is taken from its engine's queue into staging. -/
theorem Block.intakeOne_of_active {b : Block} {w n : Nat} {q : RecReq} {rest : List RecReq} (hq : (b.engine n).recq.get [] w = q :: rest)
    (hplaces : q.places = none) (hroom : (b.writer w).used + 1 < 1024) (hown : q.rcd.type.toNat < 8)
    (hactive : b.ownerActive (b.ringCfg q.ring).owner = true) :
    b.intakeOne w n = (b.setEngine n { b.engine n with recq := (b.engine n).recq.set [] w rest }).setWriter w
      { b.writer w with recs := (b.writer w).recs ++ [b.stagedFrom q] } := by
  have hfull : ¬ 1024 ≤ (b.writer w).used := by omega
  have htype : q.rcd.isOwn = false := by simpa [Rec.isOwn] using hown
  have hstay : (q.rcd.isOwn && (b.ringCfg q.ring).order == 0 ||
      !(b.setEngine n { b.engine n with recq := (b.engine n).recq.set [] w rest }).ownerActive (b.ringCfg q.ring).owner) = false := by
    rw [htype, Bool.false_and, Bool.false_or, Bool.not_eq_false']
    exact hactive
  simp only [Block.intakeOne, hq, if_neg hfull, hplaces]
  exact (if_neg ((Bool.not_eq_true _).mpr hstay)).trans (Block.stage_of_room (x := b.stagedFrom q) rfl hroom)

/-- RECORD_INTAKE of the only descriptor of an engine for a writer. -/
theorem effRecordIntake_of_only {b : Block} {w n : Nat} {q : RecReq} (hpick : b.pick (.intake w) (b.intakeElig w) = some n)
    (hq : (b.engine n).recq.get [] w = [q]) (hplaces : q.places = none) (hroom : (b.writer w).used + 1 < 1024)
    (hown : q.rcd.type.toNat < 8) (hactive : b.ownerActive (b.ringCfg q.ring).owner = true) :
    effRecordIntake b w n = ((b.setEngine n { b.engine n with recq := (b.engine n).recq.set [] w [] }).setWriter w
      { b.writer w with recs := (b.writer w).recs ++ [b.stagedFrom q] }).granted (.intake w) n := by
  rw [effRecordIntake, if_pos hpick, Block.intakeOne_of_active hq hplaces hroom hown hactive, Block.intakeOne_of_empty]
  have heng : ((b.setEngine n { b.engine n with recq := (b.engine n).recq.set [] w [] }).setWriter w
      { b.writer w with recs := (b.writer w).recs ++ [b.stagedFrom q] }).engine n =
      { b.engine n with recq := (b.engine n).recq.set [] w [] } := Block.engine_setEngine b n _
  rw [heng]
  exact Map.get_set_self _ _ _ _

/-! ### The record that a writer presents (R131, R239, R362) -/

/-- A writer presents a queued record that waits for no insert and for no settling of its ring. -/
theorem Block.admitHead_eq_some {b : Block} {w : Nat} {x : Staged} (h : b.admitHead w = some x) :
    x.ph = .queued ∧ x.tok = none ∧ b.last.changed.find? x.ring.toNat = none := by
  have hmem : x ∈ (b.writer w).recs.filter (·.ph == .queued) := List.mem_of_find?_eq_some h
  have hcond := List.find?_some h
  simp only [Bool.and_eq_true, Option.isNone_iff_eq_none] at hcond
  obtain ⟨⟨⟨-, htok⟩, hch⟩, -⟩ := hcond
  exact ⟨by simpa using (List.mem_filter.mp hmem).2, htok, hch⟩

theorem effRecordAdmit_of_pick {b : Block} {w : Nat} {x : Staged} (hpick : b.ringPick w = some 0) (hhead : b.admitHead w = some x) :
    effRecordAdmit b w x.ring = (b.admitRec x.ring).granted (.ringTable w) 0 := by
  simp [effRecordAdmit, hpick, hhead]

theorem spliceFirst_append_cons {α : Type} {p : α → Bool} {f : α → List α} {pre post : List α} {a : α} (hpre : ∀ x ∈ pre, p x = false)
    (ha : p a = true) : spliceFirst p f (pre ++ a :: post) = pre ++ (f a ++ post) := by
  induction pre with
  | nil => simp [spliceFirst, ha]
  | cons x l ih => simp [spliceFirst, hpre x (by simp), ih fun y hy => hpre y (by simp [hy])]

/-! ### What admission does with a record of one entry (R240, R244) -/

/-- The block without the record that has left staging. -/
def Block.unstaged (b : Block) (w : Nat) (recs : List Staged) : Block := b.setWriter w { b.writer w with recs }

/-- The block in which a record has taken index PI. -/
def Block.indexed (b : Block) (r : RingNo) (pre : List Staged) (x : Staged) (post : List Staged) : Block :=
  ((b.newTok.1).unstaged (ringWriter r) (pre ++ { x with idx := (b.ringOf r).pi, ph := .staged, seq := b.newTok.2 } :: post)).setRing r
    { b.ringOf r with pi := (b.ringOf r).pi + 1 }

/-- The writer presents a record, the first queued one of its sound ring, of one entry without payload, within its owner's share. -/
structure Block.Presents (b : Block) (x : Staged) (pre post : List Staged) : Prop where
  recs : (b.writer (ringWriter x.ring)).recs = pre ++ x :: post
  first : ∀ y ∈ pre, y.ring ≠ x.ring ∨ y.ph ≠ .queued
  queued : x.ph = .queued
  tok : x.tok = none
  settled : b.last.changed.find? x.ring.toNat = none
  small : x.rcd.pf = false
  bare : x.rcd.pay = none
  sound : (b.ringOf x.ring).faulted = false
  share : (b.writer (ringWriter x.ring)).occ x.owner ≤ (fld (b.shareOf x.owner.toNat) 26 16).toNat

section Presents

variable {b : Block} {x : Staged} {pre post : List Staged} (h : b.Presents x pre post)
include h

theorem Block.Presents.not_queued : ∀ y ∈ pre, Staged.isQueued x.ring y = false := fun y hy => by
  rcases h.first y hy with hr | hph
  · simp [Staged.isQueued, hr]
  · simp [Staged.isQueued, hph]

theorem Block.Presents.isQueued : Staged.isQueued x.ring x = true := by simp [Staged.isQueued, h.queued]

/-- The record takes its place in the ring, with a RESUME during an episode, unless the ring is full. -/
theorem Block.Presents.admitRec : b.admitRec x.ring =
    if (b.ringCfg x.ring).entries < (if (b.ringOf x.ring).ovfEp then 2 else 1) +
        ((b.ringOf x.ring).pi - (b.ringOf x.ring).ci).toNat
    then (b.unstaged (ringWriter x.ring) (pre ++ post)).dropRec x
    else (b.allocate x (b.ringOf x.ring).ovfEp 0).recordAdmitted x.ring x.rcd.prio := by
  have hsize : x.rcd.size = 1 := by simp [Rec.size, h.small]
  have hbad : b.payBad x.rcd.pay = false := by rw [h.bare]; rfl
  have hfind : (b.writer (ringWriter x.ring)).recs.find? (Staged.isQueued x.ring) = some x := by
    rw [h.recs]
    exact find?_append_cons h.not_queued h.isQueued
  have herase : eraseFirst (Staged.isQueued x.ring) (b.writer (ringWriter x.ring)).recs = pre ++ post := by
    rw [h.recs]
    exact eraseFirst_append_cons h.not_queued h.isQueued
  have hneed : (if (b.ringOf x.ring).ovfEp = true then 1 else 0) + 0 + 1 = if (b.ringOf x.ring).ovfEp = true then 2 else 1 := by
    split <;> rfl
  simp only [Block.admitRec, hfind, h.tok, h.settled, h.sound, hbad, hsize, herase, Nat.not_lt.mpr h.share, hneed, Option.isSome_none,
    Bool.or_self, Bool.false_eq_true, if_false, OfNat.one_ne_ofNat]
  rfl

/-- Outside an episode a record of one entry takes index PI, and PI rises by one. -/
theorem Block.Presents.allocate : b.allocate x false 0 = (b.indexed x.ring pre x post).pmuEv 0x11 (ringWriter x.ring) := by
  have hsize : x.rcd.size = 1 := by simp [Rec.size, h.small]
  have hrecs : ((b.newTok.1).writer (ringWriter x.ring)).recs = pre ++ x :: post := h.recs
  simp only [Block.allocate, hsize, hrecs, spliceFirst_append_cons h.not_queued h.isQueued, List.range_zero, List.map_nil, List.append_nil,
    List.nil_append, Bool.false_eq_true, if_false, BitVec.ofNat_eq_ofNat, BitVec.add_zero, List.cons_append]
  rfl

end Presents

/-! ### Coalescing (R192, R193) -/

/-- The class of the link of a settled ring is that of the active bank. -/
theorem Block.linkOf_of_settled {b : Block} {r : RingNo} (h : b.last.changed.find? r.toNat = none) : b.linkOf r = b.link r := by
  rw [Block.linkOf, h]

/-- The block with PI as the publication target of a ring, in place of an index write not granted. -/
def Block.targeted (b : Block) (r : RingNo) : Block :=
  (b.setWriter (ringWriter r) { b.writer (ringWriter r) with
    idxWait := (b.writer (ringWriter r)).idxWait.filter (·.ring != r) }).setRing r
    { b.ringOf r with tgtPend := true, tgtDelta := ((b.ringOf r).pi - (b.ringOf r).pub).setWidth 21, tgtGt := b.gt }

theorem Block.flush_of_settled {b : Block} {r : RingNo} (h : b.last.changed.find? r.toNat = none) (prio : Prio) : b.flush r prio =
    if (b.link r).kind = 0 then (b.targeted r).ask17
      { ctx := (b.link r).target, userTag := (b.link r).userTag, urgent := (b.link r).urgent,
        entry := bankedEntry 0x00907 prio (b.link r).dclass }
    else b.targeted r := by
  have hlink : (b.targeted r).linkOf r = b.link r := Block.linkOf_of_settled h
  rw [← hlink]
  rfl

/-- A record that takes PI, and the new PI as the target. -/
theorem Block.indexed_targeted (b : Block) (r : RingNo) (pre : List Staged) (x : Staged) (post : List Staged) :
    (b.indexed r pre x post).targeted r = ((b.newTok.1).setWriter (ringWriter r) { b.writer (ringWriter r) with
        recs := pre ++ { x with idx := (b.ringOf r).pi, ph := .staged, seq := b.newTok.2 } :: post
        idxWait := (b.writer (ringWriter r)).idxWait.filter (·.ring != r) }).setRing r
      { b.ringOf r with
        pi := (b.ringOf r).pi + 1, tgtPend := true, tgtDelta := ((b.ringOf r).pi + 1 - (b.ringOf r).pub).setWidth 21, tgtGt := b.gt } := by
  have hring : (b.indexed r pre x post).ringOf r = { b.ringOf r with pi := (b.ringOf r).pi + 1 } := Block.ringOf_setRing ..
  have hwriter : (b.indexed r pre x post).writer (ringWriter r) = { b.writer (ringWriter r) with
      recs := pre ++ { x with idx := (b.ringOf r).pi, ph := .staged, seq := b.newTok.2 } :: post } := Block.writer_setWriter ..
  rw [Block.targeted, hring, hwriter]
  refine (Block.setRing_setRing (Block.setWriter _ _ _) r _ _).trans (congrArg (Block.setRing · r _) ?_)
  exact Block.setWriter_setWriter _ _ _ _

theorem Block.Notes.targeted {pgs : List Nat} {b b' : Block} (h : Block.Notes pgs b b') (r : RingNo) :
    Block.Notes pgs (b.targeted r) (b'.targeted r) :=
  h.map (·.targeted r) (fun _ _ _ _ _ => rfl) fun _ => ⟨rfl, rfl⟩

theorem Block.Notes.setRing {pgs : List Nat} {b b' : Block} (h : Block.Notes pgs b b') (r : RingNo) (x : Ring) :
    Block.Notes pgs (b.setRing r x) (b'.setRing r x) :=
  h.map (·.setRing r x) (fun _ _ _ _ _ => rfl) fun _ => ⟨rfl, rfl⟩

/-- The window that a first record of a priority opens for a ring (R192). -/
def Block.freshWindow (b : Block) (r : RingNo) (prio : Prio) : Window :=
  let lk := b.link r
  let d := b.gt + 64 * lk.coalWindow.setWidth 64
  { window := lk.coalWindow, count := lk.coalCount, bypPrio := lk.bypPrio, bypEn := lk.bypEn, deadline := d
    key := keyOf b.car.cur d.toNat, far := decide (slotOf b.car.cur b.gt.toNat + 4096 ≤ keyOf b.car.cur d.toNat), n := 1
    best := bvMin 63 prio }

/-- The block with that window open. -/
def Block.opensWindow (b : Block) (r : RingNo) (prio : Prio) : Block :=
  { b with car := { b.car with windows := b.car.windows.insert r.toNat (b.freshWindow r prio) } }

theorem Block.Notes.opensWindow {pgs : List Nat} {b b' : Block} (h : Block.Notes pgs b b') (r : RingNo) (prio : Prio) :
    Block.Notes pgs (b.opensWindow r prio) (b'.opensWindow r prio) :=
  h.map (·.opensWindow r prio) (fun _ _ _ _ _ => rfl) fun _ => ⟨rfl, rfl⟩

/-- With coalescing off an admitted record is flushed. -/
theorem Block.recordAdmitted_of_off {b : Block} (h : b.regBit pgCAR 0x050 2 = false) (r : RingNo) (prio : Prio) :
    b.recordAdmitted r prio = b.flush r prio := by
  simp [Block.recordAdmitted, h]

/-- With coalescing on a record of a link that needs neither bypass nor count opens the ring's window. -/
theorem Block.recordAdmitted_of_first {b : Block} {r : RingNo} (hen : b.regBit pgCAR 0x050 2 = true) (hstage : b.pwr.stage ≠ .entry)
    (hnone : b.car.windows.find? r.toNat = none) (hwin : (b.link r).coalWindow ≠ 0) (hcount : (b.link r).coalCount = 0)
    (hbyp : (b.link r).bypEn = false) (prio : Prio) : b.recordAdmitted r prio = b.opensWindow r prio := by
  have hon : (!b.regBit pgCAR 0x050 2 || (b.link r).coalWindow == 0 || b.pwr.stage == .entry) = false := by
    rw [hen, beq_eq_false_iff_ne.mpr hwin, beq_eq_false_iff_ne.mpr hstage]
    rfl
  simp only [Block.recordAdmitted, hon, hnone, hcount, hbyp, Bool.false_and, Bool.false_eq_true, if_false, bne_self_eq_false]
  simp only [Block.opensWindow, Block.freshWindow, hcount, hbyp]

/-- During an episode a lost record that no other rule counts is counted in the ring (R244). -/
theorem Block.dropRec_of_episode {b : Block} {x : Staged} (hep : (b.ringOf x.ring).ovfEp = true) (hpay : x.rcd.pay = none)
    (hflt : x.flt = false) (hras : x.ras = false) :
    b.dropRec x = ((b.cnt pgERW 0x088).pmuEv 0x12 (ringWriter x.ring)).setRing x.ring { b.ringOf x.ring with
      ovf := satAdd (b.ringOf x.ring).ovf 1, epDrops := satAdd (b.ringOf x.ring).epDrops 1 } := by
  simp only [Block.dropRec, hpay, hflt, hras, hep, Block.readPay, Bool.false_eq_true, if_false, if_true]

/-! ### RECORD_ADMIT (R240) -/

theorem ofNat_ringWriter (r : RingNo) : ((Fin.ofNat 4 (ringWriter r) : Fin 4) : Nat) = ringWriter r :=
  Nat.mod_eq_of_lt (Nat.mod_lt _ (by decide))

section Admitted

variable {b : Block} {x : Staged} {pre post : List Staged} (h : b.Presents x pre post)
include h

/-- A record with room outside an episode joins the ring as the state of coalescing says. -/
theorem Block.Presents.admitRec_of_room (hep : (b.ringOf x.ring).ovfEp = false)
    (hroom : ((b.ringOf x.ring).pi - (b.ringOf x.ring).ci).toNat + 1 ≤ (b.ringCfg x.ring).entries) :
    b.admitRec x.ring = ((b.indexed x.ring pre x post).pmuEv 0x11 (ringWriter x.ring)).recordAdmitted x.ring x.rcd.prio := by
  rw [h.admitRec, hep, if_neg (by simp only [Bool.false_eq_true, if_false]; omega), h.allocate]

/-- With coalescing off the new PI becomes the publication target. -/
theorem Block.Presents.admitRec_of_off (hep : (b.ringOf x.ring).ovfEp = false)
    (hroom : ((b.ringOf x.ring).pi - (b.ringOf x.ring).ci).toNat + 1 ≤ (b.ringCfg x.ring).entries)
    (hkind : (b.link x.ring).kind ≠ 0) (hoff : b.regBit pgCAR 0x050 2 = false) :
    Block.Notes [pgPMU, pgRM] ((b.indexed x.ring pre x post).targeted x.ring) (b.admitRec x.ring) := by
  have hn := Block.pmuEv_notes (b.indexed x.ring pre x post) 0x11 (ringWriter x.ring) 1
  have hreg : ((b.indexed x.ring pre x post).pmuEv 0x11 (ringWriter x.ring)).regBit pgCAR 0x050 2 = false := by
    rw [Block.regBit, hn.reg pgCAR 0x050 (by decide) (by decide)]
    exact hoff
  have hlink : ((b.indexed x.ring pre x post).pmuEv 0x11 (ringWriter x.ring)).link x.ring = b.link x.ring :=
    hn.eq_field (·.link x.ring) fun _ _ _ _ _ => rfl
  rw [h.admitRec_of_room hep hroom, Block.recordAdmitted_of_off hreg, Block.flush_of_settled, hlink, if_neg hkind]
  · exact hn.targeted x.ring
  · rw [Block.pmuEv_last]
    exact h.settled

/-- With coalescing on the record opens a window. -/
theorem Block.Presents.admitRec_of_on (hep : (b.ringOf x.ring).ovfEp = false)
    (hroom : ((b.ringOf x.ring).pi - (b.ringOf x.ring).ci).toNat + 1 ≤ (b.ringCfg x.ring).entries)
    (hon : b.regBit pgCAR 0x050 2 = true) (hstage : b.pwr.stage ≠ .entry) (hnone : b.car.windows.find? x.ring.toNat = none)
    (hwin : (b.link x.ring).coalWindow ≠ 0) (hcount : (b.link x.ring).coalCount = 0) (hbyp : (b.link x.ring).bypEn = false) :
    Block.Notes [pgPMU, pgRM] ((b.indexed x.ring pre x post).opensWindow x.ring x.rcd.prio) (b.admitRec x.ring) := by
  have hn := Block.pmuEv_notes (b.indexed x.ring pre x post) 0x11 (ringWriter x.ring) 1
  have hreg : ((b.indexed x.ring pre x post).pmuEv 0x11 (ringWriter x.ring)).regBit pgCAR 0x050 2 = true := by
    rw [Block.regBit, hn.reg pgCAR 0x050 (by decide) (by decide)]
    exact hon
  have hlink : ((b.indexed x.ring pre x post).pmuEv 0x11 (ringWriter x.ring)).link x.ring = b.link x.ring :=
    hn.eq_field (·.link x.ring) fun _ _ _ _ _ => rfl
  rw [h.admitRec_of_room hep hroom, Block.recordAdmitted_of_first hreg]
  · exact hn.opensWindow x.ring x.rcd.prio
  · rw [Block.pmuEv_pwr]
    exact hstage
  · rw [Block.pmuEv_car]
    exact hnone
  · rwa [hlink]
  · rwa [hlink]
  · rwa [hlink]

/-- A full ring drops the record during an episode. -/
theorem Block.Presents.admitRec_of_full (hep : (b.ringOf x.ring).ovfEp = true)
    (hfull : (b.ringCfg x.ring).entries < ((b.ringOf x.ring).pi - (b.ringOf x.ring).ci).toNat + 2) (hflt : x.flt = false)
    (hras : x.ras = false) :
    Block.Notes [pgPMU, pgRM, pgERW] ((b.unstaged (ringWriter x.ring) (pre ++ post)).setRing x.ring { b.ringOf x.ring with
      ovf := satAdd (b.ringOf x.ring).ovf 1, epDrops := satAdd (b.ringOf x.ring).epDrops 1 }) (b.admitRec x.ring) := by
  rw [h.admitRec, hep, if_pos (by simp only [if_true]; omega),
    Block.dropRec_of_episode (b := b.unstaged (ringWriter x.ring) (pre ++ post)) hep h.bare hflt hras]
  exact (((Block.cnt_notes _ pgERW 0x088 1 (by decide)).of (by simp)).trans ((Block.pmuEv_notes _ _ _ _).of (by simp))).setRing _ _

end Admitted

/-- Settles O33: the engine's only descriptor is staged; the presented record takes PI and is flushed or opens a window, or is
dropped by a full ring. -/
theorem recordsAreStagedAndAdmitted : Obligations.RecordsAreStagedAndAdmitted := by
  unfold Obligations.RecordsAreStagedAndAdmitted
  refine ⟨fun s w n q hpick hq hplaces hroom hown hactive =>
    .of_effect rfl (effRecordIntake_of_only hpick hq hplaces hroom hown hactive), ?_⟩
  intro s r pre x post hstage
  simp only [ofNat_ringWriter]
  rintro hpick hhead rfl hrecs hfirst hpf hpay hsound hshare
  obtain ⟨hqueued, htok, hsettled⟩ := Block.admitHead_eq_some hhead
  have h : s.blk.Presents x pre post := ⟨hrecs, hfirst, hqueued, htok, hsettled, hpf, hpay, hsound, hshare⟩
  have heff : effRecordAdmit s.blk (Fin.ofNat 4 (ringWriter x.ring) : Fin 4) x.ring =
      (s.blk.admitRec x.ring).granted (.ringTable (ringWriter x.ring)) 0 := by
    rw [ofNat_ringWriter]
    exact effRecordAdmit_of_pick hpick hhead
  refine ⟨fun hep hroom hkind hoff => .of_effect rfl heff ?_, fun hep hroom hon hnone hwin hcount hbyp => .of_effect rfl heff ?_,
    fun hep hfull hflt hras => .of_effect rfl heff ((h.admitRec_of_full hep hfull hflt hras).granted _ 0)⟩
  · have hnotes := (h.admitRec_of_off hep hroom hkind hoff).granted (.ringTable (ringWriter x.ring)) 0
    rw [Block.indexed_targeted] at hnotes
    exact hnotes
  · have hnotes := (h.admitRec_of_on hep hroom hon hstage hnone hwin hcount hbyp).granted (.ringTable (ringWriter x.ring)) 0
    rw [Block.opensWindow, Block.freshWindow, show (s.blk.indexed x.ring pre x post).link x.ring = s.blk.link x.ring from rfl, hcount,
      hbyp] at hnotes
    exact hnotes

end Sys2Proof.Machine

namespace Sys2Proof.Machine

/-! ### A ring's write leaves its writer's port (R242, R249, R250) -/

/-- The records of a writer with one of them issued. -/
def Writer.issues (k : Writer) (x : Staged) : List Staged := k.recs.map fun y => if y = x then { x with ph := .issued } else y

/-- A writer at which an owner has paid for a write (R250). -/
def Writer.paid (k : Writer) (o : OwnerNo) (n : Nat) : Writer :=
  { k with ownTok := k.ownTok.set 1024 o.toNat (k.ownTok.get 1024 o.toNat - 8 * n) }

/-- A writer that has sent a write: it has taken its bandwidth of the port (R249). -/
def Writer.sends (k : Writer) (m : MemWrite) : Writer := { k.spend m.bytes.length with out := k.out ++ [m] }

theorem Block.spendOwn_setWriter (b : Block) (w : Nat) (k : Writer) (o : OwnerNo) (n : Nat) :
    (b.setWriter w k).spendOwn w o n = b.setWriter w (k.paid o n) := by
  rw [Block.spendOwn, Block.writer_setWriter, Block.setWriter_setWriter]
  rfl

theorem Block.spendOwn_granted (b : Block) (q : Res) (i w : Nat) (o : OwnerNo) (n : Nat) :
    (b.granted q i).spendOwn w o n = (b.spendOwn w o n).granted q i := rfl

/-- A granted write of the PMF leaves its port. -/
theorem Block.issueWrite_of_granted (b : Block) (w : Nat) (k : Writer) (q : Res) (i : Nat) {m : MemWrite} (seg : BitVec 6)
    (hown : m.tag.owner = 0) : ((b.setWriter w k).granted q i).issueWrite w m seg =
      ((b.setWriter w (k.sends m)).granted q i).pmuEv 0x13 w (beats32 m.bytes.length) := by
  have hw : ((b.setWriter w k).granted q i).writer w = k := Block.writer_setWriter b w k
  rw [Block.issueWrite_of_pmf _ _ _ _ hown, hw, ← Writer.sends]
  exact congrArg (fun c : Block => (c.granted q i).pmuEv 0x13 w (beats32 m.bytes.length)) (Block.setWriter_setWriter b w k _)

/-- The write of one record of a ring. -/
def Block.recordLine (b : Block) (r : RingNo) (x : Staged) (pa : BitVec 64) (dev : Bool) : MemWrite :=
  { kind := .records r 1, pa, bytes := b.recBytes x.rcd, dev, tag := x.tag }

/-- A writer that has sent the write of one record. -/
def Writer.sendsRecord (k : Writer) (x : Staged) (m : MemWrite) : Writer :=
  (({ k with recs := k.issues x } : Writer).paid x.owner m.bytes.length).sends m

theorem Writer.filter_unissued (k : Writer) (r : RingNo) :
    (k.recs.filter (·.ring == r)).filter (Staged.unissued r) = k.recs.filter (Staged.unissued r) := by
  rw [List.filter_filter]
  refine List.filter_congr fun y _ => ?_
  cases hy : y.ring == r <;> simp [Staged.unissued, hy]

theorem Block.writer_setWriter_ne (b : Block) {v w : Nat} (k : Writer) (h : v ≠ w) : (b.setWriter w k).writer v = b.writer v :=
  Map.get_set_ne _ _ _ _ h

/-- What a grant of a writer's port changes besides writers, ages and the performance monitor's count: nothing. -/
theorem Block.granted_pmuEv_notes (b : Block) (w : Nat) (k : Writer) (q : Res) (i : Nat) (ev : BitVec 8) (unit n : Nat) :
    let c := ((b.setWriter w k).granted q i).pmuEv ev unit n
    Block.Notes [pgPMU, pgRM] { b with wr := c.wr, ages := c.ages } c := by
  dsimp only
  rw [Block.pmuEv_wr, Block.pmuEv_ages]
  exact Block.pmuEv_notes ((b.setWriter w k).granted q i) ev unit n

/-- A page of the PMF is in no dirty log. -/
theorem Block.logPage_of_pmf (b : Block) (w : Nat) (seg : BitVec 6) (pa : BitVec 64) : b.logPage w 0 seg pa = b := by
  simp [Block.logPage]

section Issue

variable {b : Block} {r : RingNo} {x : Staged} (hone : b.unissued r = [x])
include hone

/-- The unissued records of the ring are the one. -/
theorem Block.unissued_iff {y : Staged} (hy : y ∈ (b.writer (ringWriter r)).recs) : Staged.unissued r y = true ↔ y = x := by
  have hfilter : (b.writer (ringWriter r)).recs.filter (Staged.unissued r) = [x] := by
    rw [← Writer.filter_unissued]
    exact hone
  have hmem : y ∈ (b.writer (ringWriter r)).recs.filter (Staged.unissued r) ↔ y = x := by rw [hfilter, List.mem_singleton]
  rwa [List.mem_filter, and_iff_right hy] at hmem

/-- The one unissued record is issued. -/
theorem Block.setPhases_issued : b.setPhases r [x] (fun _ => .issued) =
    b.setWriter (ringWriter r) { b.writer (ringWriter r) with recs := (b.writer (ringWriter r)).issues x } := by
  refine congrArg (fun l => b.setWriter (ringWriter r) { b.writer (ringWriter r) with recs := l }) (List.map_congr_left fun y hy => ?_)
  have hiff := Block.unissued_iff hone hy
  by_cases hyx : y = x
  · subst hyx
    have hun : (y.ring == r && y.ph != .queued && y.ph != .issued) = true := hiff.mpr rfl
    simp [hun]
  · have hun : (y.ring == r && y.ph != .queued && y.ph != .issued) = false := Bool.eq_false_iff.mpr fun h => hyx (hiff.mp h)
    simp [hun, hyx]

/-- A ring whose next write has its address translates nothing. -/
theorem Block.translateNext_of_ready {pa : BitVec 64} {dev : Bool} (hph : x.ph = .ready pa dev) : b.translateNext r = b := by
  simp [Block.translateNext, hone, hph]

/-- RING_WRITE_ISSUE of the one unissued record, where the port picks it. -/
theorem effRingWriteIssue_of_one {pa : BitVec 64} {dev : Bool} (hon : b.dpOn = true) (hph : x.ph = .ready pa dev)
    (hhead : b.headIs r false = true) : effRingWriteIssue b r = b.issueGroup r [x] pa dev := by
  have hgroup : lineGroup dev [x] = [x] := by cases dev <;> rfl
  simp only [effRingWriteIssue, hon, Block.translateNext_of_ready hone hph, hhead, hone, hph, hgroup, Bool.not_true, Bool.false_eq_true,
    if_false, if_true]

/-- The write of one record of the PMF without payload leaves the port, and nothing else does. -/
theorem Block.issueGroup_of_one {pa : BitVec 64} {dev : Bool} {m : MemWrite} (hm : b.recordLine r x pa dev = m) (hown : x.tag.owner = 0)
    (hpay : x.rcd.pay = none) (hready : (b.writer (ringWriter r)).ready = []) : b.issueGroup r [x] pa dev =
      ((b.setWriter (ringWriter r) ((b.writer (ringWriter r)).sendsRecord x m)).granted (.wmem (ringWriter r)) 0).pmuEv
        0x13 (ringWriter r) (beats32 m.bytes.length) := by
  have hbytes : ([x].flatMap fun y => b.recBytes y.rcd) = m.bytes := by simp [← hm, Block.recordLine]
  have hline : ({ kind := .records r 1, pa, bytes := m.bytes, dev, tag := x.tag } : MemWrite) = m := by rw [← hm]; rfl
  have hown' : m.tag.owner = 0 := by rw [← hm]; exact hown
  simp only [Block.issueGroup, hbytes, List.foldl_cons, List.foldl_nil, hpay, Block.readPay, List.length_singleton, hline,
    Block.setPhases_issued hone, Block.spendOwn_setWriter, Block.issueWrite_of_granted _ _ _ _ _ _ hown']
  refine Block.grantPort_of_none_ready ?_ 64
  rw [Block.writer_pmuEv]
  exact (congrArg Writer.ready (Block.writer_setWriter b _ _)).trans hready

end Issue

/-! ### The acceptance of a record's write (R242) -/

theorem dropIssued_one {r : RingNo} {pre post : List Staged} {x : Staged} (hpre : ∀ y ∈ pre, y.ring ≠ r ∨ y.ph ≠ .issued)
    (hring : x.ring = r) (hph : x.ph = .issued) : dropIssued r 1 (pre ++ x :: post) = pre ++ post := by
  induction pre with
  | nil => cases post <;> simp [dropIssued, hring, hph]
  | cons y l ih =>
    have hy : (y.ring == r && y.ph == .issued) = false := by
      rcases hpre y (by simp) with h | h <;> simp [h]
    simp [dropIssued, hy, ih fun z hz => hpre z (by simp [hz])]

/-- Acceptance of the port's only write, of one record. -/
theorem effRingWriteAccept_of_one {b : Block} {r : RingNo} {m : MemWrite} {pre post : List Staged} {x : Staged}
    (hout : (b.writer (ringWriter r)).out = [m]) (hkind : m.kind = .records r 1) (hrecs : (b.writer (ringWriter r)).recs = pre ++ x :: post)
    (hpre : ∀ y ∈ pre, y.ring ≠ r ∨ y.ph ≠ .issued) (hring : x.ring = r) (hph : x.ph = .issued) :
    effRingWriteAccept b r = (b.setWriter (ringWriter r) { b.writer (ringWriter r) with out := [], recs := pre ++ post }).cnt48 pgERW
      0x080 0x084 := by
  simp [effRingWriteAccept, hout, hkind, hrecs, acceptFirst, dropIssued_one hpre hring hph]

/-! ### The index line (R234, R243) -/

/-- A writer that has sent the index write of a ring of the PMF. -/
def Writer.sendsIndex (k : Writer) (r : RingNo) : Writer :=
  Writer.paid { k.spend 16 with idxWait := k.idxWait.filter (·.ring != r) } 0 16

/-- The index line of a ring of the PMF: PUB as it will be, OVF, the GT of the flush. -/
def Block.indexLine (b : Block) (r : RingNo) (pa : BitVec 64) (dev : Bool) : MemWrite :=
  let g := b.ringOf r
  let pub := g.pub + g.tgtDelta.setWidth 32
  { kind := .index r pub, pa, dev, tag := {}, bytes := leBytes 4 pub.toNat ++ leBytes 4 g.ovf.toNat ++ leBytes 8 g.tgtGt.toNat }

/-- The block once that line has left the port, but for what is counted. -/
def Block.indexSent (b : Block) (r : RingNo) (pa : BitVec 64) (dev : Bool) : Block :=
  { (b.setWriter (ringWriter r) ((b.writer (ringWriter r)).sendsIndex r)).granted (.wmem (ringWriter r)) 0 with
    idxFly := b.idxFly.insert r.toNat (b.indexLine r pa dev) }.setRing r { b.ringOf r with tgtPend := false, tgtDelta := 0 }

theorem Block.indexSent_writer (b : Block) (r : RingNo) (pa : BitVec 64) (dev : Bool) :
    (b.indexSent r pa dev).writer (ringWriter r) = (b.writer (ringWriter r)).sendsIndex r := Block.writer_setWriter b _ _

theorem Writer.sendsIndex_ready (k : Writer) (r : RingNo) : (k.sendsIndex r).ready = k.ready := by
  simp only [Writer.sendsIndex, Writer.paid, Writer.spend]

/-- The index write of a ring of the PMF leaves the port, and nothing else does. -/
theorem Block.issueIndex_of_pmf {b : Block} {r : RingNo} (hown : (b.cfgOf r).owner = 0) (hready : (b.writer (ringWriter r)).ready = [])
    (pa : BitVec 64) (dev : Bool) : b.issueIndex r pa dev = (b.indexSent r pa dev).pmuEv 0x13 (ringWriter r) := by
  simp only [Block.issueIndex, hown, Block.spendOwn_granted, Block.spendOwn_setWriter, Block.logPage_of_pmf]
  refine Block.grantPort_of_none_ready (b := (b.indexSent r pa dev).pmuEv 0x13 (ringWriter r)) ?_ 64
  rw [Block.writer_pmuEv, Block.indexSent_writer, Writer.sendsIndex_ready, hready]

theorem Block.indexSent_notes (b : Block) (r : RingNo) (pa : BitVec 64) (dev : Bool) :
    let c := (b.indexSent r pa dev).pmuEv 0x13 (ringWriter r)
    Block.Notes [pgPMU, pgRM] { b with idxFly := c.idxFly, ring := c.ring, wr := c.wr, ages := c.ages } c := by
  dsimp only
  rw [Block.pmuEv_wr, Block.pmuEv_ages, Block.pmuEv_idxFly, Block.pmuEv_ring]
  exact Block.pmuEv_notes (b.indexSent r pa dev) 0x13 (ringWriter r) 1

/-- The block with an index write of a ring of the PMF, its address known, behind those that wait. -/
def Block.indexReady (b : Block) (r : RingNo) (seq : Nat) (pa : BitVec 64) (dev : Bool) : Block :=
  b.setWriter (ringWriter r) { b.writer (ringWriter r) with
    idxWait := (b.writer (ringWriter r)).idxWait ++ [{ ring := r, owner := 0, seq, pa := some (pa, dev) }] }

theorem Block.ready_indexReady (b : Block) (r : RingNo) (seq : Nat) (pa : BitVec 64) (dev : Bool) :
    ((b.indexReady r seq pa dev).writer (ringWriter r)).ready = (b.writer (ringWriter r)).ready :=
  (congrArg Writer.ready (Block.writer_setWriter b _ _)).trans rfl

section Index

variable {b b' : Block} {r : RingNo} {pa : BitVec 64} {dev : Bool} (hown : (b.cfgOf r).owner = 0)
  (hwait : ∀ q ∈ (b.writer (ringWriter r)).idxWait, q.ring ≠ r)
  (hxl : xlate b.newTok.1 { seg := (b.cfgOf r).seg, off := (b.cfgOf r).lineOff, op := opIndex, user := (b.cfgOf r).user,
                            obj := r.setWidth 16, cont := .index (ringWriter r) r } = (b', .ok pa dev))
include hown hwait hxl

/-- The index write of a ring that has none asks for its address and has it at once. -/
theorem Block.askIndex_of_ok : b.askIndex r = b'.indexReady r b.newTok.2 pa dev := by
  have hnone : (b.writer (ringWriter r)).idxWait.any (·.ring == r) = false :=
    List.any_eq_false.mpr fun q hq => by simpa using hwait q hq
  simp only [Block.askIndex, hnone, Bool.false_eq_true, if_false, hown]
  rw [hxl]
  rfl

/-- INDEX_WRITE of a ring that is not marked, whose target is reached, where the port picks the write. -/
theorem effIndexWrite_of_ok (hon : b.dpOn = true) (hreached : b.targetReached r = true) (hfly : b.idxFly.find? r.toNat = none)
    (hmark : ∀ p ∈ b.vif.cells, r ∉ p.2.marked) (hhead : (b'.indexReady r b.newTok.2 pa dev).headIs r true = true) :
    effIndexWrite b r = (b'.indexReady r b.newTok.2 pa dev).issueIndex r pa dev := by
  have hnot : (!b.dpOn || !b.targetReached r || (b.idxFly.find? r.toNat).isSome ||
      b.vif.cells.any fun p => p.2.marked.contains r) = false := by
    simpa [hon, hreached, hfly] using hmark
  have hfind : ((b'.indexReady r b.newTok.2 pa dev).writer (ringWriter r)).idxWait.find? (·.ring == r) =
      some { ring := r, owner := 0, seq := b.newTok.2, pa := some (pa, dev) } := by
    obtain ⟨t, rfl⟩ := xlate_ok hxl
    rw [Block.indexReady, Block.writer_setWriter]
    exact find?_append_cons (post := []) (fun q hq => by simpa using hwait q hq) (by simp)
  simp only [effIndexWrite, hnot, Bool.false_eq_true, if_false, Block.askIndex_of_ok hown hwait hxl, hhead, if_true, hfind]

end Index

/-- INDEX_WRITE_ACCEPT of a line of the owner's generation. -/
theorem effIndexWriteAccept_of_gen {b : Block} {r : RingNo} {m : MemWrite} {pub : Word} (hfly : b.idxFly.find? r.toNat = some m)
    (hkind : m.kind = .index r pub) (hgen : m.tag.gen = (b.tagOf m.tag.owner).gen) :
    effIndexWriteAccept b r = ({ b with idxFly := b.idxFly.erase r.toNat } : Block).setRing r { b.ringOf r with
      pub, tgtDelta := if (b.ringOf r).tgtPend then ((b.ringOf r).pub + (b.ringOf r).tgtDelta.setWidth 32 - pub).setWidth 21 else 0 } := by
  simp only [effIndexWriteAccept, hfly, hkind]
  exact if_neg (by rw [bne_iff_ne, ne_eq, not_not]; exact hgen)

/-- Settles O34: the port sends the one write that it picks and nothing after it, and an accepted write leaves what it counts. -/
theorem ringWritesAreIssuedAndPublished : Obligations.RingWritesAreIssuedAndPublished := by
  unfold Obligations.RingWritesAreIssuedAndPublished
  refine ⟨?_, ?_, ?_, ?_⟩
  · intro s r x pa dev hon hone hph _ hown hpay w bytes hready hhead
    refine .of_effect rfl ((effRingWriteIssue_of_one hone hon hph hhead).trans (Block.issueGroup_of_one hone rfl hown hpay hready))
      ⟨?_, ?_, fun v hv => ?_, Block.granted_pmuEv_notes _ _ _ _ _ _ _ _⟩
    · rw [Block.writer_pmuEv]
      exact congrArg Writer.out (Block.writer_setWriter s.blk _ _)
    · rw [Block.writer_pmuEv]
      exact congrArg Writer.recs (Block.writer_setWriter s.blk _ _)
    · rw [Block.writer_pmuEv]
      exact Block.writer_setWriter_ne s.blk _ hv
  · intro s r m pre x post k hout hkind hrecs hpre hring hph
    exact .of_effect rfl (effRingWriteAccept_of_one hout hkind hrecs hpre hring hph)
  · intro s r b' pa dev hon hreached hfly hmark w c g hown hwait hready hxl hhead pub
    have heff := effIndexWrite_of_ok hown hwait hxl hon hreached hfly hmark hhead
    obtain ⟨t, rfl⟩ := xlate_ok hxl
    generalize hb₁ : Block.indexReady _ r s.blk.newTok.2 pa dev = b₁ at heff
    have hready₁ : (b₁.writer (ringWriter r)).ready = [] := by
      rw [← hb₁, Block.ready_indexReady]
      exact hready
    have hown₁ : (b₁.cfgOf r).owner = 0 := by
      rw [← hb₁]
      exact hown
    have hring₁ : b₁.ringOf r = s.blk.ringOf r := by
      rw [← hb₁]
      rfl
    have hissue := Block.issueIndex_of_pmf hown₁ hready₁ pa dev
    have hnotes := Block.indexSent_notes b₁ r pa dev
    refine .of_effect rfl (heff.trans hissue) ⟨?_, ?_, ?_⟩
    · rw [Block.pmuEv_idxFly]
      refine (Map.find?_insert_self _ _ _).trans ?_
      rw [Block.indexLine, hring₁]
    · rw [Block.ringOf_pmuEv]
      refine (Block.ringOf_setRing _ _ _).trans ?_
      rw [hring₁]
    · rw [← hb₁] at hnotes ⊢
      exact hnotes
  · intro s r m pub hfly hkind hgen
    exact .of_effect rfl (effIndexWriteAccept_of_gen hfly hkind hgen)

end Sys2Proof.Machine

namespace Sys2Proof.Machine

/-! ### A consumer index write asks for the descriptor port of its ring (R40, R362) -/

/-- A ring that is here has no line to move to the front. -/
theorem Block.frontLine_of_here {b : Block} {r : RingNo} (h : b.ringHere r = true) : b.frontLine r = b := by
  simp only [Block.ringHere, Bool.or_eq_true, Bool.and_eq_true, decide_eq_true_eq] at h
  have hskip : (!b.pwr.ringsLeft || decide (r.toNat / 2 < b.pwr.ringNext) || b.pwr.ringEarly.contains (r.toNat / 2) ||
      b.pwr.ringFront.contains (r.toNat / 2)) = true := by
    rcases h with h | ⟨h | h, -⟩ <;> simp only [h, decide_true, Bool.true_or, Bool.or_true]
  exact if_pos hskip

/-- The front of the lines to be read back does not say which rings are here. -/
theorem Block.ringHere_frontLine (b : Block) (r r' : RingNo) : (b.frontLine r).ringHere r' = b.ringHere r' := by
  unfold Block.frontLine
  dsimp only
  split <;> rfl

theorem Block.fab_frontLine (b : Block) (r : RingNo) : (b.frontLine r).fab = b.fab := by
  unfold Block.frontLine
  dsimp only
  split <;> rfl

/-- The block at whose port a part waits for a grant. -/
def Block.asks (b : Block) (q : PortAsk) : Block := { b with fab := { b.fab with ask := q } }

/-- A consumer index write of a ring that is here asks and moves nothing else. -/
theorem Block.putAsk_ring_of_here {b : Block} {r : RingNo} (h : b.ringHere r = true) : b.putAsk (.ring r) = b.asks (.ring r) :=
  Block.frontLine_of_here (b := b.asks (.ring r)) h

/-- The descriptor port picks a consumer index write only of a ring that is here. -/
theorem Block.ringHere_of_picked {b : Block} {r : RingNo} (h : (b.putAsk (.ring r)).askPicked = true) : b.ringHere r = true := by
  have hask : (b.putAsk (.ring r)).fab.ask = .ring r := congrArg Fabric.ask (Block.fab_frontLine (b.asks (.ring r)) r)
  have hpick : (b.putAsk (.ring r)).ringPick (ringWriter r) = some 1 := by simpa [Block.askPicked, hask] using h
  have helig : (b.putAsk (.ring r)).ringElig (ringWriter r) 1 = true := pickOldest_eligible hpick
  have hhere : (b.putAsk (.ring r)).ringHere r = true := by
    simp only [Block.ringElig, Block.ciAsk, hask, Bool.and_eq_true] at helig
    exact helig.2.2
  exact (Block.ringHere_frontLine (b.asks (.ring r)) r r).symm.trans hhere

/-- The grant of a consumer index write touches the port's request and ages only. -/
theorem Block.turn_ring_of_picked {b : Block} {r : RingNo} (h : (b.putAsk (.ring r)).askPicked = true) :
    b.turn (.ring r) = ({ b with fab := { b.fab with ask := .none, askOld := false } } : Block).granted (.ringTable (ringWriter r)) 1 := by
  rw [Block.turn, if_neg (by simp), Block.putAsk_ring_of_here (Block.ringHere_of_picked h)]
  rfl

/-! ### Writes to the page of the ring writers (R254) -/

section Turn

variable {b : Block} {off : Nat} {w : RegAcc}

/-- A write of the page waits for nothing or for the descriptor of the selected ring. -/
theorem Block.regAsk_erw (b : Block) (off : Nat) :
    b.regAsk pgERW off = .none ∨ b.regAsk pgERW off = .ring (b.regFld pgERW 0x048 13 0) := by
  have hre : pgClass pgERW ≠ some .re := by decide
  simp only [Block.regAsk, hre, false_and, true_and, if_false]
  split
  · exact .inl rfl
  · split
    · exact .inr rfl
    · exact .inl rfl

section Ring

variable {pg : Nat} {r : RingNo} (hpg : pg < 128) (hoff : off < 0x1000) (h4 : off % 4 = 0) (hwant : b.regAsk pg off = .ring r)
include hpg hoff h4 hwant

/-- A register write that needs the descriptor port of a ring that is here asks for it. -/
theorem Block.tryPart_asks_ring (hhere : b.ringHere r = true) :
    (b.arrived (regAccess pg off w.als w.rid w.data)).tryPart (regAccess pg off w.als w.rid w.data) true (regAddr pg off w.als) .none =
      (b.asks (.ring r)).arrived (regAccess pg off w.als w.rid w.data) := by
  have hpart : (b.arrived (regAccess pg off w.als w.rid w.data)).partAsk (regAccess pg off w.als w.rid w.data) true
      (regAddr pg off w.als) = .ring r := by
    rw [Block.partAsk_regAccess hpg hoff h4, ← hwant]
    rfl
  simp only [Block.tryPart, hpart, reduceCtorEq, decide_false, Bool.or_self, Bool.false_eq_true, if_false]
  exact Block.putAsk_ring_of_here (b := b.arrived _) hhere

/-- A register write at a free port, which serves it, is performed with the grant of the descriptor port, where it has it at once. -/
theorem Block.regCmd_of_ring (hfree : b.portFree = true) (hmode : b.portMode = .serve)
    (hadm : b.admits true w.rid pg (off / 4) true = true) (hpick : (b.putAsk (.ring r)).askPicked = true)
    (hempty : ((b.turn (.ring r)).writeOpen w.rid pg w.als off w.data).1.fab.q = []) :
    b.regCmd pg off w = (b.oneSeq ((b.turn (.ring r)).writeOpen w.rid pg w.als off w.data).1).answer
      ((b.turn (.ring r)).writeOpen w.rid pg w.als off w.data).2 0 := by
  have hhere := Block.ringHere_of_picked hpick
  have hturn := Block.turn_ring_of_picked hpick
  obtain ⟨hq, -, hdone⟩ := Block.portFree_iff.mp hfree
  have htry := Block.tryPart_regAccess (b := b.turn (.ring r)) (q := .ring r) (al := w.als) (id := w.rid) (d := w.data) hpg hoff h4
    (by rw [hturn]; exact Block.portFree_iff.mpr ⟨hq, rfl, hdone⟩) (.inr (by rw [hturn]; exact hwant))
  have hone (c : Block) : (b.turn (.ring r)).oneSeq c = b.oneSeq c := by
    rw [hturn]
    rfl
  have hpicked : ((b.asks (.ring r)).arrived (regAccess pg off w.als w.rid w.data)).askPicked = true := by
    rw [← hpick, Block.putAsk_ring_of_here hhere]
    rfl
  have hgrant : ((b.asks (.ring r)).arrived (regAccess pg off w.als w.rid w.data)).takeGrant =
      (b.turn (.ring r)).arrived (regAccess pg off w.als w.rid w.data) := by
    rw [hturn]
    rfl
  have hstep := Block.portStep_regAccess (b := (b.asks (.ring r)).arrived (regAccess pg off w.als w.rid w.data)) hpg hoff h4 rfl hmode hadm
  rw [if_neg (by simp [Block.arrived, Block.asks]), if_pos hpicked, hgrant] at hstep
  rw [hone] at htry
  rw [Block.regCmd_eq_servePort hpg hoff h4 hfree hmode hadm, Block.tryPart_asks_ring hpg hoff h4 hwant hhere, Block.servePort, hstep,
    ← htry]
  exact Block.servePort_of_empty ((congrArg (·.fab.q) htry).trans hempty) 2

end Ring

end Turn

/-! ### What such a write leaves (R326, R333) -/

theorem pgClass_erw : pgClass pgERW = some .erw := by decide

theorem Block.selBad_erw (b : Block) (off : Nat) :
    (b.selBad pgERW off).2 = decide (off = 0x06C ∧ 4096 < (b.regFld pgERW 0x068 12 0).toNat) := by
  simp only [Block.selBad, pgClass_erw]
  split <;> simp_all

theorem Block.wrote_erw (b : Block) (off : Nat) (w : RegAcc) : b.wrote pgERW off w = (b.opened pgERW off).answer false 0 := by
  have hne : pgERW ≠ pgRM := by decide
  simp only [Block.wrote, Block.mbxTouch, hne, false_and, if_false]
  rfl

section Writes

variable {b : Block} {off : Nat} {w : RegAcc} (h : b.writes pgERW off w = true)
include h

/-- The port takes the write, with the grant that it needs. -/
theorem Block.served_of_writes_erw : b.portFree = true ∧ b.portMode = .serve ∧ b.admits true w.rid pgERW (off / 4) true = true ∧
    0x40 ≤ off ∧ b.fab.posted.find? pgERW = none ∧ b.turnFree (b.regAsk pgERW off) = true := by
  have hearly : earlyPage pgERW = false := by decide
  simp only [Block.writes, Block.takes, pgClass_erw, hearly, Bool.and_eq_true, Bool.and_false, Bool.or_false, beq_iff_eq,
    decide_eq_true_eq, Option.isNone_iff_eq_none, and_assoc] at h
  obtain ⟨hfree, h40, hmode, hadm, -, hpost, -, -, -, -, -, -, hturn, -⟩ := h
  exact ⟨hfree, hmode, hadm, h40, hpost, hturn⟩

/-- A write of the page that has its grant finds the block as it was, but for the port's request and ages. -/
theorem Block.turn_erw : ∃ o g, b.turn (b.regAsk pgERW off) = { b with fab := { b.fab with askOld := o }, ages := g } := by
  obtain ⟨hfree, -, -, -, -, hturn⟩ := Block.served_of_writes_erw h
  obtain ⟨-, hask, -⟩ := Block.portFree_iff.mp hfree
  rcases Block.regAsk_erw b off with hnone | hring
  · rw [hnone, Block.turn_none]
    exact ⟨b.fab.askOld, b.ages, rfl⟩
  · rw [hring] at hturn ⊢
    rw [Block.turn_ring_of_picked (by simpa [Block.turnFree] using hturn)]
    exact ⟨false, _, by rw [← hask]; rfl⟩

/-- Opening the page changes the port's request, ages, the page's key and clock gates. -/
theorem Block.opened_erw : ∃ o g k, b.opened pgERW off =
    { b with fab := { b.fab with askOld := o, hdr := (b.relock pgERW).fab.hdr }, ages := g, clk := k } := by
  obtain ⟨o, g, hturn⟩ := Block.turn_erw h
  obtain ⟨gs, m, hwake⟩ := Block.wakeUnits_clk ((b.turn (b.regAsk pgERW off)).relock pgERW) pgERW off
  rw [Block.opened, hwake, hturn]
  exact ⟨_, _, _, rfl⟩

theorem Block.hdr_opened_erw : (b.opened pgERW off).hdr pgERW = { b.hdr pgERW with unlocked := false } := by
  obtain ⟨o, g, k, ho⟩ := Block.opened_erw h
  rw [ho]
  exact Block.hdr_setHdr b pgERW _

/-- What a write makes of a register of the page does not depend on the opening. -/
theorem Block.stval_opened_erw : storedVal .erw off ((b.opened pgERW off).wval pgERW off w) = b.stval pgERW off w := by
  obtain ⟨-, -, -, h40, -, -⟩ := Block.served_of_writes_erw h
  obtain ⟨o, g, k, ho⟩ := Block.opened_erw h
  have hlow : ¬ off < 0x40 := Nat.not_lt.mpr h40
  rw [ho]
  simp only [Block.stval, Block.wval, pgClass_erw, Block.readReg, if_neg hlow]
  rfl

/-- Rows 6 to 8 of Table 12-3 let the write of the opened page take effect at once. -/
theorem Block.writeFields_erw :
    (b.opened pgERW off).writeFields w.rid pgERW .erw w.als off w.data (!(b.hdr pgERW).unlocked) =
      (b.opened pgERW off).applyErw off (b.subOf pgERW off) (b.stval pgERW off w) := by
  have hhdr := Block.hdr_opened_erw h
  have hval := Block.stval_opened_erw h
  obtain ⟨o, g, k, ho⟩ := Block.opened_erw h
  simp only [Block.writes, Block.takes, Block.immediate, pgClass_erw, Bool.and_eq_true, decide_eq_true_eq, beq_iff_eq, Bool.not_eq_true',
    and_assoc] at h
  obtain ⟨-, h40, -, -, -, hpost, hen, hkey, hheld, hex, honce, hals, -, hsel, -, -, hpst, happ⟩ := h
  have hheld' : (b.opened pgERW off).isHeld pgERW = false := by
    rw [ho]
    exact hheld
  have hsub : (b.opened pgERW off).subOf pgERW off = b.subOf pgERW off := by
    rw [ho]
    rfl
  have hcommit := Block.commitWrite_now (b.opened pgERW off) w.rid pgERW .erw w.als off ((b.opened pgERW off).wval pgERW off w) hpst
    (by rw [hhdr, happ]) hheld'
  rw [hval, hsub] at hcommit
  rw [Block.writeFields_ok _ _ _ _ _ _ pgClass_erw h40 (by rw [hhdr, hen]) (fun hk => by simpa [hk] using hkey)
    (fun hw => by rw [ho]; exact (by simpa [hw] using honce : b.fab.instSet = false)) hheld' (by rw [ho]; exact hpost) ?_ ?_ ?_
    (by simp) (by simp), hcommit, Block.applyReg]
  · unfold Block.expertOf at hex ⊢
    rw [hhdr]
    exact hex
  · by_cases hb : w.als = .base <;> simpa [hb] using hals
  · rw [Block.selBad_erw] at hsel ⊢
    rw [ho]
    exact hsel

theorem Block.writeOpen_erw : (b.turn (b.regAsk pgERW off)).writeOpen w.rid pgERW w.als off w.data =
    ((b.opened pgERW off).applyErw off (b.subOf pgERW off) (b.stval pgERW off w), false) := by
  obtain ⟨-, -, -, h40, hpost, -⟩ := Block.served_of_writes_erw h
  obtain ⟨o, g, hturned⟩ := Block.turn_erw h
  have hfields := Block.writeFields_erw h
  have hne : pgERW ≠ pgRM := by decide
  have hkey : ¬ (off = 0x014 ∧ w.als = .base) := by omega
  have hhdr : (b.turn (b.regAsk pgERW off)).hdr pgERW = b.hdr pgERW := by
    rw [hturned]
    rfl
  have hpost' : (((b.turn (b.regAsk pgERW off)).relock pgERW).fab.posted.find? pgERW).isSome = false := by
    rw [hturned, Option.isSome_eq_false_iff, Option.isNone_iff_eq_none]
    exact hpost
  rw [← hhdr] at hfields
  generalize hturn : b.turn (b.regAsk pgERW off) = c at hfields hpost' ⊢
  have hopen : b.opened pgERW off = (c.relock pgERW).wakeUnits pgERW off := by rw [Block.opened, hturn]
  have hlock : c.setHdr pgERW { c.hdr pgERW with unlocked := false } = c.relock pgERW := rfl
  unfold Block.writeOpen
  simp only [pgClass_erw, hkey, if_false, hlock, hpost', ← hopen, hfields, Block.mbxTouch, hne, false_and, reduceCtorEq,
    Bool.false_eq_true]

/-- A write that leaves the queue of the port alone takes effect at once. -/
theorem Block.regCmd_erw (hoff : off < 0x1000) (h4 : off % 4 = 0)
    (hq : ∀ c : Block, (c.applyErw off (b.subOf pgERW off) (b.stval pgERW off w)).fab.q = c.fab.q) : b.regCmd pgERW off w =
      b.oneSeq (((b.opened pgERW off).applyErw off (b.subOf pgERW off) (b.stval pgERW off w)).answer false 0) := by
  obtain ⟨hfree, hmode, hadm, -, -, hturn⟩ := Block.served_of_writes_erw h
  have hopen := Block.writeOpen_erw h
  obtain ⟨o, g, k, ho⟩ := Block.opened_erw h
  have hempty : ((b.turn (b.regAsk pgERW off)).writeOpen w.rid pgERW w.als off w.data).1.fab.q = [] := by
    rw [hopen, hq, ho]
    exact (Block.portFree_iff.mp hfree).1
  rcases Block.regAsk_erw b off with hnone | hring
  · rw [Block.regCmd_of_turn (page_lt_of_class pgClass_erw) hoff h4 hfree hmode hadm (by rw [hnone]; trivial) hturn hempty, hopen]
    rfl
  · rw [hring] at hturn hopen hempty
    rw [Block.regCmd_of_ring (page_lt_of_class pgClass_erw) hoff h4 hring hfree hmode hadm (by simpa [Block.turnFree] using hturn) hempty,
      hopen]
    rfl

end Writes

/-- A register write of the page that meets no obstacle puts its effect. -/
theorem Puts.of_writes_erw {s : State} {c : Instr} {off : Nat} {w : RegAcc} {r : Block}
    (e : exec c s = .next { s with blk := s.blk.regCmd pgERW off w }) (hoff : off < 0x1000) (h4 : off % 4 = 0)
    (h : s.blk.writes pgERW off w = true)
    (hq : ∀ b : Block, (b.applyErw off (s.blk.subOf pgERW off) (s.blk.stval pgERW off w)).fab.q = b.fab.q)
    (hr : ((s.blk.opened pgERW off).applyErw off (s.blk.subOf pgERW off) (s.blk.stval pgERW off w)).answer false 0 = r) : Puts s c r :=
  .of_effect e (hr ▸ Block.regCmd_erw h hoff h4 hq)

/-! ### Consumer indexes (R245) -/

/-- A consumer index from CI to PUB is taken. -/
theorem Block.writeCi_of_le {b : Block} {r : RingNo} {v : Word}
    (h : (v - (b.ringOf r).ci).toNat ≤ ((b.ringOf r).pub - (b.ringOf r).ci).toNat) :
    (b.writeCi r v).1 = b.setRing r { b.ringOf r with ci := v } := by
  simp only [Block.writeCi, if_neg (Nat.not_lt.mpr h)]

/-- Any other is counted and flagged. -/
theorem Block.writeCi_of_lt {b : Block} {r : RingNo} {v : Word}
    (h : ((b.ringOf r).pub - (b.ringOf r).ci).toNat < (v - (b.ringOf r).ci).toNat) :
    (b.writeCi r v).1 = (b.cnt pgERW 0x08C).flag pgERW 3 := by
  simp only [Block.writeCi, if_pos h]

theorem Block.writeCi_queue (b : Block) (r : RingNo) (v : Word) : (b.writeCi r v).1.fab.q = b.fab.q := by
  rcases Nat.lt_or_ge ((b.ringOf r).pub - (b.ringOf r).ci).toNat (v - (b.ringOf r).ci).toNat with h | h
  · rw [Block.writeCi_of_lt h, Block.flag_queue]
    rfl
  · rw [Block.writeCi_of_le h]
    rfl

/-! ### Ring commands (R247) -/

/-- ERW_RING_RES takes a result and the ring. -/
def Block.ringRes (b : Block) (r : RingNo) (v : Word) : Block := b.setReg pgERW 0x064 (v ||| r.setWidth 32 <<< 16)

/-- CLEAR_FAULT of a ring whose compiled entry has met no error. -/
theorem Block.ringCmd_clear {b : Block} {r : RingNo} (hbad : b.badRing r = false) :
    b.ringCmd 1 r = (b.setRing r { b.ringOf r with faulted := false }).ringRes r 0 := by
  rw [Block.ringCmd, hbad]
  rfl

/-- RESET of a ring with nothing in staging or in flight. -/
theorem Block.ringCmd_reset {b : Block} {r : RingNo} (hbad : b.badRing r = false) (hbusy : b.ringBusy r = false) :
    b.ringCmd 2 r = (b.setRing r {}).ringRes r 0 := by
  simp only [Block.ringCmd, hbusy, Block.resetRing, hbad]
  rfl

/-- RESET of another ring. -/
theorem Block.ringCmd_busy {b : Block} {r : RingNo} (hbusy : b.ringBusy r = true) :
    b.ringCmd 2 r = (b.ringRes r 1).flag pgERW 4 := by
  simp only [Block.ringCmd, hbusy]
  rfl

theorem Block.ringCmd_queue (b : Block) (op : Nat) (r : RingNo) : (b.ringCmd op r).fab.q = b.fab.q := by
  unfold Block.ringCmd
  dsimp only
  split
  · rfl
  · split
    · split
      · rw [Block.flag_queue]
        rfl
      · rfl
    · rfl

theorem defOf_erw_cmd : (defOf .erw 0x060).rw ||| (defOf .erw 0x060).wo = 3 := by decide

/-- A write of ERW_RING_CMD with a command's code gives the command. -/
theorem Block.applyErw_cmd (b c : Block) {w : RegAcc} (ha : w.als = .base) (op : Word) (sub : Nat) :
    c.applyErw 0x060 sub (b.stval pgERW 0x060 (withOp w 3 op)) = c.ringCmd (fld op 1 0).toNat (c.regFld pgERW 0x048 13 0) := by
  have hval : b.stval pgERW 0x060 (withOp w 3 op) = blend 3 w.data op &&& 3 := by
    simp only [Block.stval, pgClass_erw, storedVal]
    rw [Block.wval_base b _ _ (withOp w 3 op) .erw pgClass_erw ha, defOf_erw_cmd]
    rfl
  have hop : fld (blend 3 w.data op &&& 3) 1 0 = fld op 1 0 := fld_blend_and_of_ones _ _ (by decide) (by decide)
  rw [hval, ← hop]
  rfl

/-- What ERW_VIF_SHARE stores of a write: SHARE and CREDIT within their ranges (R250, R251). -/
def Block.shareVal (b : Block) (w : RegAcc) : Word :=
  clampFld (clampFld (b.wval pgERW 0x06C w) 8 0 1 256) 26 16 0 1024 &&& 0x07FF01FF

/-- A write of ERW_VIF_SHARE gives the owner that value. -/
theorem Block.applyErw_share (b c : Block) (w : RegAcc) (o : Nat) : c.applyErw 0x06C o (b.stval pgERW 0x06C w) =
    { c with fab := { c.fab with share := c.fab.share.set 0x04000100 o (b.shareVal w) } } := by
  simp only [Block.stval, pgClass_erw, storedVal]
  rfl

section Opened

variable {b : Block} {off : Nat} {w : RegAcc} (h : b.writes pgERW off w = true)
include h

theorem Block.ringSel_opened : (b.opened pgERW off).regFld pgERW 0x048 13 0 = b.regFld pgERW 0x048 13 0 := by
  obtain ⟨o, g, k, ho⟩ := Block.opened_erw h
  rw [ho]
  rfl

theorem Block.ringOf_opened (r : RingNo) : (b.opened pgERW off).ringOf r = b.ringOf r := by
  obtain ⟨o, g, k, ho⟩ := Block.opened_erw h
  rw [ho]
  rfl

theorem Block.badRing_opened (r : RingNo) : (b.opened pgERW off).badRing r = b.badRing r := by
  obtain ⟨o, g, k, ho⟩ := Block.opened_erw h
  rw [ho]
  rfl

theorem Block.ringBusy_opened (r : RingNo) : (b.opened pgERW off).ringBusy r = b.ringBusy r := by
  obtain ⟨o, g, k, ho⟩ := Block.opened_erw h
  rw [ho]
  rfl

end Opened

/-- A write of ERW_RING_CI that meets no obstacle puts what becomes of the index. -/
theorem Puts.ringCi {s : State} {w : RegAcc} {r : Block} (h : s.blk.writes pgERW 0x058 w = true)
    (hr : (((s.blk.opened pgERW 0x058).writeCi (s.blk.regFld pgERW 0x048 13 0) (s.blk.stval pgERW 0x058 w)).1).answer false 0 = r) :
    Puts s (.erwRingCi w) r := by
  refine .of_writes_erw rfl (by decide) (by decide) h (fun b => b.writeCi_queue _ _) ?_
  rw [← hr, ← Block.ringSel_opened h]
  rfl

/-- A command of ERW_RING_CMD that meets no obstacle puts its effect. -/
theorem Puts.ringCmd {s : State} {c : Instr} {w : RegAcc} {op : Word} {r : Block} (ha : w.als = .base)
    (e : exec c s = .next { s with blk := s.blk.regCmd pgERW 0x060 (withOp w 3 op) })
    (h : s.blk.writes pgERW 0x060 (withOp w 3 op) = true)
    (hr : ((s.blk.opened pgERW 0x060).ringCmd (fld op 1 0).toNat (s.blk.regFld pgERW 0x048 13 0)).answer false 0 = r) : Puts s c r := by
  refine .of_writes_erw e (by decide) (by decide) h (fun b => ?_) ?_
  · rw [Block.applyErw_cmd _ _ ha, Block.ringCmd_queue]
  · rw [Block.applyErw_cmd _ _ ha, Block.ringSel_opened h, hr]

/-! ### The expiry of a window (R191, R192) -/

/-- The block whose window of a ring is closed and counted. -/
def Block.closesWindow (b : Block) (r : RingNo) : Block :=
  ({ b with car := { b.car with windows := b.car.windows.erase r.toNat } } : Block).cnt pgCAR flushExp

theorem Block.ask17_granted (b : Block) (i : Ins) (q : Res) (n : Nat) : (b.ask17 i).granted q n = (b.granted q n).ask17 i := rfl

/-- The flush of that window asks for the ring-ready insert of a RING_ONLY link. -/
theorem Block.flush_closesWindow {b : Block} {r : RingNo} (hset : b.last.changed.find? r.toNat = none) (prio : Prio) :
    (b.closesWindow r).flush r prio =
      if (b.link r).kind = 0 then ((b.closesWindow r).targeted r).ask17
        { ctx := (b.link r).target, userTag := (b.link r).userTag, urgent := (b.link r).urgent,
          entry := bankedEntry 0x00907 prio (b.link r).dclass }
      else (b.closesWindow r).targeted r :=
  Block.flush_of_settled (b := b.closesWindow r) hset prio

/-- A window of a settled ring whose expiry the port picks closes, counts, and PI becomes the publication target. -/
theorem effWindowExpiry_of_due {b : Block} {r : RingNo} {x : Window} (hpick : b.ringPick (ringWriter r) = some 2)
    (hdue : b.dueWindow (ringWriter r) = some r) (hwin : b.car.windows.find? r.toNat = some x)
    (hset : b.last.changed.find? r.toNat = none) (hlag : b.car.lagAt = none) :
    effWindowExpiry b r = (((b.closesWindow r).flush r x.best).pmuEv 0x19 0).granted (.ringTable (ringWriter r)) 2 := by
  have hclose : b.closeWindow r flushExp = (b.closesWindow r).flush r x.best := by
    rw [Block.closeWindow, hwin]
    rfl
  have hcond : (b.ringPick (ringWriter r) = some 2 && b.dueWindow (ringWriter r) == some r) = true := by simp [hpick, hdue]
  simp only [effWindowExpiry, hcond, if_true, hclose]
  refine Block.lagEnd_of_none ((congrArg Carousel.lagAt (Block.pmuEv_car _ _ _ _)).trans ?_)
  rw [Block.flush_closesWindow hset]
  split <;> exact hlag

/-- Settles O35: a write of the page that meets no obstacle acts on the opened block as its register says; the window that expires is
flushed. -/
theorem ringRegistersAndWindows : Obligations.RingRegistersAndWindows := by
  unfold Obligations.RingRegistersAndWindows
  refine ⟨?_, ?_, ?_, ?_⟩
  · intro s w h r
    have hring := Block.ringOf_opened h r
    refine ⟨fun hle => .ringCi h ?_, fun hlt => .ringCi h ?_⟩
    · rw [Block.writeCi_of_le (by rw [hring]; exact hle), hring, Block.wrote_erw]
      rfl
    · rw [Block.writeCi_of_lt (by rw [hring]; exact hlt), Block.wrote_erw, ← Block.flag_answer]
      rfl
  · intro s w ha r
    simp only [Block.wrote_erw]
    refine ⟨fun h hbad => .ringCmd ha rfl h ?_, fun h => ⟨fun hbad hbusy => .ringCmd ha rfl h ?_, fun hbusy => .ringCmd ha rfl h ?_⟩⟩
    · rw [← Block.badRing_opened h] at hbad
      refine (congrArg (·.answer false 0) (Block.ringCmd_clear hbad)).trans ?_
      rw [Block.ringOf_opened h]
      rfl
    · rw [← Block.badRing_opened h] at hbad
      rw [← Block.ringBusy_opened h] at hbusy
      exact congrArg (·.answer false 0) (Block.ringCmd_reset hbad hbusy)
    · rw [← Block.ringBusy_opened h] at hbusy
      exact (congrArg (·.answer false 0) (Block.ringCmd_busy hbusy)).trans (Block.flag_answer _ _ _ _ _).symm
  · intro s w h o
    rw [Block.wrote_erw]
    exact .of_writes_erw rfl (by decide) (by decide) h (fun _ => rfl)
      (congrArg (·.answer false 0) (Block.applyErw_share s.blk _ w o))
  · intro s r x w hpick hdue hwin hset hlag g lk k bw bc b
    have hclosed : ((s.blk.closesWindow r).targeted r).granted (.ringTable (ringWriter r)) 2 = b := rfl
    have hnotes := (Block.pmuEv_notes ((s.blk.closesWindow r).flush r x.best) 0x19 0 1).granted (.ringTable (ringWriter r)) 2
    have heff := effWindowExpiry_of_due hpick hdue hwin hset hlag
    rw [← heff, Block.flush_closesWindow hset] at hnotes
    refine .of_effect rfl rfl ?_
    clear_value b
    by_cases hkind : (s.blk.link r).kind = 0
    · simpa only [lk, if_pos hkind, Block.ask17_granted, hclosed] using hnotes
    · simpa only [lk, if_neg hkind, hclosed] using hnotes

end Sys2Proof.Machine

namespace Sys2Proof.Machine

/-! ### Numbered collections: all values changed, one unlisted -/

theorem Map.look_map {α β : Type} (f : Nat → α → β) (l : List (Nat × α)) (i : Nat) :
    Map.look (l.map fun p => (p.1, f p.1 p.2)) i = (Map.look l i).map (f i) := by
  induction l with
  | nil => rfl
  | cons p l ih =>
    obtain ⟨j, v⟩ := p
    by_cases h : j = i
    · subst h; simp [Map.look]
    · simp [Map.look, h, ih]

theorem Map.find?_mapVals {α β : Type} (m : Map α) (f : Nat → α → β) (i : Nat) :
    (m.mapVals f).find? i = (m.find? i).map (f i) := Map.look_map f m.cells i

/-- A number whose value is listed stands in a listed pair. -/
theorem Map.mem_of_look {α : Type} {l : List (Nat × α)} {i : Nat} {v : α} (h : Map.look l i = some v) : (i, v) ∈ l := by
  induction l with
  | nil => cases h
  | cons p l ih =>
    obtain ⟨j, w⟩ := p
    by_cases hj : j = i
    · subst hj
      simp only [Map.look, if_true, Option.some.injEq] at h
      simp [h]
    · simp only [Map.look, if_neg hj] at h
      exact List.mem_cons_of_mem _ (ih h)

theorem Map.mem_of_find? {α : Type} {m : Map α} {i : Nat} {v : α} (h : m.find? i = some v) : (i, v) ∈ m.cells :=
  Map.mem_of_look h

theorem Block.rec?_eraseRec (b : Block) (c : CtxNo) : (b.eraseRec c).rec? c = none := Map.find?_erase_self _ _

theorem Block.vifOf_setVif_eq (b : Block) (v u : Nat) (x : Vif) :
    (b.setVif v x).vifOf u = if u = v then x else b.vifOf u := Map.get_set _ _ _ _ _

/-! ### Nothing enters

What a purge does besides its own removals: operations go on that waited, so writes, reads and wakes leave the block, but no
context becomes resident, no load starts, no record joins staging, and VIFs change in their causes and in the contexts that a
purge waits for only. -/

/-- From one block to the other no context, load or record has entered and no VIF has changed but in causes and due contexts. -/
structure Block.AdmitsNone (b b' : Block) : Prop where
  queue : b'.fab.q = b.fab.q
  vif : ∀ v, b'.vifOf v = { b.vifOf v with cause := (b'.vifOf v).cause, due := (b'.vifOf v).due }
  loads : ∀ c : CtxNo, b.loads.find? c.toNat = none → b'.loads.find? c.toNat = none
  absent : ∀ c : CtxNo, b.rec? c = none → b.loads.find? c.toNat = none → b'.rec? c = none
  recs : ∀ k, ∀ y ∈ (b'.writer k).recs, ∃ x ∈ (b.writer k).recs, x.owner = y.owner ∧ x.ph = y.ph

namespace Block.AdmitsNone

theorem refl (b : Block) : AdmitsNone b b := ⟨rfl, fun _ => rfl, fun _ h => h, fun _ h _ => h, fun _ y h => ⟨y, h, rfl, rfl⟩⟩

variable {a b c : Block}

theorem trans (h : AdmitsNone a b) (k : AdmitsNone b c) : AdmitsNone a c where
  queue := k.queue.trans h.queue
  vif v := by rw [k.vif v, h.vif v]
  loads d hl := k.loads d (h.loads d hl)
  absent d hr hl := k.absent d (h.absent d hr hl) (h.loads d hl)
  recs w y hy := by
    obtain ⟨x, hx, hxo, hxp⟩ := k.recs w y hy
    obtain ⟨z, hz, hzo, hzp⟩ := h.recs w x hx
    exact ⟨z, hz, hzo.trans hxo, hzp.trans hxp⟩

/-- An update of other parts of the block. -/
theorem parts (h : AdmitsNone a b) (e : (c.fab.q, c.vif, c.ctx, c.loads, c.wr) = (b.fab.q, b.vif, b.ctx, b.loads, b.wr)) :
    AdmitsNone a c := by
  simp only [Prod.mk.injEq] at e
  obtain ⟨hq, hv, hc, hl, hw⟩ := e
  refine h.trans ⟨hq, fun v => ?_, fun d hd => ?_, fun d hr _ => ?_, fun w y hy => ⟨y, ?_, rfl, rfl⟩⟩
  · simp only [Block.vifOf, hv]
  · rwa [hl]
  · rwa [Block.rec?, hc]
  · rwa [Block.writer, hw] at hy

theorem ite {p : Prop} [Decidable p] (h : AdmitsNone a b) (k : AdmitsNone a c) : AdmitsNone a (if p then b else c) := by
  split
  · exact h
  · exact k

theorem foldl {α : Type} {f : Block → α → Block} (h : AdmitsNone a b) (l : List α)
    (hf : ∀ {b : Block} (x : α), AdmitsNone a b → AdmitsNone a (f b x)) : AdmitsNone a (l.foldl f b) := by
  induction l generalizing b with
  | nil => exact h
  | cons x l ih => exact ih (hf x h)

/-! #### Writers, VIFs, records and loads -/

theorem setWriter (h : AdmitsNone a b) (w : Nat) {k : Writer} (hk : k.recs = (b.writer w).recs) :
    AdmitsNone a (b.setWriter w k) := by
  refine h.trans ⟨rfl, fun _ => rfl, fun _ hl => hl, fun _ hr _ => hr, fun u y hy => ⟨y, ?_, rfl, rfl⟩⟩
  by_cases hu : u = w
  · subst hu
    rwa [Block.writer_setWriter, hk] at hy
  · rwa [Block.writer_setWriter_ne b k hu] at hy

/-- Every writer changes, and stages no record that it did not stage; other parts of the block may change with them. -/
theorem mapWriters {f : Nat → Writer → Writer} (h : AdmitsNone a b)
    (hf : ∀ i w, ∀ y ∈ (f i w).recs, ∃ x ∈ w.recs, x.owner = y.owner ∧ x.ph = y.ph) (hw : c.wr = b.wr.mapVals f)
    (e : (c.fab.q, c.vif, c.ctx, c.loads) = (b.fab.q, b.vif, b.ctx, b.loads)) : AdmitsNone a c := by
  have hwr : AdmitsNone a { b with wr := b.wr.mapVals f } := by
    refine h.trans ⟨rfl, fun _ => rfl, fun _ hl => hl, fun _ hr _ => hr, fun k y hy => ?_⟩
    simp only [Block.writer, Map.get, Map.find?_mapVals] at hy ⊢
    cases hk : b.wr.find? k with
    | none => simp [hk] at hy
    | some w =>
      rw [hk] at hy
      exact hf k w y hy
  simp only [Prod.mk.injEq] at e
  obtain ⟨hq, hv, hc, hl⟩ := e
  exact hwr.parts (by simp only [hq, hv, hc, hl, hw])

theorem setVif (h : AdmitsNone a b) (v : Nat) {x : Vif} (hx : x = { b.vifOf v with cause := x.cause, due := x.due }) :
    AdmitsNone a (b.setVif v x) := by
  refine h.trans ⟨rfl, fun u => ?_, fun _ hl => hl, fun _ hr _ => hr, fun _ y hy => ⟨y, hy, rfl, rfl⟩⟩
  rw [Block.vifOf_setVif_eq]
  split
  · next hu => rw [hu]; exact hx
  · rfl

/-- The record of a context that is resident or in a load changes. -/
theorem setRec (h : AdmitsNone a b) {d : CtxNo} (x : Ctx) (hd : ¬ (b.rec? d = none ∧ b.loads.find? d.toNat = none)) :
    AdmitsNone a (b.setRec d x) := by
  refine h.trans ⟨rfl, fun _ => rfl, fun _ hl => hl, fun e hr hl => ?_, fun _ y hy => ⟨y, hy, rfl, rfl⟩⟩
  have he : e ≠ d := by rintro rfl; exact hd ⟨hr, hl⟩
  rwa [Block.rec?_setRec_ne b x he]

theorem modRec (h : AdmitsNone a b) (d : CtxNo) (f : Ctx → Ctx) : AdmitsNone a (b.modRec d f) := by
  unfold Block.modRec
  split
  · next hx => exact h.setRec _ fun hd => by simp [hx] at hd
  · exact h

theorem eraseRec (h : AdmitsNone a b) (d : CtxNo) : AdmitsNone a (b.eraseRec d) := by
  refine h.trans ⟨rfl, fun _ => rfl, fun _ hl => hl, fun e hr hl => ?_, fun _ y hy => ⟨y, hy, rfl, rfl⟩⟩
  by_cases he : e.toNat = d.toNat
  · simp [Block.rec?, Block.eraseRec, he]
  · simpa [Block.rec?, Block.eraseRec, Map.find?_erase_ne _ he] using hr

/-- The load of a context that is in one goes on. -/
theorem insertLoad (h : AdmitsNone a b) {d : CtxNo} (l : LoadOp) (hd : b.loads.find? d.toNat ≠ none) :
    AdmitsNone a { b with loads := b.loads.insert d.toNat l } := by
  refine h.trans ⟨rfl, fun _ => rfl, fun e hl => ?_, fun _ hr _ => hr, fun _ y hy => ⟨y, hy, rfl, rfl⟩⟩
  have he : e.toNat ≠ d.toNat := fun he => hd (he ▸ hl)
  rwa [Map.find?_insert_ne _ _ he]

theorem eraseLoad (h : AdmitsNone a b) (d : CtxNo) : AdmitsNone a { b with loads := b.loads.erase d.toNat } := by
  refine h.trans ⟨rfl, fun _ => rfl, fun e hl => ?_, fun _ hr _ => hr, fun _ y hy => ⟨y, hy, rfl, rfl⟩⟩
  by_cases he : e.toNat = d.toNat
  · simp [he]
  · rwa [Map.find?_erase_ne _ he]

theorem mapLoads (h : AdmitsNone a b) (f : Nat → LoadOp → LoadOp) (x : Xlate) :
    AdmitsNone a { b with xl := x, loads := b.loads.mapVals f } := by
  refine h.trans ⟨rfl, fun _ => rfl, fun e hl => ?_, fun _ hr _ => hr, fun _ y hy => ⟨y, hy, rfl, rfl⟩⟩
  rw [Map.find?_mapVals, hl]
  rfl

/-! #### What counts, reports and translates -/

theorem notes {pgs : List Nat} (h : AdmitsNone a b) (n : Block.Notes pgs b c) : AdmitsNone a c := by
  exact h.parts (by rw [n.rest])

theorem cnt (h : AdmitsNone a b) (pg off : Nat) (n : Nat) : AdmitsNone a (b.cnt pg off n) := h.parts rfl
theorem setReg (h : AdmitsNone a b) (pg off : Nat) (v : Word) : AdmitsNone a (b.setReg pg off v) := h.parts rfl
theorem flag (h : AdmitsNone a b) (pg i : Nat) : AdmitsNone a (b.flag pg i) := h.notes (Block.flag_notes b pg i)
theorem raise (h : AdmitsNone a b) (pg : Nat) (m : BitVec 8) : AdmitsNone a (b.raise pg m) := h.notes (Block.raise_notes b pg m)
theorem pmuEv (h : AdmitsNone a b) (ev : BitVec 8) (unit n : Nat) : AdmitsNone a (b.pmuEv ev unit n) :=
  h.notes (Block.pmuEv_notes b ev unit n)

theorem translates (h : AdmitsNone a b) (t : Block.Translates b c) : AdmitsNone a c := by
  exact h.parts (by rw [t.rest])

theorem xlate {q : XReq} {r : XRes} (h : AdmitsNone a b) (hx : xlate b q = (c, r)) : AdmitsNone a c :=
  h.translates (by simpa only [hx] using Block.Translates.xlate b q)

theorem startRead {n : Nat} {q : XReq} {r : Sum Phase (BitVec 4 × BitVec 3)} (h : AdmitsNone a b)
    (hs : startRead b n q = (c, r)) : AdmitsNone a c := by
  obtain ⟨k, x, hc⟩ := startRead_fst b n q
  obtain rfl : c = _ := (congrArg Prod.fst hs).symm.trans hc
  exact (h.translates (Block.Translates.xlate b q)).parts rfl

theorem orphan (h : AdmitsNone a b) (k : Cont) (p : Phase) (t : Tag) : AdmitsNone a (b.orphan k p t) := by
  unfold Block.orphan
  dsimp only
  split
  · exact h.parts rfl
  · exact h.parts rfl

/-! #### Payloads and arrivals -/

theorem freePay (h : AdmitsNone a b) (p : Option Nat) : AdmitsNone a (b.freePay p) := by
  cases p with
  | none => exact h
  | some i => exact h.parts rfl

theorem readPay (h : AdmitsNone a b) (p : Option Nat) : AdmitsNone a (b.readPay p) := by
  unfold Block.readPay
  split
  · split
    · split
      · exact h.freePay _
      · exact h.parts rfl
    · exact h
  · exact h

theorem place (h : AdmitsNone a b) (e : Event) : AdmitsNone a (b.place e) := by
  unfold Block.place
  dsimp only
  split
  · exact .foldl (h.parts (by rfl)) _ fun i hb => hb.freePay (some i)
  · exact h

theorem leftQueue (h : AdmitsNone a b) (e : Event) : AdmitsNone a (b.leftQueue e) := by
  unfold Block.leftQueue
  dsimp only
  split
  · split
    · exact h.place e
    · exact h.parts rfl
  · exact h

/-- A record request resolved by its arrival's grant keeps its owner and its phase. -/
theorem resolveRec (h : AdmitsNone a b) (tok : Option Nat) (merged : Bool) : AdmitsNone a (b.resolveRec tok merged) := by
  unfold Block.resolveRec
  split
  · exact h
  · dsimp only
    refine h.mapWriters ?_ (by dsimp only) rfl
    intro i w y hy
    obtain ⟨x, hx, rfl⟩ := List.mem_map.mp hy
    refine ⟨x, List.mem_of_mem_filter hx, ?_⟩
    split <;> exact ⟨rfl, rfl⟩

theorem dropIns (h : AdmitsNone a b) (i : Ins) : AdmitsNone a (b.dropIns i) := by
  unfold Block.dropIns
  dsimp only
  have hd := (h.resolveRec i.recTok false).cnt pgVMGR 0x0B4 1
  split
  · exact hd.leftQueue _
  · exact hd

/-! #### The multicast queue -/

theorem setGone (h : AdmitsNone a b) (n : Nat) (m : McItem) : AdmitsNone a (b.setGone n m) :=
  ((h.resolveRec _ _).place _).parts rfl

theorem readSet (h : AdmitsNone a b) (n : Nat) (m : McItem) : AdmitsNone a (b.readSet n m) := by
  unfold Block.readSet
  dsimp only
  split
  · next hs => exact ((h.parts (by rfl)).startRead hs).parts rfl
  · next hs => exact ((h.parts (by rfl)).startRead hs).setGone n m

theorem forward {x : Arrival} {r : Rte} {n : Nat} (h : AdmitsNone a b) (hf : b.forward n x r = some c) : AdmitsNone a c := by
  unfold Block.forward at hf
  split at hf
  · cases hf
    exact ((((h.cnt pgJL 0x048 1).setReg pgJL 0x054 _).flag pgJL 3).place _).readPay _ |>.parts rfl
  · dsimp only at hf
    split at hf
    · split at hf
      · cases hf
      · cases hf
        exact h.parts rfl
    · split at hf
      · cases hf
      · cases hf
        exact h.parts rfl

theorem drainMc (h : AdmitsNone a b) (n fuel : Nat) : AdmitsNone a (b.drainMc n fuel) := by
  induction fuel generalizing b with
  | zero => exact h
  | succ fuel ih =>
    unfold Block.drainMc
    split
    · exact h
    · dsimp only
      split
      · exact ih (h.parts rfl)
      · split
        · exact ih (h.parts rfl)
        · exact h
      · split
        · exact ih (h.parts rfl)
        · split
          · split
            · split
              · exact ih (h.readSet n _)
              · exact h.readSet n _
            · exact h
          · split
            · split
              · next hf =>
                exact ih ((h.forward hf).parts rfl)
              · exact h
            · split
              · exact ih (h.parts rfl)
              · exact h

end Block.AdmitsNone

end Sys2Proof.Machine

namespace Sys2Proof.Machine.Block.AdmitsNone

variable {a b c : Block}

/-! #### Dirty logs and the ring writers' memory ports -/

theorem ask16 (h : AdmitsNone a b) (i : Ins) : AdmitsNone a (b.ask16 i) := h.parts rfl
theorem granted (h : AdmitsNone a b) (r : Res) (i : Nat) : AdmitsNone a (b.granted r i) := h.parts rfl

theorem vifCause (h : AdmitsNone a b) (v i : Nat) : AdmitsNone a (b.vifCause v i) := by
  unfold Block.vifCause
  dsimp only
  split
  · exact h
  · split
    · exact (((h.setVif v (by rfl)).setReg _ _ _).ask16 _).flag pgVMGR 4
    · exact h.setVif v rfl

theorem logPage (h : AdmitsNone a b) (w : Nat) (o : OwnerNo) (seg : BitVec 6) (pa : BitVec 64) :
    AdmitsNone a (b.logPage w o seg pa) := by
  have hthresh : ∀ (p : Prop) [Decidable p] (d : Block) (v : Nat), AdmitsNone a d → AdmitsNone a (if p then d.vifCause v 4 else d) := by
    intro p _ d v hd
    split
    · exact hd.vifCause v 4
    · exact hd
  unfold Block.logPage
  dsimp only
  split
  · exact h
  · split
    · exact h
    · split
      · exact ((h.parts (by rfl)).flag pgVMGR 5).vifCause _ 5
      · split
        · next hx => exact (AdmitsNone.xlate (hthresh _ _ _ (h.parts (by rfl))) hx).setWriter w rfl
        · next hx => exact .xlate (hthresh _ _ _ (h.parts (by rfl))) hx
        · next hx => exact (((AdmitsNone.xlate (hthresh _ _ _ (h.parts (by rfl))) hx).parts (by rfl)).flag pgVMGR 5).vifCause _ 5

theorem issueWrite (h : AdmitsNone a b) (w : Nat) (m : MemWrite) (seg : BitVec 6) : AdmitsNone a (b.issueWrite w m seg) :=
  ((h.setWriter w (by rfl)).pmuEv 0x13 w _).logPage w _ seg _

theorem grantPort (h : AdmitsNone a b) (w fuel : Nat) : AdmitsNone a (b.grantPort w fuel) := by
  induction fuel generalizing b with
  | zero => exact h
  | succ fuel ih =>
    unfold Block.grantPort
    split
    · exact h
    · exact h
    · split
      · exact ih (((h.setWriter w (by rfl)).granted _ _).issueWrite w _ _)
      · exact h

/-! #### Context banks: flags, pushes and write-backs -/

/-- The record of a context takes a status bit, or what stands for it where there is none. -/
theorem ctxFlag (h : AdmitsNone a b) (hc : AdmitsNone a c) (d : CtxNo) (i : Nat) : AdmitsNone a ((b.ctxFlag d i).getD c) := by
  unfold Block.ctxFlag
  split
  · next hx => exact h.setRec _ fun hd => by simp [hx] at hd
  · cases b.leave.find? d.toNat with
    | none => exact hc
    | some l => exact h.parts rfl

theorem spillDrop (h : AdmitsNone a b) (d : CtxNo) : AdmitsNone a (b.spillDrop d) :=
  have hd := (h.cnt _ 0x074 1).flag _ 1
  hd.ctxFlag (hd.setReg _ _ _) d 4

theorem spillBad (h : AdmitsNone a b) (d : CtxNo) : AdmitsNone a (b.spillBad d) := h.ctxFlag (h.setReg _ _ _) d 5

theorem issueWb (h : AdmitsNone a b) (q : WbReq) (pa : BitVec 64) (dev : Bool) : AdmitsNone a (b.issueWb q pa dev) := by
  refine (foldl ?_ _ fun x hb => hb.setWriter _ (by rfl)).grantPort _ 64
  split
  · exact h.spillDrop _
  · exact h

theorem sendWb {q : WbReq} {op : BitVec 4} {r : WbRes} (h : AdmitsNone a b) (hs : b.sendWb q op = (c, r)) : AdmitsNone a c := by
  obtain rfl : c = (b.sendWb q op).1 := (congrArg Prod.fst hs).symm
  unfold Block.sendWb
  dsimp only
  split
  · next hx => exact (h.xlate hx).issueWb q _ _
  · next hx => exact (h.xlate hx).setWriter _ rfl
  · next hx => exact h.xlate hx

theorem unfilter (h : AdmitsNone a b) (d : CtxNo) : AdmitsNone a (b.unfilter d) := by
  unfold Block.unfilter
  dsimp only
  split
  · exact h.parts rfl
  · exact h

/-! #### The residency and spill engine -/

theorem spillLost (h : AdmitsNone a b) (d : CtxNo) : AdmitsNone a (b.spillLost d) := AdmitsNone.spillDrop (h.parts (by rfl)) d

theorem pushEntry (h : AdmitsNone a b) (s : Spill) (seg : BitVec 6) (page : BitVec 36) (d : Option (Nat × Nat)) :
    AdmitsNone a (b.pushEntry s seg page d) := by
  unfold Block.pushEntry
  dsimp only
  split
  · exact h.spillLost _
  · split
    · next hs => exact (h.sendWb hs).spillLost _
    · next hs => exact ((h.sendWb hs).parts (by rfl)).pmuEv 0x0D _ 1

theorem readDesc (h : AdmitsNone a b) (s : Spill) : AdmitsNone a (b.readDesc s) := by
  unfold Block.readDesc
  split
  · exact h
  · dsimp only
    split
    · next hs => exact (h.startRead hs).parts rfl
    · next hs => exact ((h.startRead hs).spillBad _).pushEntry _ _ _ _

theorem readEntry (h : AdmitsNone a b) (s : Spill) : AdmitsNone a (b.readEntry s) := by
  unfold Block.readEntry
  dsimp only
  split
  · next hs => exact (h.startRead hs).parts rfl
  · next hs => exact (((((h.startRead hs).parts (by rfl)).cnt _ 0x094 1).setReg _ _ _).flag _ 2).setReg _ _ _

theorem startSpill (h : AdmitsNone a b) (d : CtxNo) : AdmitsNone a (b.startSpill d) := by
  unfold Block.startSpill
  split
  · exact h
  · refine h.ite (h.ite ?_)
    split
    · exact h.ite (h.readDesc _)
    · exact h.ite (h.readEntry _)

theorem kickSpills (h : AdmitsNone a b) (q : Nat) : AdmitsNone a (b.kickSpills q) := foldl h _ fun x hb => hb.startSpill x

theorem readBucket (h : AdmitsNone a b) (d : CtxNo) (fuel : Nat) : AdmitsNone a (b.readBucket d fuel) := by
  induction fuel generalizing b with
  | zero => exact h
  | succ fuel ih =>
    unfold Block.readBucket
    split
    · exact h
    · split
      · exact h
      · dsimp only
        split
        · next hs => exact (h.startRead hs).modRec d _
        · next hs => exact ih ((h.startRead hs).modRec d _)

theorem maybeRefill (h : AdmitsNone a b) (d : CtxNo) : AdmitsNone a (b.maybeRefill d) := by
  unfold Block.maybeRefill
  split
  · exact h
  · next hx =>
    split
    · refine AdmitsNone.readBucket ?_ d 64
      split
      · exact h
      · exact (h.setRec _ fun hd => by simp [hx] at hd).pmuEv 0x0E _ 1
    · exact h

theorem writeDescs (h : AdmitsNone a b) (d : CtxNo) (x : Ctx) (ds : List (Prio × List Byte)) :
    AdmitsNone a (b.writeDescs d x ds) := by
  refine foldl h ds fun e hb => ?_
  split
  · next hs => exact (hb.sendWb hs).spillDrop d
  · next hs => exact hb.sendWb hs

/-! #### Contexts that leave the bank -/

theorem deactivated (h : AdmitsNone a b) (x : Act) (sample : Bool) : AdmitsNone a (b.deactivated x sample) := by
  unfold Block.deactivated
  dsimp only
  split
  · exact h
  · split
    · exact h.parts rfl
    · exact h.parts rfl

theorem ask (h : AdmitsNone a b) (i : Nat) (r : SeatReq × BitVec 4) : AdmitsNone a (b.ask i r) := by
  unfold Block.ask
  dsimp only
  split
  · exact h.parts rfl
  · exact h.parts rfl

theorem emptySeat (h : AdmitsNone a b) (i : Nat) : AdmitsNone a (b.emptySeat i) := by
  unfold Block.emptySeat Block.withdrawSeat
  dsimp only
  split
  · exact (h.ask _ _).parts rfl
  · exact h.parts rfl

theorem leaveSeat (h : AdmitsNone a b) (d : CtxNo) : AdmitsNone a (b.leaveSeat d) := by
  have hseat : ∀ i, (b.emptySeat i).rec? d = b.rec? d := fun i => by
    unfold Block.emptySeat Block.withdrawSeat Block.ask
    dsimp only
    split
    · split <;> rfl
    · rfl
  unfold Block.leaveSeat
  split
  · next hx =>
    split
    · exact (h.emptySeat _).setRec _ fun hd => by simp [hseat, hx] at hd
    · exact h
  · exact h

theorem purgeCtx (h : AdmitsNone a b) (d : CtxNo) : AdmitsNone a (b.purgeCtx d) := by
  unfold Block.purgeCtx
  split
  · exact h
  · exact ((foldl (h.leaveSeat d) _ fun x hb => hb.deactivated x false).eraseRec d).unfilter d

theorem purgeIfDue (h : AdmitsNone a b) (d : CtxNo) : AdmitsNone a (b.purgeIfDue d) := by
  unfold Block.purgeIfDue
  split
  · dsimp only
    split
    · exact (h.purgeCtx d).setVif _ rfl
    · exact h
  · exact h

theorem writeBack (h : AdmitsNone a b) (d : CtxNo) (x : Ctx) : AdmitsNone a (b.writeBack d x) := by
  unfold Block.writeBack
  dsimp only
  split
  · exact foldl ((h.setVif _ (by rfl)).unfilter d) _ fun x hb => hb.deactivated x false
  · split
    · exact h
    · exact h.sendWb rfl

theorem evicted (h : AdmitsNone a b) (d : CtxNo) (x : Ctx) : AdmitsNone a (b.evicted d x) := by
  unfold Block.evicted
  dsimp only
  refine AdmitsNone.unfilter (((AdmitsNone.cnt ?_ _ 0x088 1).cnt _ 0x090 1).flag _ 4) d
  split
  · exact h.parts rfl
  · exact h

/-! #### Loads -/

theorem csgEnd (h : AdmitsNone a b) (g : Nat) (d : CtxNo) (r : BitVec 4) : AdmitsNone a (b.csgEnd g d r) := by
  have hcmd : AdmitsNone a (b.setCmd g { busy := false, result := r, ctx := d }) := h.parts rfl
  unfold Block.csgEnd
  dsimp only
  refine AdmitsNone.raise ?_ _ _
  split
  · exact (hcmd.setReg _ _ _).flag _ 3
  · exact hcmd

theorem endLoad (h : AdmitsNone a b) (d : CtxNo) (l : LoadOp) (r : BitVec 4) : AdmitsNone a (b.endLoad d l r) := by
  unfold Block.endLoad
  split
  · exact h.csgEnd _ d r
  · split
    · exact h
    · refine AdmitsNone.flag ?_ pgPWR 6
      split
      · exact h.parts rfl
      · exact h

theorem loadFail (h : AdmitsNone a b) (d : CtxNo) (r : BitVec 4) : AdmitsNone a (b.loadFail d r) := by
  unfold Block.loadFail
  split
  · exact (h.eraseLoad d).endLoad d _ r
  · exact h

/-- The start of a read leaves the loads. -/
theorem loads_of_startRead {n : Nat} {q : XReq} {r : Sum Phase (BitVec 4 × BitVec 3)} (hs : Machine.startRead b n q = (c, r)) :
    c.loads = b.loads := by
  obtain ⟨k, x, hc⟩ := startRead_fst b n q
  obtain rfl : c = _ := (congrArg Prod.fst hs).symm.trans hc
  show (Machine.xlate b q).1.loads = b.loads
  rw [(Block.Translates.xlate b q).rest]

theorem startLoad (h : AdmitsNone a b) (d : CtxNo) : AdmitsNone a (b.startLoad d) := by
  unfold Block.startLoad
  split
  · next hl =>
    split
    · exact h
    · split
      · exact h.loadFail d _
      · dsimp only
        split
        · next hs => exact (h.startRead hs).insertLoad _ (by simp [loads_of_startRead hs, hl])
        · next hs => exact (h.startRead hs).loadFail d _
  · exact h

theorem readDescs (h : AdmitsNone a b) (d : CtxNo) (fuel : Nat) : AdmitsNone a (b.readDescs d fuel) := by
  induction fuel generalizing b with
  | zero => exact h
  | succ fuel ih =>
    unfold Block.readDescs
    split
    · next hl =>
      split
      · exact h
      · dsimp only
        split
        · next hs => exact ih ((h.startRead hs).insertLoad _ (by simp [loads_of_startRead hs, hl]))
        · next hs => exact ih ((h.startRead hs).insertLoad _ (by simp [loads_of_startRead hs, hl]))
    · exact h

theorem enterSeat (h : AdmitsNone a b) (d : CtxNo) (i : Nat) : AdmitsNone a (b.enterSeat d i) :=
  (AdmitsNone.modRec (h.parts (by rfl)) d _).unfilter d

theorem loadFinish (h : AdmitsNone a b) {d : CtxNo} (l : LoadOp) (hd : b.loads.find? d.toNat ≠ none) :
    AdmitsNone a (b.loadFinish d l) := by
  unfold Block.loadFinish
  dsimp only
  have hrec : ∀ x y ds, AdmitsNone a (((({ b with loads := b.loads.insert d.toNat y } : Block).setRec d x).unfilter d).writeDescs d x ds) :=
    fun x y ds => (((h.insertLoad y hd).setRec x fun k => by simp at k).unfilter d).writeDescs d x ds
  split
  · exact (hrec _ _ _).enterSeat d _
  · exact hrec _ _ _

theorem kickLoad (h : AdmitsNone a b) (d : CtxNo) : AdmitsNone a (b.kickLoad d) := by
  unfold Block.kickLoad
  extract_lets b1 b2
  have hread : AdmitsNone a b1 := (h.startLoad d).readDescs d 128
  have hfinish : AdmitsNone a b2 := by
    unfold b2
    split
    · next hl =>
      split
      · exact hread.loadFinish _ (by simp [hl])
      · exact hread
    · exact hread
  split
  · split
    · exact (((hfinish.eraseLoad d).maybeRefill d).endLoad d _ resOk).purgeIfDue d
    · exact hfinish
  · exact hfinish

theorem slotFree (h : AdmitsNone a b) (d : CtxNo) : AdmitsNone a (b.slotFree d) := by
  unfold Block.slotFree
  split
  · next hl =>
    split
    · exact (h.insertLoad _ (by simp [hl])).kickLoad d
    · exact h
  · exact h

theorem kickLeave (h : AdmitsNone a b) (d : CtxNo) : AdmitsNone a (b.kickLeave d) := by
  unfold Block.kickLeave
  split
  · split
    · exact h
    · have hwb : ∀ x, AdmitsNone a (({ b with leave := b.leave.erase d.toNat } : Block).writeBack d x) := fun x =>
        AdmitsNone.writeBack (h.parts (by rfl)) d x
      dsimp only
      split
      · exact (hwb _).csgEnd _ d resOk
      · exact ((hwb _).evicted d _).slotFree _
      · exact hwb _
  · exact h

theorem kickCtx (h : AdmitsNone a b) (d : CtxNo) : AdmitsNone a (b.kickCtx d) :=
  ((((h.kickSpills _).maybeRefill d).kickLeave d).kickSpills _).kickLoad d

theorem kickMoves (h : AdmitsNone a b) : AdmitsNone a b.kickMoves := foldl h _ fun _ hb => hb.kickCtx _

end Sys2Proof.Machine.Block.AdmitsNone

namespace Sys2Proof.Machine.Block.AdmitsNone

variable {a b c : Block}

/-! #### What a purge takes out -/

theorem mapIns (h : AdmitsNone a b) (f : Ins → Ins) : AdmitsNone a (b.mapIns f) := h.parts rfl

theorem purgeIns (h : AdmitsNone a b) (mine : CtxNo → Bool) : AdmitsNone a (b.purgeIns mine) :=
  foldl (foldl (h.parts (by rfl)) _ fun i hb => hb.dropIns i) _ fun n hb => hb.drainMc n 200

theorem purgeSpills (h : AdmitsNone a b) (v : Nat) : AdmitsNone a (b.purgeSpills v) := by
  unfold Block.purgeSpills
  dsimp only
  refine foldl (h.mapWriters ?_ (by dsimp only) (by rfl)) _ fun s hb => ?_
  · exact fun _ _ y hy => ⟨y, hy, rfl, rfl⟩
  · split
    · exact (hb.cnt _ _ 1).orphan _ _ _
    · exact hb.cnt _ _ 1

theorem purgeLoads (h : AdmitsNone a b) (v : Nat) : AdmitsNone a (b.purgeLoads v) := h.mapLoads _ _

theorem purgeXlate (h : AdmitsNone a b) (v : Nat) : AdmitsNone a (b.purgeXlate v) := h.parts rfl

theorem keepLanes (h : AdmitsNone a b) (keep : LaneFrame → Bool) : AdmitsNone a (b.keepLanes keep).1 :=
  foldl (h.parts (by rfl)) _ fun n hb => hb.drainMc n 200

theorem purgeLanes (h : AdmitsNone a b) (v : Nat) : AdmitsNone a (b.purgeLanes v) := by
  refine foldl (h.keepLanes _) _ fun f hb => ?_
  dsimp only
  split
  · exact (hb.readPay _).place _
  · exact hb.readPay _

theorem purgeResident (h : AdmitsNone a b) (d : CtxNo) : AdmitsNone a (b.purgeResident d) := by
  unfold Block.purgeResident
  split
  · refine AdmitsNone.purgeCtx ?_ d
    split
    · exact h.orphan _ _ _
    · exact h
  · exact h

theorem freshAges (h : AdmitsNone a b) (old : Block) : AdmitsNone a (b.freshAges old) := h.parts rfl

end Sys2Proof.Machine.Block.AdmitsNone

namespace Sys2Proof.Machine

/-! ### Records of a VIF in staging (R260) -/

/-- Of an owner's records in staging each is issued. -/
def Block.NoneWaits (b : Block) (o : OwnerNo) : Prop := ∀ k, ∀ y ∈ (b.writer k).recs, y.owner = o → y.ph = .issued

theorem Block.NoneWaits.admitsNone {b c : Block} {o : OwnerNo} (h : b.NoneWaits o) (ha : Block.AdmitsNone b c) : c.NoneWaits o := by
  intro k y hy ho
  obtain ⟨x, hx, hxo, hxp⟩ := ha.recs k y hy
  rw [← hxp]
  exact h k x hx (hxo.trans ho)

/-- The block after a VIF's records left staging and the engines' queues, before their payloads and places go. -/
def Block.dropRecs (b : Block) (v : Nat) : Block :=
  { b with
    wr := b.wr.mapVals fun _ w => { w with recs := w.recs.filter fun x => !(x.owner == ownerCode v && x.ph != .issued) }
    eng := b.eng.mapVals fun _ e => { e with recq := keepIn e.recq fun q => !((b.ringCfg q.ring).owner == ownerCode v) } }

theorem Block.AdmitsNone.dropRecs {a b : Block} (h : Block.AdmitsNone a b) (v : Nat) : Block.AdmitsNone a (b.dropRecs v) :=
  h.mapWriters (f := fun _ w => { w with recs := w.recs.filter fun x => !(x.owner == ownerCode v && x.ph != .issued) })
    (fun _ _ y hy => ⟨y, List.mem_of_mem_filter hy, rfl, rfl⟩) rfl rfl

theorem Block.dropRecs_noneWaits (b : Block) (v : Nat) : (b.dropRecs v).NoneWaits (ownerCode v) := by
  intro k y hy ho
  simp only [Block.dropRecs, Block.writer, Map.get, Map.find?_mapVals] at hy
  cases hk : b.wr.find? k with
  | none => simp [hk] at hy
  | some w =>
    simp only [hk, Option.map_some, Option.getD_some, List.mem_filter, ho] at hy
    simpa using hy.2

/-- The payloads and places of the records that have left go after them. -/
theorem Block.dropRecs_admitsNone (b : Block) (v : Nat) : Block.AdmitsNone (b.dropRecs v) (b.purgeRecs v) := by
  refine .foldl (.foldl (.refl _) _ fun x hb => (hb.readPay _).cnt _ _ 1) _ fun q hb => ?_
  dsimp only
  split
  · exact ((hb.readPay _).cnt _ _ 1).place _
  · exact (hb.readPay _).cnt _ _ 1

theorem Block.AdmitsNone.purgeRecs {a b : Block} (h : Block.AdmitsNone a b) (v : Nat) : Block.AdmitsNone a (b.purgeRecs v) :=
  (h.dropRecs v).trans (b.dropRecs_admitsNone v)

/-! ### Contexts of a VIF that are resident (R261) -/

theorem Block.rec?_unfilter (b : Block) (c d : CtxNo) : (b.unfilter c).rec? d = b.rec? d := by
  unfold Block.unfilter
  dsimp only
  split <;> rfl

theorem Block.rec?_purgeCtx (b : Block) (c : CtxNo) : (b.purgeCtx c).rec? c = none := by
  unfold Block.purgeCtx
  split
  · next h => exact h
  · rw [Block.rec?_unfilter, Block.rec?_eraseRec]

theorem Block.rec?_purgeResident (b : Block) (c : CtxNo) : (b.purgeResident c).rec? c = none := by
  unfold Block.purgeResident
  split
  · exact Block.rec?_purgeCtx _ c
  · next h => exact h

/-- Of some contexts that are purged one after the other none that is in no load is resident at the end. -/
theorem Block.rec?_foldl_purgeResident {c : CtxNo} {l : List CtxNo} (hc : c ∈ l) (b : Block) (hl : b.loads.find? c.toNat = none) :
    (l.foldl Block.purgeResident b).rec? c = none := by
  induction l generalizing b with
  | nil => cases hc
  | cons d l ih =>
    have hd : Block.AdmitsNone b (b.purgeResident d) := (Block.AdmitsNone.refl b).purgeResident d
    by_cases hcl : c ∈ l
    · exact ih hcl _ (hd.loads c hl)
    · obtain rfl : c = d := (List.mem_cons.mp hc).resolve_right hcl
      exact (Block.AdmitsNone.foldl (.refl _) l fun e hb => hb.purgeResident e).absent c (b.rec?_purgeResident c) (hd.loads c hl)

/-- The contexts of a VIF that are in no handoff, as a purge lists them. -/
def Block.residents (b : Block) (o : OwnerNo) : List CtxNo :=
  ((b.ctx.cells.filter fun p => p.2.owner == o).filter fun p => !p.2.moving).map fun p => BitVec.ofNat 16 p.1

theorem Block.mem_residents {b : Block} {o : OwnerNo} {c : CtxNo}
    (h : (b.rec? c).any (fun x => x.owner == o && !x.moving) = true) : c ∈ b.residents o := by
  cases hx : b.rec? c with
  | none => simp [hx] at h
  | some x =>
    simp only [hx, Option.any_some, Bool.and_eq_true] at h
    refine List.mem_map.mpr ⟨(c.toNat, x), ?_, by simp⟩
    simp only [List.mem_filter]
    exact ⟨⟨Map.mem_of_find? hx, h.1⟩, h.2⟩

/-! ### The purge (R257, R260) -/

/-- The VIF as a RESET or DESTROY leaves it, but for the causes and the contexts that its purge waits for. -/
structure Block.Purging (b b' : Block) (v : Nat) (st : VifState) : Prop where
  queue : b'.fab.q = b.fab.q
  state : (b'.vifOf v).state = st
  gen : (b'.vifOf v).gen = (b.vifOf v).gen + 1
  done : (b'.vifOf v).done = false
  purging : (b'.vifOf v).purging = true
  gone : ∀ c : CtxNo, (b.rec? c).any (fun x => x.owner == ownerCode v && !x.moving) = true → b.loads.find? c.toNat = none →
    b'.rec? c = none
  noneWaits : b'.NoneWaits (ownerCode v)

theorem Block.stopLog_rest (b : Block) (v : Nat) : b.stopLog v = { b with vif := (b.stopLog v).vif, vm := (b.stopLog v).vm } := by
  unfold Block.stopLog
  dsimp only
  split <;> rfl

theorem Block.vifOf_stopLog (b : Block) (v : Nat) : (b.stopLog v).vifOf v = { b.vifOf v with dlEn := false } := by
  unfold Block.stopLog
  dsimp only
  split
  · next h => rw [← Bool.not_eq_true' _ |>.mp h]
  · exact Block.vifOf_setVif b v _

theorem Block.vifPurge_purging (b : Block) (v : Nat) (st : VifState) : Block.Purging b (b.vifPurge v st) v st := by
  unfold Block.vifPurge
  extract_lets b1 marked o mineRes moving loading leaving x b2 mine b3 b4 b5 b6 b7
  have hmine : Block.AdmitsNone b2 (b3.purgeIns mine) := ((Block.AdmitsNone.refl b2).mapIns _).purgeIns mine
  have hspills : Block.AdmitsNone ((b3.purgeIns mine).purgeRecs v) b4 :=
    ((((Block.AdmitsNone.refl _).purgeSpills v).purgeLoads v).purgeXlate v).purgeLanes v
  have hwaits : b4.NoneWaits (ownerCode v) :=
    ((Block.dropRecs_noneWaits _ v).admitsNone (Block.dropRecs_admitsNone _ v)).admitsNone hspills
  clear_value b4
  have hidx : Block.AdmitsNone b4 b5 := (Block.AdmitsNone.refl b4).mapWriters
    (f := fun _ w => { w with idxWait := w.idxWait.filter fun i => !marked.contains i.ring }) (fun _ _ y hy => ⟨y, hy, rfl, rfl⟩) rfl rfl
  have hrings : Block.AdmitsNone b4 b6 := .foldl hidx _ fun r hb => hb.parts rfl
  have hres : Block.AdmitsNone b6 b7 := .foldl (.refl b6) _ fun c hb => hb.purgeResident c
  have hend : Block.AdmitsNone b7 (b7.kickMoves.freshAges b) := (Block.AdmitsNone.refl b7).kickMoves.freshAges b
  have hkicked : Block.AdmitsNone b6 (b7.kickMoves.freshAges b) := hres.trans hend
  have h6 : Block.AdmitsNone b2 b6 := ((hmine.purgeRecs v).trans hspills).trans hrings
  have hall := h6.trans hkicked
  have hb1 : b1 = { b with vif := b1.vif, vm := b1.vm } := b.stopLog_rest v
  have hx : (b2.vifOf v).gen = (b.vifOf v).gen + 1 := by
    rw [Block.vifOf_setVif]
    show (b1.vifOf v).gen + 1 = _
    rw [Block.vifOf_stopLog]
  refine ⟨?_, ?_, ?_, ?_, ?_, fun c hc hl => ?_, (hwaits.admitsNone hrings).admitsNone hkicked⟩
  · rw [hall.queue]
    exact congrArg (·.fab.q) hb1
  · rw [hall.vif v]
    exact congrArg Vif.state (Block.vifOf_setVif b1 v _)
  · rw [hall.vif v]
    exact hx
  · rw [hall.vif v]
    exact congrArg Vif.done (Block.vifOf_setVif b1 v _)
  · rw [hall.vif v]
    exact congrArg Vif.purging (Block.vifOf_setVif b1 v _)
  · have hc1 : c ∈ b1.residents o := Block.mem_residents (by rw [hb1]; exact hc)
    have hl1 : b2.loads.find? c.toNat = none := (congrArg (·.loads.find? c.toNat) hb1).trans hl
    have hl6 := h6.loads c hl1
    exact hend.absent c (Block.rec?_foldl_purgeResident hc1 b6 hl6) (hres.loads c hl6)

end Sys2Proof.Machine

namespace Sys2Proof.Machine

/-! ### Commands of the VMGR page (R259) leave the queue of the port -/

theorem Block.vmEnd_queue (b : Block) (v : Nat) (r : BitVec 4) : (b.vmEnd v r).fab.q = b.fab.q := Block.raise_queue _ _ _

/-- A command ends before or after the port answers. -/
theorem Block.vmEnd_answer (b : Block) (err : Bool) (d : BitVec 64) (v : Nat) (r : BitVec 4) :
    (b.answer err d).vmEnd v r = (b.vmEnd v r).answer err d :=
  Block.raise_answer { b with vm := { b.vm with busy := false, result := r, vif := BitVec.ofNat 12 v } } err d _ _

/-- What the end of a command leaves: the page's command state, and what it flags and reports. -/
theorem Block.vmEnd_vm (b : Block) (v : Nat) (r : BitVec 4) :
    (b.vmEnd v r).vm = { b.vm with busy := false, result := r, vif := BitVec.ofNat 12 v } := Block.raise_vm _ _ _

theorem Block.vmEnd_vif (b : Block) (v : Nat) (r : BitVec 4) : (b.vmEnd v r).vif = b.vif := Block.raise_vif _ _ _

theorem Block.vmEnd_car (b : Block) (v : Nat) (r : BitVec 4) : (b.vmEnd v r).car = b.car := Block.raise_car _ _ _

theorem Block.ite_queue {p : Prop} [Decidable p] {b c d : Block} (hc : c.fab.q = b.fab.q) (hd : d.fab.q = b.fab.q) :
    (if p then c else d).fab.q = b.fab.q := by
  split
  · exact hc
  · exact hd

theorem Block.vifCreate_queue (b : Block) (v : Nat) (any : Bool) : (b.vifCreate v any).fab.q = b.fab.q := by
  unfold Block.vifCreate
  split
  · exact Block.vmEnd_queue _ _ _
  · exact Block.ite_queue (Block.vmEnd_queue _ _ _) (Block.vmEnd_queue _ _ _)

theorem Block.vifEnd_queue (b : Block) (v : Nat) (st : VifState) : (b.vifEnd v st).fab.q = b.fab.q := by
  unfold Block.vifEnd
  split
  · exact Block.vmEnd_queue _ _ _
  · exact Block.vmEnd_queue _ _ _
  · exact Block.vmEnd_queue _ _ _
  · exact (b.vifPurge_purging v st).queue

theorem Block.setCtxRange_queue (b : Block) (v : Nat) (a0 a1 : Word) : (b.setCtxRange v a0 a1).fab.q = b.fab.q :=
  Block.ite_queue (Block.vmEnd_queue _ _ _) (Block.ite_queue (Block.vmEnd_queue _ _ _) (Block.vmEnd_queue _ _ _))

theorem Block.setRingRange_queue (b : Block) (v : Nat) (a0 a1 : Word) : (b.setRingRange v a0 a1).fab.q = b.fab.q :=
  Block.ite_queue (Block.vmEnd_queue _ _ _) (Block.ite_queue (Block.vmEnd_queue _ _ _)
    (Block.ite_queue (Block.vmEnd_queue _ _ _) (Block.vmEnd_queue _ _ _)))

theorem Block.setNotifyTarget_queue (b : Block) (v : Nat) (a0 a1 : Word) : (b.setNotifyTarget v a0 a1).fab.q = b.fab.q :=
  Block.ite_queue (Block.vmEnd_queue _ _ _) (Block.vmEnd_queue _ _ _)

theorem Block.dirtyStart_queue (b : Block) (v : Nat) (a0 : Word) : (b.dirtyStart v a0).fab.q = b.fab.q :=
  Block.ite_queue (Block.vmEnd_queue _ _ _) (Block.ite_queue (Block.vmEnd_queue _ _ _)
    (Block.ite_queue (Block.vmEnd_queue _ _ _) (Block.vmEnd_queue _ _ _)))

theorem Block.ringIdx_queue (b : Block) (v : Nat) (a0 pi ci : Word) : (b.ringIdx v a0 pi ci).fab.q = b.fab.q :=
  Block.ite_queue (Block.vmEnd_queue _ _ _) (Block.ite_queue (Block.vmEnd_queue _ _ _) (Block.ite_queue (Block.vmEnd_queue _ _ _)
    (Block.ite_queue (Block.vmEnd_queue _ _ _) (Block.vmEnd_queue _ _ _))))

theorem Block.foldl_closeWindow_queue (l : List RingNo) (why : Nat) (b : Block) :
    (l.foldl (fun b r => b.closeWindow r why) b).fab.q = b.fab.q := by
  induction l generalizing b with
  | nil => rfl
  | cons r l ih => exact (ih _).trans (Block.closeWindow_queue b r why)

theorem Block.startDrain_queue (b : Block) (v : Nat) : (b.startDrain v).fab.q = b.fab.q := Block.foldl_closeWindow_queue _ _ _

theorem Block.stopLog_queue (b : Block) (v : Nat) : (b.stopLog v).fab.q = b.fab.q := congrArg (·.fab.q) (b.stopLog_rest v)

/-- A command of a VIF that is checked, and acts if it is let through. -/
theorem Block.vmgrCmd_queue (b : Block) (op : Nat) : (b.vmgrCmd op).fab.q = b.fab.q := by
  unfold Block.vmgrCmd
  split
  · exact Block.flag_queue _ _ _
  · dsimp only
    split
    case h_1 => exact Block.vifCreate_queue _ _ _
    case h_2 => exact Block.vifEnd_queue _ _ _
    case h_3 => exact Block.vifEnd_queue _ _ _
    case h_4 => exact Block.setCtxRange_queue _ _ _ _
    case h_5 => exact Block.setRingRange_queue _ _ _ _
    case h_6 => exact Block.setNotifyTarget_queue _ _ _ _
    case h_7 => exact Block.dirtyStart_queue _ _ _
    case h_8 =>
      exact Block.ite_queue (Block.vmEnd_queue _ _ _) (Block.ite_queue (Block.vmEnd_queue _ _ _)
        ((Block.vmEnd_queue _ _ _).trans (Block.stopLog_queue _ _)))
    case h_9 =>
      exact Block.ite_queue (Block.vmEnd_queue _ _ _) (Block.ite_queue (Block.vmEnd_queue _ _ _)
        (Block.ite_queue (Block.vmEnd_queue _ _ _) (Block.vmEnd_queue _ _ _)))
    case h_10 =>
      exact Block.ite_queue (Block.vmEnd_queue _ _ _) (Block.ite_queue (Block.vmEnd_queue _ _ _)
        ((Block.vmEnd_queue _ _ _).trans (Block.startDrain_queue _ _)))
    case h_11 => exact Block.ringIdx_queue _ _ _ _ _
    case h_12 => exact Block.vmEnd_queue _ _ _

/-! ### Writes of the VMGR page -/

theorem pgClass_vmgr : pgClass pgVMGR = some .vmgr := rfl

/-- No unit of the VMGR page is gated. -/
theorem Block.opened_vmgr (b : Block) (off : Nat) : b.opened pgVMGR off = b.relock pgVMGR := by
  rw [Block.opened, Block.regAsk_of_plain pgClass_vmgr rfl, Block.turn_none]
  rfl

theorem Block.wrote_vmgr (b : Block) (off : Nat) (w : RegAcc) : b.wrote pgVMGR off w = (b.relock pgVMGR).answer false 0 := by
  rw [Block.wrote_of_plain pgClass_vmgr rfl, Block.opened_vmgr]

theorem defOf_vmgr_cmd : defOf .vmgr 0x050 = { wo := 0xF, key := true, atOnce := true } := by decide

/-- The code of a command word, and the register's mask of it. -/
theorem fld_vmgrCmd_op (d op : Word) : fld (blend 0xF d op &&& ((defOf .vmgr 0x050).rw ||| (defOf .vmgr 0x050).wo)) 3 0 = fld op 3 0 := by
  rw [defOf_vmgr_cmd]
  exact fld_blend_and_of_ones d op (by decide) (by decide)

section Command

variable {s : State} {i : Instr} {w : RegAcc} {op : Word} {r : Block} (ha : w.als = .base)
  (e : exec i s = .next { s with blk := s.blk.regCmd pgVMGR 0x050 (withOp w 0xF op) })
  (h : s.blk.writes pgVMGR 0x050 (withOp w 0xF op) = true)
include ha e h

/-- A write of VMGR_CMD that meets no obstacle is the command of its code. -/
theorem Puts.of_vmgrCmd (hr : ((s.blk.relock pgVMGR).vmgrCmd (fld op 3 0).toNat).answer false 0 = r) : Puts s i r := by
  refine .of_writes (w := withOp w 0xF op) pgClass_vmgr rfl e (by decide) (by decide) h (fun b => Block.vmgrCmd_queue b _) ?_
  rw [Block.opened_vmgr, Block.wval_base _ _ _ (withOp w 0xF op) _ pgClass_vmgr ha, ← hr, ← fld_vmgrCmd_op w.data op]
  rfl

/-- A command that ends at once: the port's answer may be given before its effect. -/
theorem Puts.of_vmEnd {b b' : Block} {v : Nat} {c : BitVec 4}
    (hr : (s.blk.relock pgVMGR).vmgrCmd (fld op 3 0).toNat = b.vmEnd v c) (hb : b.answer false 0 = b') : Puts s i (b'.vmEnd v c) := by
  refine .of_vmgrCmd ha e h ?_
  rw [hr, ← hb, Block.vmEnd_answer]

end Command

/-! ### The commands by their codes (Table 9-4) -/

/-- The VIF that VMGR_TGT names. -/
abbrev Block.tgtVif (b : Block) : Nat := (b.regFld pgVMGR 0x040 11 0).toNat

section Codes

variable {b : Block} (hidle : b.vm.busy = false)
include hidle

theorem Block.vmgrCmd_create : b.vmgrCmd 1 = b.vifCreate b.tgtVif (b.regBit pgVMGR 0x040 12) := by
  rw [Block.vmgrCmd, if_neg (by simp [hidle])]
  rfl

theorem Block.vmgrCmd_reset : b.vmgrCmd 2 = b.vifEnd b.tgtVif .resetting := by
  rw [Block.vmgrCmd, if_neg (by simp [hidle])]
  rfl

theorem Block.vmgrCmd_destroy : b.vmgrCmd 3 = b.vifEnd b.tgtVif .releasing := by
  rw [Block.vmgrCmd, if_neg (by simp [hidle])]
  rfl

theorem Block.vmgrCmd_setCtx : b.vmgrCmd 4 = b.setCtxRange b.tgtVif (b.reg pgVMGR 0x044) (b.reg pgVMGR 0x048) := by
  rw [Block.vmgrCmd, if_neg (by simp [hidle])]
  rfl

theorem Block.vmgrCmd_setRing : b.vmgrCmd 5 = b.setRingRange b.tgtVif (b.reg pgVMGR 0x044) (b.reg pgVMGR 0x048) := by
  rw [Block.vmgrCmd, if_neg (by simp [hidle])]
  rfl

theorem Block.vmgrCmd_setNotify : b.vmgrCmd 6 = b.setNotifyTarget b.tgtVif (b.reg pgVMGR 0x044) (b.reg pgVMGR 0x048) := by
  rw [Block.vmgrCmd, if_neg (by simp [hidle])]
  rfl

theorem Block.vmgrCmd_dirtyStart : b.vmgrCmd 7 = b.dirtyStart b.tgtVif (b.reg pgVMGR 0x044) := by
  rw [Block.vmgrCmd, if_neg (by simp [hidle])]
  rfl

theorem Block.vmgrCmd_dirtyStop (hst : (b.vifOf b.tgtVif).state = .active) (hlog : (b.vifOf b.tgtVif).dlEn = true) :
    b.vmgrCmd 8 = (b.stopLog b.tgtVif).vmEnd b.tgtVif vmOk := by
  rw [Block.vmgrCmd, if_neg (by simp [hidle])]
  show (if (b.vifOf b.tgtVif).state != .active then _ else if !(b.vifOf b.tgtVif).dlEn then _ else _) = _
  rw [hst, hlog]
  rfl

theorem Block.vmgrCmd_harvest (hst : (b.vifOf b.tgtVif).state = .active) (hlog : (b.vifOf b.tgtVif).dlEn = true)
    (hidle : (b.dlCh (b.vifOf b.tgtVif).dlCh.toNat).harvest = false) :
    b.vmgrCmd 9 = (b.startHarvest b.tgtVif).vmEnd b.tgtVif vmOk := by
  rw [Block.vmgrCmd, if_neg (by simp [*])]
  show (if (b.vifOf b.tgtVif).state != .active then _ else if !(b.vifOf b.tgtVif).dlEn then _ else
    if (b.dlCh (b.vifOf b.tgtVif).dlCh.toNat).harvest then _ else _) = _
  rw [hst, hlog, hidle]
  rfl

theorem Block.vmgrCmd_drain (hst : (b.vifOf b.tgtVif).state = .active) (hdr : (b.vifOf b.tgtVif).draining = false) :
    b.vmgrCmd 10 = (b.startDrain b.tgtVif).vmEnd b.tgtVif vmOk := by
  rw [Block.vmgrCmd, if_neg (by simp [hidle])]
  show (if (b.vifOf b.tgtVif).state != .active then _ else if (b.vifOf b.tgtVif).draining then _ else _) = _
  rw [hst, hdr]
  rfl

theorem Block.vmgrCmd_ringIdx :
    b.vmgrCmd 11 = b.ringIdx b.tgtVif (b.reg pgVMGR 0x044) (b.reg pgVMGR 0x048) (b.reg pgVMGR 0x04C) := by
  rw [Block.vmgrCmd, if_neg (by simp [hidle])]
  rfl

theorem Block.vmgrCmd_undefined {n : Nat} (hop : n = 0 ∨ 11 < n) : b.vmgrCmd n = b.vmEnd b.tgtVif vmBadop := by
  unfold Block.vmgrCmd
  rw [if_neg (by simp [hidle])]
  split
  iterate 11 exact absurd hop (by omega)
  rfl

end Codes

end Sys2Proof.Machine

namespace Sys2Proof.Machine

/-! ### Commands that configure a VIF (Table 9-4) -/

/-- CREATE of a VIF that is FREE: one is, so the command finds one. -/
theorem Block.vifCreate_ok {b : Block} {v : Nat} {any : Bool} (hany : any = false) (hv : v < 4096) (hst : (b.vifOf v).state = .free) :
    b.vifCreate v any =
      (b.setVif v { state := .active, gen := (b.vifOf v).gen + 1, done := (b.vifOf v).done }).vmEnd v vmOk := by
  subst hany
  unfold Block.vifCreate
  split
  · next hnone =>
    have := List.find?_eq_none.mp hnone v (List.mem_range.mpr hv)
    simp [hst] at this
  · simp [hst]

section Set

variable {b : Block} {v : Nat} {a0 a1 : Word} (hset : (b.vifOf v).state = .active ∨ (b.vifOf v).state = .resetting)
include hset

theorem Block.vifSet_of_state : b.vifSet v = true := by
  simpa [Block.vifSet] using hset

theorem Block.setCtxRange_ok (hn : (fld a1 12 0).toNat ≤ 4096) (hr : (fld a0 15 0).toNat + (fld a1 12 0).toNat ≤ 65536) :
    b.setCtxRange v a0 a1 = (b.setVif v { b.vifOf v with ctxBase := fld a0 15 0, ctxCount := fld a1 12 0 }).vmEnd v vmOk := by
  unfold Block.setCtxRange
  rw [if_neg (by simp [Block.vifSet_of_state hset]), if_neg (by simpa using ⟨hn, hr⟩)]

theorem Block.setCtxRange_beyond (hr : 65536 < (fld a0 15 0).toNat + (fld a1 12 0).toNat) :
    b.setCtxRange v a0 a1 = b.vmEnd v vmBadArg := by
  unfold Block.setCtxRange
  rw [if_neg (by simp [Block.vifSet_of_state hset]), if_pos (by simp [hr])]

theorem Block.setRingRange_ok (hn : (fld a1 4 0).toNat ≤ 16) (hr : (fld a0 13 0).toNat + (fld a1 4 0).toNat ≤ 16384)
    (hown : ∀ j, j < (fld a1 4 0).toNat → (b.ringCfg (BitVec.ofNat 14 ((fld a0 13 0).toNat + j))).owner = ownerCode v) :
    b.setRingRange v a0 a1 = (b.setVif v { b.vifOf v with ringBase := fld a0 13 0, ringCount := fld a1 4 0 }).vmEnd v vmOk := by
  have howner : ((List.range (fld a1 4 0).toNat).any fun j =>
      (b.ringCfg (BitVec.ofNat 14 ((fld a0 13 0).toNat + j))).owner != ownerCode v) = false := by
    simpa [List.any_eq_false] using hown
  unfold Block.setRingRange
  rw [if_neg (by simp [Block.vifSet_of_state hset]), if_neg (by simpa using ⟨hn, hr⟩), if_neg (by simp [howner])]

theorem Block.setNotifyTarget_ok :
    b.setNotifyTarget v a0 a1 =
      (b.setVif v { b.vifOf v with noteCtx := fld a0 15 0, notePrio := fld a1 5 0, noteEn := bit a1 8 }).vmEnd v vmOk := by
  unfold Block.setNotifyTarget
  rw [if_neg (by simp [Block.vifSet_of_state hset])]

end Set

/-- The ring of a VIF's slot. -/
abbrev Block.ringAt (b : Block) (v j : Nat) : RingNo := (b.vifOf v).ringBase + BitVec.ofNat 14 j

theorem Block.ringIdx_ok {b : Block} {v : Nat} {a0 pi ci : Word} {r : RingNo} (hst : (b.vifOf v).state = .active)
    (hr : b.ringAt v (fld a0 3 0).toNat = r) (hj : (fld a0 3 0).toNat < (b.vifOf v).ringCount.toNat)
    (hown : (b.ringCfg r).owner = ownerCode v) (hn : (pi - ci).toNat ≤ (b.ringCfg r).entries) (hstaged : b.staged r = [])
    (hwin : b.car.windows.find? r.toNat = none) (hf : (b.ringOf r).faulted = false) :
    b.ringIdx v a0 pi ci =
      ((b.setWriter (ringWriter r) { b.writer (ringWriter r) with
        idxWait := (b.writer (ringWriter r)).idxWait.filter (·.ring != r) }).setRing r
        { b.ringOf r with pi, pub := pi, ci, tgtPend := false, tgtDelta := 0 }).vmEnd v vmOk := by
  unfold Block.ringIdx
  dsimp only
  rw [show (b.vifOf v).ringBase + BitVec.ofNat 14 (fld a0 3 0).toNat = r from hr, if_neg (by simp [hst]), if_neg (by simp [hown, hj]),
    if_neg (by simpa using hn), if_neg (by simp [hstaged, hwin, hf])]
  rfl

/-- Of the codes in a command word, VMGRBADOP writes one that stands for no command. -/
theorem undefOp_vmgrCmd (d : Word) : (fld (undefOp d 15 1 11) 3 0).toNat = 0 ∨ 11 < (fld (undefOp d 15 1 11) 3 0).toNat := by
  have hfld : (fld d 3 0).toNat = (d &&& 15).toNat := by
    have hmask : (fld d 3 0).toNat = d.toNat % 2 ^ 4 := by simp [fld]
    rw [hmask, BitVec.toNat_and, ← Nat.and_two_pow_sub_one_eq_mod]
    rfl
  unfold undefOp
  split
  · exact .inl (by decide)
  · rw [hfld]
    omega

/-- Settles O36: each command is the equation of its code at the block whose page is locked again, which differs from the block
before it in the page's header only. -/
theorem vifCommandsConfigure : Obligations.VifCommandsConfigure := by
  intro s w ha hidle hany v x a0 a1 a2 b ends
  have hw (op : Word) : b op = (s.blk.relock pgVMGR).answer false 0 := Block.wrote_vmgr _ _ _
  have hrelock : (s.blk.relock pgVMGR).vm.busy = false := hidle
  have hv : v < 4096 := (s.blk.regFld pgVMGR 0x040 11 0).isLt
  refine ⟨fun h hst => ?_, fun h hset => ⟨fun hn hr => ?_, fun hr => ?_⟩, fun h hset hn hr hown => ?_, fun h hset => ?_, ?_,
    fun h => ?_⟩
  · refine .of_vmEnd ha rfl h
      ((Block.vmgrCmd_create hrelock).trans (Block.vifCreate_ok (b := s.blk.relock pgVMGR) hany hv hst)) ?_
    rw [hw]
    rfl
  · refine .of_vmEnd ha rfl h
      ((Block.vmgrCmd_setCtx hrelock).trans (Block.setCtxRange_ok (b := s.blk.relock pgVMGR) hset hn hr)) ?_
    rw [hw]
    rfl
  · refine .of_vmEnd ha rfl h ((Block.vmgrCmd_setCtx hrelock).trans (Block.setCtxRange_beyond (b := s.blk.relock pgVMGR) hset hr)) ?_
    rw [hw]
  · refine .of_vmEnd ha rfl h
      ((Block.vmgrCmd_setRing hrelock).trans (Block.setRingRange_ok (b := s.blk.relock pgVMGR) hset hn hr hown)) ?_
    rw [hw]
    rfl
  · refine .of_vmEnd ha rfl h
      ((Block.vmgrCmd_setNotify hrelock).trans (Block.setNotifyTarget_ok (b := s.blk.relock pgVMGR) hset)) ?_
    rw [hw]
    rfl
  · intro h hst j r hj hown hn hstaged hwin hf k
    refine .of_vmEnd ha rfl h ((Block.vmgrCmd_ringIdx hrelock).trans
      (Block.ringIdx_ok (b := s.blk.relock pgVMGR) hst rfl hj hown hn hstaged hwin hf)) ?_
    rw [hw]
    rfl
  · refine .of_vmEnd ha rfl h (Block.vmgrCmd_undefined hrelock (undefOp_vmgrCmd w.data)) ?_
    rw [hw]

end Sys2Proof.Machine

namespace Sys2Proof.Machine

/-! ### What a VMGR command gives -/

/-- What holds of the block that a write of VMGR_CMD leaves. -/
theorem Gives.of_vmgrCmd {s : State} {i : Instr} {w : RegAcc} {op : Word} {r : Block} {p : Block → Prop} (ha : w.als = .base)
    (e : exec i s = .next { s with blk := s.blk.regCmd pgVMGR 0x050 (withOp w 0xF op) })
    (h : s.blk.writes pgVMGR 0x050 (withOp w 0xF op) = true) (hr : (s.blk.relock pgVMGR).vmgrCmd (fld op 3 0).toNat = r)
    (hp : p (s.blk.oneSeq (r.answer false 0))) : Gives s i p := ⟨_, Puts.of_vmgrCmd ha e h (by rw [hr]), rfl, hp⟩

/-! ### The end of a reset (R260, R262, R263) -/

/-- A RESET or DESTROY of an ACTIVE VIF. -/
theorem Block.vifEnd_active {b : Block} {v : Nat} (st : VifState) (h : (b.vifOf v).state = .active) :
    b.vifEnd v st = { (b.vifPurge v st) with vm := { (b.vifPurge v st).vm with busy := true, vif := BitVec.ofNat 12 v } } := by
  unfold Block.vifEnd
  rw [h]

/-- Where no port holds a dirty-log write that passes, none is taken. -/
theorem Block.logsTaken_of_none {b : Block} {p : MemWrite → Bool}
    (h : ∀ q ∈ b.wr.cells, ∀ m ∈ q.2.out, (m.isLog && p m) = false) : b.logsTaken p = b := by
  have hwr : (b.wr.mapVals fun _ w => { w with out := w.out.filter fun m => !(m.isLog && p m) }) = b.wr :=
    Map.mapVals_of_fixed fun q hq => by
      have hout : q.2.out.filter (fun m => !(m.isLog && p m)) = q.2.out :=
        List.filter_eq_self.mpr fun m hm => by rw [h q hq m hm]; rfl
      rw [hout]
  unfold Block.logsTaken
  rw [hwr]

theorem Block.logsTaken_of_no_log {b : Block} (p : MemWrite → Bool) (h : ∀ q ∈ b.wr.cells, ∀ m ∈ q.2.out, m.isLog = false) :
    b.logsTaken p = b := Block.logsTaken_of_none fun q hq m hm => by rw [h q hq m hm]; rfl

theorem effPurgeEnd_of_ended {b : Block} (hbusy : b.vm.busy = true) (hp : (b.vifOf b.vm.vif.toNat).purging = true)
    (hdue : ∀ c ∈ (b.vifOf b.vm.vif.toNat).due, b.ctxBusy c = false) :
    effPurgeEnd b = (b.setVif b.vm.vif.toNat { b.vifOf b.vm.vif.toNat with purging := false, due := [] }).vmEnd b.vm.vif.toNat vmOk := by
  have hany : (b.vifOf b.vm.vif.toNat).due.any b.ctxBusy = false := by
    simpa [List.any_eq_false] using hdue
  unfold effPurgeEnd
  rw [if_neg (by simp [hbusy, hp, hany])]

section Quiescence

variable {b : Block} {v : VifNo} (hp : (b.vifOf v.toNat).purging = false) (hold : b.oldOps v.toNat = 0)
  (hlogs : ∀ q ∈ b.wr.cells, ∀ m ∈ q.2.out, m.isLog = false)
include hp hold hlogs

theorem effQuiescence_resetting (hst : (b.vifOf v.toNat).state = .resetting) :
    effQuiescence b v = ((((b.vifOf v.toNat).marked.foldl Block.resetMarked b).setVif v.toNat
      { b.vifOf v.toNat with done := true, marked := [], state := .active }).vifCause v.toNat 1).flag pgVMGR 3 := by
  unfold effQuiescence
  dsimp only
  rw [Block.logsTaken_of_no_log _ hlogs, if_neg (by simp [hst, hp, hold]), if_neg (by simp [hst]), if_pos (by simp [hst])]

theorem effQuiescence_releasing (hst : (b.vifOf v.toNat).state = .releasing) :
    effQuiescence b v = (((((b.vifOf v.toNat).marked.foldl Block.resetMarked b).setVif v.toNat
      { b.vifOf v.toNat with done := true, marked := [] }).vifCause v.toNat 1).flag pgVMGR 3).setVif v.toNat
      { gen := (b.vifOf v.toNat).gen, ciErr := (b.vifOf v.toNat).ciErr } := by
  unfold effQuiescence
  dsimp only
  rw [Block.logsTaken_of_no_log _ hlogs, if_neg (by simp [hst, hp, hold]), if_pos (by simp [hst]), if_neg (by simp [hst])]

end Quiescence

/-- Settles O37: a purge takes out what it names, and what goes on in it besides admits nothing (`Block.AdmitsNone`); its end and the
quiescence are their effects with the guards passed. -/
theorem vifPurgeAndQuiescence : Obligations.VifPurgeAndQuiescence := by
  refine ⟨?_, ?_, ?_⟩
  · intro s w i op st ha hi h hidle v hst
    have hcmd : exec i s = .next { s with blk := s.blk.regCmd pgVMGR 0x050 (withOp w 0xF op) } ∧
        (s.blk.relock pgVMGR).vmgrCmd (fld op 3 0).toNat = (s.blk.relock pgVMGR).vifEnd v st := by
      rcases hi with ⟨rfl, rfl, rfl⟩ | ⟨rfl, rfl, rfl⟩
      · exact ⟨rfl, Block.vmgrCmd_reset (b := s.blk.relock pgVMGR) hidle⟩
      · exact ⟨rfl, Block.vmgrCmd_destroy (b := s.blk.relock pgVMGR) hidle⟩
    obtain ⟨hexec, hcode⟩ := hcmd
    refine .of_vmgrCmd ha hexec h (hcode.trans (Block.vifEnd_active (b := s.blk.relock pgVMGR) st hst)) ?_
    have hpurge := (s.blk.relock pgVMGR).vifPurge_purging v st
    generalize (s.blk.relock pgVMGR).vifPurge v st = b at hpurge ⊢
    exact ⟨hpurge.state, hpurge.gen, hpurge.done, hpurge.purging, rfl, rfl, hpurge.gone, fun k => hpurge.noneWaits k⟩
  · intro s hbusy v x hp hdue
    exact .of_effect rfl (effPurgeEnd_of_ended hbusy hp hdue)
  · intro s v n x hp hold hlogs b
    exact ⟨fun hst => .of_effect rfl (effQuiescence_resetting hp hold hlogs hst),
      fun hst => .of_effect rfl (effQuiescence_releasing hp hold hlogs hst)⟩

end Sys2Proof.Machine

namespace Sys2Proof.Machine

/-! ### Drains (R265) -/

theorem Block.flush_ring_pi (b : Block) (r q : RingNo) (prio : Prio) : ((b.flush r prio).ringOf q).pi = (b.ringOf q).pi := by
  have hring : (b.flush r prio).ring =
      b.ring.set {} r.toNat { b.ringOf r with tgtPend := true, tgtDelta := ((b.ringOf r).pi - (b.ringOf r).pub).setWidth 21, tgtGt := b.gt } := by
    unfold Block.flush
    dsimp only
    split <;> rfl
  simp only [Block.ringOf, hring, Map.get_set]
  split
  · next h => rw [h]
  · rfl

theorem Block.closeWindow_ring_pi (b : Block) (r q : RingNo) (why : Nat) : ((b.closeWindow r why).ringOf q).pi = (b.ringOf q).pi := by
  unfold Block.closeWindow
  split
  · rfl
  · exact Block.flush_ring_pi _ r q _

theorem Block.foldl_closeWindow_ring_pi (l : List RingNo) (why : Nat) (b : Block) (q : RingNo) :
    ((l.foldl (fun b r => b.closeWindow r why) b).ringOf q).pi = (b.ringOf q).pi := by
  induction l generalizing b with
  | nil => rfl
  | cons r l ih => exact (ih _).trans (Block.closeWindow_ring_pi b r q why)

/-- A ring that closes has no window, and one without a window gets none. -/
theorem Block.closeWindow_window_none (b : Block) {r q : RingNo} (why : Nat) (h : q = r ∨ b.car.windows.find? q.toNat = none) :
    (b.closeWindow r why).car.windows.find? q.toNat = none := by
  rw [Block.closeWindow_windows]
  by_cases hq : q.toNat = r.toNat
  · rw [hq, Map.find?_erase_self]
  · rw [Map.find?_erase_ne _ hq]
    exact h.resolve_left fun e => hq (congrArg BitVec.toNat e)

theorem Block.foldl_closeWindow_window_none (l : List RingNo) (why : Nat) (b : Block) {q : RingNo}
    (h : q ∈ l ∨ b.car.windows.find? q.toNat = none) :
    (l.foldl (fun b r => b.closeWindow r why) b).car.windows.find? q.toNat = none := by
  induction l generalizing b with
  | nil => exact h.resolve_left (List.not_mem_nil)
  | cons r l ih =>
    refine ih _ ?_
    rcases h with h | h
    · exact (List.mem_cons.mp h).elim (fun e => .inr (b.closeWindow_window_none why (.inl e))) .inl
    · exact .inr (b.closeWindow_window_none why (.inr h))

/-- The rings of a VIF with an open window, which a drain waits for. -/
def Block.openRings (b : Block) (v : Nat) : List RingNo := (b.ringsOf v).filter fun r => (b.car.windows.find? r.toNat).isSome

/-- What DRAIN leaves of the VIF and of the windows of its rings. -/
theorem Block.startDrain_vif (b : Block) (v : Nat) :
    ((b.startDrain v).vifOf v).draining = true ∧
      ((b.startDrain v).vifOf v).drainRings = (b.openRings v).map fun r => (r, (b.ringOf r).pi) := by
  unfold Block.startDrain
  extract_lets o rs b1 b2
  have hb1 : b1.ring = b.ring := rfl
  have hb2 (r : RingNo) : (b2.ringOf r).pi = (b.ringOf r).pi := Block.foldl_closeWindow_ring_pi rs flushExp b1 r
  rw [Block.vifOf_setVif]
  exact ⟨rfl, List.map_congr_left fun r _ => congrArg (Prod.mk r) (hb2 r)⟩

theorem Block.startDrain_windows (b : Block) (v : Nat) {r : RingNo} (hr : r ∈ b.ringsOf v) :
    (b.startDrain v).car.windows.find? r.toNat = none := by
  unfold Block.startDrain
  refine Block.foldl_closeWindow_window_none _ flushExp _ ?_
  cases hw : b.car.windows.find? r.toNat with
  | none => exact .inr hw
  | some w => exact .inl (List.mem_filter.mpr ⟨hr, by rw [hw]; rfl⟩)

theorem effDrained_of_ended {b : Block} {v : VifNo} (hlogs : ∀ q ∈ b.wr.cells, ∀ m ∈ q.2.out, m.isLog = false)
    (hdr : (b.vifOf v.toNat).draining = true)
    (hops : b.countOps (fun t => t.owner == ownerCode v.toNat && t.drain) (fun _ => false) = 0) (hwaits : b.drainWaits v.toNat = false)
    (hlog : b.logWaits (fun _ t => t.owner == ownerCode v.toNat && t.drain) = false)
    (hrings : (b.vifOf v.toNat).drainRings.all b.drainDone = true) :
    effDrained b v = (b.setVif v.toNat { b.vifOf v.toNat with draining := false, drainRings := [] }).vifCause v.toNat 2 := by
  unfold effDrained
  dsimp only
  rw [Block.logsTaken_of_no_log _ hlogs, if_neg (by simp [hdr, hops, hwaits, hlog, hrings])]

/-! ### Harvests (R270) -/

/-- What is kept of a numbered collection of lists passes. -/
theorem keepIn_mem {α : Type} [DecidableEq α] {m : Map (List α)} {p : α → Bool} {c : Nat × List α} {x : α}
    (hc : c ∈ (keepIn m p).cells) (hx : x ∈ c.2) : p x = true := by
  obtain ⟨d, -, rfl⟩ := List.mem_map.mp (List.mem_of_mem_filter hc)
  exact (List.mem_filter.mp hx).2

theorem effSnap_of_ended {b : Block} {ch : BitVec 6} {v : Nat} (hv : (b.dlCh ch.toNat).vif.toNat = v)
    (hlogs : ∀ q ∈ b.wr.cells, ∀ m ∈ q.2.out, m.isLog = false) (hh : (b.dlCh ch.toNat).harvest = true)
    (hout : ∀ q ∈ b.wr.cells, ∀ m ∈ q.2.out, (m.tag.owner == ownerCode v && m.tag.harv) = false)
    (hidx : ∀ q ∈ b.idxFly.cells, (q.2.tag.owner == ownerCode v && q.2.tag.harv) = false)
    (hlog : b.logWaits (fun _ t => t.owner == ownerCode v && t.harv) = false) :
    effSnap b ch = (b.setDlCh ch.toNat { b.dlCh ch.toNat with harvest := false }).vifCause v 3 := by
  subst hv
  have hany : (b.wr.cells.any fun w => w.2.out.any fun m => m.tag.owner == ownerCode (b.dlCh ch.toNat).vif.toNat && m.tag.harv) = false :=
    List.any_eq_false.mpr fun q hq => by simpa using fun m hm => by simpa using hout q hq m hm
  have hfly : (b.idxFly.cells.any fun q => q.2.tag.owner == ownerCode (b.dlCh ch.toNat).vif.toNat && q.2.tag.harv) = false :=
    List.any_eq_false.mpr fun q hq => by rw [hidx q hq]; exact Bool.false_ne_true
  unfold effSnap
  dsimp only
  rw [Block.logsTaken_of_no_log _ hlogs, hany, hfly, hlog, if_neg (by simp [hh])]

/-! ### Dirty-log channels (R268, R271) -/

theorem effDlChannelFree_of_ended {b : Block} {ch : BitVec 6} (hstop : (b.dlCh ch.toNat).stopping = true)
    (hlog : b.logWaits (fun c _ => c == ch) = false) (hout : ∀ q ∈ b.wr.cells, ∀ m ∈ q.2.out, m.kind ≠ .log ch) :
    effDlChannelFree b ch = b.setDlCh ch.toNat { b.dlCh ch.toNat with stopping := false, inUse := false } := by
  unfold effDlChannelFree
  dsimp only
  rw [if_neg (by simp [hstop, hlog]), Block.logsTaken_of_none fun q hq m hm => by simp [hout q hq m hm]]

/-- The channel as DIRTY_START takes it: configured by its registers, its indexes 0. -/
def DlCh.started (d : DlCh) (v : Nat) : DlCh :=
  { d with
    inUse := true, vif := BitVec.ofNat 12 v, seg := fld d.cfg 5 0, order := fld d.cfg 12 8, thresh := fld d.threshReg 20 0,
    base := (fld d.baseHi 15 0) ++ (fld d.baseLo 31 12) ++ (0 : BitVec 12), pi := 0, ci := 0, snap := 0, ovf := false,
    harvest := false, stopping := false }

theorem Block.dirtyStart_ok {b : Block} {v : Nat} {a0 : Word} (hst : (b.vifOf v).state = .active) (hlog : (b.vifOf v).dlEn = false)
    (hfree : (b.dlCh (fld a0 5 0).toNat).inUse = false) :
    b.dirtyStart v a0 =
      ((({ b with vm := { b.vm with filter := keepIn b.vm.filter fun k => k.1 != BitVec.ofNat 12 v } } : Block).setDlCh (fld a0 5 0).toNat
        ((b.dlCh (fld a0 5 0).toNat).started v)).setVif v { b.vifOf v with dlEn := true, dlCh := fld a0 5 0 }).vmEnd v vmOk := by
  unfold Block.dirtyStart
  rw [if_neg (by simp [hst]), if_neg (by simp [hlog]), if_neg (by simp [hfree])]
  rfl

theorem Block.stopLog_logging {b : Block} {v : Nat} (h : (b.vifOf v).dlEn = true) :
    b.stopLog v = (b.setVif v { b.vifOf v with dlEn := false }).setDlCh (b.vifOf v).dlCh.toNat
      { b.dlCh (b.vifOf v).dlCh.toNat with stopping := true } := by
  unfold Block.stopLog
  dsimp only
  rw [if_neg (by simp [h])]

theorem Block.writeDlCi_within {b : Block} {ch : Nat} {x : Word} (h : (x - (b.dlCh ch).ci).toNat ≤ ((b.dlCh ch).pi - (b.dlCh ch).ci).toNat) :
    b.writeDlCi ch x = b.setDlCh ch { b.dlCh ch with ci := x } := if_neg (Nat.not_lt.mpr h)

theorem Block.writeDlCi_beyond {b : Block} {ch : Nat} {x : Word} (h : ((b.dlCh ch).pi - (b.dlCh ch).ci).toNat < (x - (b.dlCh ch).ci).toNat) :
    b.writeDlCi ch x = b.flag pgVMGR 6 := if_pos h

theorem Block.writeDlCi_queue (b : Block) (ch : Nat) (x : Word) : (b.writeDlCi ch x).fab.q = b.fab.q :=
  Block.ite_queue (Block.flag_queue _ _ _) rfl

/-- A write of VMGR_DL_CI that meets no obstacle. -/
theorem Puts.of_writes_dlCi {s : State} {i : Instr} {w : RegAcc} {r : Block}
    (e : exec i s = .next { s with blk := s.blk.regCmd pgVMGR 0x098 w }) (h : s.blk.writes pgVMGR 0x098 w = true)
    (hr : ((s.blk.relock pgVMGR).writeDlCi (s.blk.regFld pgVMGR 0x080 5 0).toNat (s.blk.stval pgVMGR 0x098 w)).answer false 0 = r) :
    Puts s i r := by
  refine .of_writes pgClass_vmgr rfl e (by decide) (by decide) h (fun b => Block.writeDlCi_queue b _ _) ?_
  have hval : (s.blk.relock pgVMGR).wval pgVMGR 0x098 w = s.blk.wval pgVMGR 0x098 w := rfl
  rw [Block.opened_vmgr, hval]
  exact hr

/-- What holds of the block after a command that ends with OK: of VIFs and windows what its effect left, of the page's state the
same but for the result. -/
theorem Gives.of_vmEnd {s : State} {i : Instr} {w : RegAcc} {op : Word} {b : Block} {v : Nat} {p : Block → Prop} (ha : w.als = .base)
    (e : exec i s = .next { s with blk := s.blk.regCmd pgVMGR 0x050 (withOp w 0xF op) })
    (h : s.blk.writes pgVMGR 0x050 (withOp w 0xF op) = true)
    (hr : (s.blk.relock pgVMGR).vmgrCmd (fld op 3 0).toNat = b.vmEnd v vmOk)
    (hp : ∀ c : Block, c.vif = b.vif → c.car = b.car →
      c.vm = { b.vm with busy := false, result := vmOk, vif := BitVec.ofNat 12 v } → p c) : Gives s i p :=
  .of_vmgrCmd ha e h hr (hp _ (b.vmEnd_vif v vmOk) (b.vmEnd_car v vmOk) (b.vmEnd_vm v vmOk))

/-- Settles O38: each command is the equation of its code at the block whose page is locked again, each end its effect with the
guards passed. -/
theorem drainsAndHarvests : Obligations.DrainsAndHarvests := by
  refine ⟨⟨?_, ?_, ?_⟩, ?_, ?_, ?_⟩
  · intro s w ha hidle v x hst
    refine ⟨fun h hdr => ?_, fun h hlog hfree => ?_⟩
    · intro rs
      refine .of_vmEnd ha rfl h (Block.vmgrCmd_drain (b := s.blk.relock pgVMGR) hidle hst hdr) fun c hvif hcar hvm => ?_
      obtain ⟨hdraining, hrings⟩ := (s.blk.relock pgVMGR).startDrain_vif v
      have hc : c.vifOf v = ((s.blk.relock pgVMGR).startDrain v).vifOf v := by rw [Block.vifOf, hvif]; rfl
      refine ⟨by rw [hc, hdraining], by rw [hc, hrings]; rfl, fun r hr => ?_, by rw [hvm]; rfl, by rw [hvm]⟩
      rw [hcar]
      exact (s.blk.relock pgVMGR).startDrain_windows v hr
    · intro d
      refine .of_vmEnd ha rfl h (Block.vmgrCmd_harvest (b := s.blk.relock pgVMGR) hidle hst hlog hfree) fun c hvif hcar hvm => ?_
      refine ⟨?_, ?_, fun p hp k hk => ?_, by rw [hvm]; rfl, by rw [hvm]⟩
      · rw [Block.dlCh, hvm]
        exact Block.dlCh_setDlCh s.blk x.dlCh.toNat _
      · rw [Block.vifOf, hvif]
        rfl
      · rw [hvm] at hp
        exact bne_iff_ne.mp (keepIn_mem (p := fun k => k.1 != BitVec.ofNat 12 v) hp hk)
  · intro s v hlogs n x mine hdr hops hwaits hlog hrings
    exact .of_effect rfl (effDrained_of_ended hlogs hdr hops hwaits hlog hrings)
  · intro s ch hlogs d mine hh hout hidx hlog
    exact .of_effect rfl (effSnap_of_ended rfl hlogs hh hout hidx hlog)
  · intro s w ha hidle v x hst
    refine ⟨fun h hlog => ?_, fun h hlog => ?_⟩
    · intro ch d hfree
      refine .of_vmEnd ha rfl h ((Block.vmgrCmd_dirtyStart (b := s.blk.relock pgVMGR) hidle).trans
        (Block.dirtyStart_ok (b := s.blk.relock pgVMGR) hst hlog hfree)) fun c hvif hcar hvm => ?_
      refine ⟨?_, ?_, by rw [hvm]; rfl, by rw [hvm]⟩
      · rw [Block.dlCh, hvm]
        exact Block.dlCh_setDlCh s.blk ch.toNat _
      · rw [Block.vifOf, hvif]
        exact Block.vifOf_setVif s.blk v _
    · intro b
      refine .of_vmEnd ha rfl h ((Block.vmgrCmd_dirtyStop (b := s.blk.relock pgVMGR) hidle hst hlog).trans
        (congrArg (·.vmEnd v vmOk) (Block.stopLog_logging (b := s.blk.relock pgVMGR) hlog))) ?_
      simp only [b, Block.wrote_vmgr]
      rfl
  · intro s ch hstop hlog hout
    exact .of_effect rfl (effDlChannelFree_of_ended hstop hlog hout)
  · intro s w h ch d b x
    refine ⟨fun hle => .of_writes_dlCi rfl h ?_, fun hlt => .of_writes_dlCi rfl h ?_⟩
    · rw [Block.writeDlCi_within (b := s.blk.relock pgVMGR) hle]
      simp only [b, Block.wrote_vmgr]
      rfl
    · rw [Block.writeDlCi_beyond (b := s.blk.relock pgVMGR) hlt, ← Block.flag_answer]
      simp only [b, Block.wrote_vmgr]

end Sys2Proof.Machine

namespace Sys2Proof.Machine

/-! ### Accesses to the VIF pages (Table 12-2) -/

theorem laneWord_vifAccess (v : VifNo) (off : Nat) (d : Word) : laneWord (4096 * v.toNat + off) (inLane off d) = d := by
  have hlane : (4096 * v.toNat + off) % 8 = off % 8 := by omega
  have hoff8 : regAddr 0 off .base % 8 = off % 8 := by
    unfold regAddr aliasNum
    omega
  have hword := laneWord_regAccess (pg := 0) (off := off) .base 0 d
  simp only [laneWord, hoff8] at hword
  simp only [laneWord, hlane]
  exact hword

section VifAccess

variable {b : Block} {v : VifNo} {off : Nat} {id : BitVec 5} {d : Word} (hoff : off < 0x1000)
include hoff

theorem vifAccess_addr : (vifAccess v off id d).addr.toNat = 4096 * v.toNat + off := by
  have := v.isLt
  simp only [vifAccess, BitVec.toNat_ofNat]
  omega

theorem vifAccess_page : (4096 * v.toNat + off) / 4096 % 4096 = v.toNat := by
  have := v.isLt
  omega

theorem Block.openPart_vifAccess :
    b.openPart (vifAccess v off id d) true (4096 * v.toNat + off) = (b.vifPageWrite v.toNat off d, false, 0) := by
  have hmod : (4096 * v.toNat + off) % 4096 = off := by omega
  have hpart : b.openPart (vifAccess v off id d) true (4096 * v.toNat + off) =
      (b.vifPageWrite ((4096 * v.toNat + off) / 4096 % 4096) ((4096 * v.toNat + off) % 4096)
        (laneWord (4096 * v.toNat + off) (inLane off d)), false, 0) := rfl
  rw [hpart, vifAccess_page hoff, hmod, laneWord_vifAccess]

theorem Block.denyPart_vifAccess :
    b.denyPart (vifAccess v off id d) true (4096 * v.toNat + off) = b.tsLog 1 id true (0x1000 + v.toNat) (off / 4) := by
  have hmod : (4096 * v.toNat + off) % 4096 = off := by omega
  have hpart : b.denyPart (vifAccess v off id d) true (4096 * v.toNat + off) =
      b.tsLog 1 id true (0x1000 + (4096 * v.toNat + off) / 4096 % 4096) ((4096 * v.toNat + off) % 4096 / 4) := rfl
  rw [hpart, vifAccess_page hoff, hmod]

theorem Block.admitsPart_vifAccess :
    b.admitsPart (vifAccess v off id d) true (4096 * v.toNat + off) = b.admits true id (0x1000 + v.toNat) (off / 4) true := by
  have hmod : (4096 * v.toNat + off) % 4096 = off := by omega
  have hpart : b.admitsPart (vifAccess v off id d) true (4096 * v.toNat + off) =
      b.admits true id (0x1000 + (4096 * v.toNat + off) / 4096 % 4096) ((4096 * v.toNat + off) % 4096 / 4) true := rfl
  rw [hpart, vifAccess_page hoff, hmod]

theorem Block.partAsk_vifAccess : b.partAsk (vifAccess v off id d) true (4096 * v.toNat + off) = b.vifAsk v.toNat off := by
  have hmod : (4096 * v.toNat + off) % 4096 = off := by omega
  have hpart : b.partAsk (vifAccess v off id d) true (4096 * v.toNat + off) =
      b.vifAsk ((4096 * v.toNat + off) / 4096 % 4096) ((4096 * v.toNat + off) % 4096) := rfl
  rw [hpart, vifAccess_page hoff, hmod]

variable (h4 : off % 4 = 0)
include h4

theorem badAccess_vifAccess : badAccess (vifAccess v off id d) true = none := by
  have halign : misaligned (vifAccess v off id d).addr.toNat (vifAccess v off id d).size.toNat = false := by
    have hsize : (vifAccess v off id d).size.toNat = 2 := rfl
    rw [misaligned, vifAccess_addr hoff, hsize]
    simp
    omega
  simp only [badAccess, halign]
  rfl

theorem Block.nextPart_vifAccess : b.nextPart (vifAccess v off id d) = 4096 * v.toNat + off := by
  have hsize : ¬ (vifAccess v off id d).size.toNat = 3 := by simp [vifAccess]
  rw [Block.nextPart, if_neg hsize, vifAccess_addr hoff]
  omega

end VifAccess

/-! ### A write of a VIF page at a free port (R267, R326) -/

/-- A 32-bit write part of an access that stands alone at the port is performed and answered. -/
theorem Block.doPart_arrived {b : Block} (hfree : b.portFree = true) {a : Access} (ha : a.size = 2) (x : Nat)
    {f : Block → Block × Bool × Word} {r : Block} {err : Bool} (hf : f b = (r, err, 0)) :
    (b.arrived a).doPart a true x f = b.oneSeq (r.answer err 0) := by
  obtain ⟨-, -, hdone⟩ := Block.portFree_iff.mp hfree
  have hdone' : (b.arrived a).fab.done = none := hdone
  unfold Block.doPart
  simp only [Block.popHead_arrived hfree, hf, hdone', ha]
  simp [Block.answer]
  rfl

theorem Block.access_vifAccess {b : Block} (hfree : b.portFree = true) (v : VifNo) (off : Nat) (id : BitVec 5) (d : Word) :
    b.access (vifAccess v off id d) true = (b.arrived (vifAccess v off id d)).servePort 4 := by
  obtain ⟨hq, -, -⟩ := Block.portFree_iff.mp hfree
  simp [Block.access, vifAccess, Block.runPort, Block.arrived, hq]

theorem Block.oneSeq_answer_queue (b c : Block) (err : Bool) (x : BitVec 64) : (b.oneSeq (c.answer err x)).fab.q = c.fab.q := rfl

section VifWrite

variable {b : Block} {v : VifNo} {off : Nat} {id : BitVec 5} {d : Word} (hoff : off < 0x1000)
include hoff

/-- A part that waits for nothing, or has the grant that it waited for, is performed and answered. -/
theorem Block.tryPart_vifAccess (hfree : b.portFree = true) {q : PortAsk} (hask : b.vifAsk v.toNat off = .none ∨ b.vifAsk v.toNat off = q) :
    (b.arrived (vifAccess v off id d)).tryPart (vifAccess v off id d) true (4096 * v.toNat + off) q =
      b.oneSeq ((b.vifPageWrite v.toNat off d).answer false 0) := by
  have hpart : (b.arrived (vifAccess v off id d)).partAsk (vifAccess v off id d) true (4096 * v.toNat + off) = b.vifAsk v.toNat off := by
    rw [Block.partAsk_vifAccess hoff]
    rfl
  unfold Block.tryPart
  simp only [hpart]
  rw [if_pos (by simpa using hask)]
  exact Block.doPart_arrived hfree rfl _ (Block.openPart_vifAccess hoff)

variable (h4 : off % 4 = 0)
include h4

/-- A step of the port that serves a write of a VIF page: the write is checked, or gets the grant that it asked for, or waits. -/
theorem Block.portStep_vifAccess (hq : b.fab.q = [(vifAccess v off id d, true)]) (hmode : b.portMode = .serve) :
    b.portStep =
      if b.fab.ask = .none then
        some (if b.admits true id (0x1000 + v.toNat) (off / 4) true then
            b.tryPart (vifAccess v off id d) true (4096 * v.toNat + off) .none
          else b.doPart (vifAccess v off id d) true (4096 * v.toNat + off) fun b =>
            (b.denyPart (vifAccess v off id d) true (4096 * v.toNat + off), true, 0))
      else if b.askPicked then some (b.takeGrant.tryPart (vifAccess v off id d) true (4096 * v.toNat + off) b.fab.ask)
      else none := by
  have hserve : b.modeOf (vifAccess v off id d) = .serve := by simp [Block.modeOf, hmode, vifAccess]
  unfold Block.portStep
  simp only [hq, hserve, Block.nextPart_vifAccess hoff h4, badAccess_vifAccess hoff h4, Block.admitsPart_vifAccess hoff]

variable (hfree : b.portFree = true) (hmode : b.portMode = .serve)
include hfree hmode

/-- A write that the Turnstile refuses is logged and answered with an error (R338). -/
theorem Block.access_vif_refused (hadm : b.admits true id (0x1000 + v.toNat) (off / 4) true = false) :
    b.access (vifAccess v off id d) true = b.oneSeq ((b.tsLog 1 id true (0x1000 + v.toNat) (off / 4)).answer true 0) := by
  obtain ⟨hq, hask, -⟩ := Block.portFree_iff.mp hfree
  have hstep := Block.portStep_vifAccess (b := b.arrived (vifAccess v off id d)) hoff h4 rfl hmode
  have hadm' : (b.arrived (vifAccess v off id d)).admits true id (0x1000 + v.toNat) (off / 4) true = false := hadm
  rw [if_pos (show (b.arrived (vifAccess v off id d)).fab.ask = .none from hask), hadm', if_neg Bool.false_ne_true,
    Block.doPart_arrived hfree rfl _ (by rw [Block.denyPart_vifAccess hoff])] at hstep
  rw [Block.access_vifAccess hfree, Block.servePort, hstep]
  refine Block.servePort_of_empty ?_ 3
  rw [Block.oneSeq_answer_queue, Block.tsLog, Block.flag_queue]
  exact hq

variable (hadm : b.admits true id (0x1000 + v.toNat) (off / 4) true = true)
include hadm

/-- A write that waits for nothing is performed and answered. -/
theorem Block.access_vif_now (hask : b.vifAsk v.toNat off = .none) (hempty : (b.vifPageWrite v.toNat off d).fab.q = b.fab.q) :
    b.access (vifAccess v off id d) true = b.oneSeq ((b.vifPageWrite v.toNat off d).answer false 0) := by
  obtain ⟨hq, hnone, -⟩ := Block.portFree_iff.mp hfree
  have hstep := Block.portStep_vifAccess (b := b.arrived (vifAccess v off id d)) hoff h4 rfl hmode
  have hadm' : (b.arrived (vifAccess v off id d)).admits true id (0x1000 + v.toNat) (off / 4) true = true := hadm
  rw [if_pos (show (b.arrived (vifAccess v off id d)).fab.ask = .none from hnone), hadm', if_pos rfl,
    Block.tryPart_vifAccess hoff hfree (.inl hask)] at hstep
  rw [Block.access_vifAccess hfree, Block.servePort, hstep]
  refine Block.servePort_of_empty ?_ 3
  rw [Block.oneSeq_answer_queue, hempty, hq]

/-- A write that needs the descriptor port of a ring, whose arbiter picks it, is performed with its grant and answered. -/
theorem Block.access_vif_ring {r : RingNo} (hwant : b.vifAsk v.toNat off = .ring r) (hpick : (b.putAsk (.ring r)).askPicked = true)
    (hempty : ((b.turn (.ring r)).vifPageWrite v.toNat off d).fab.q = b.fab.q) :
    b.access (vifAccess v off id d) true = b.oneSeq (((b.turn (.ring r)).vifPageWrite v.toNat off d).answer false 0) := by
  have hhere := Block.ringHere_of_picked hpick
  have hturn := Block.turn_ring_of_picked hpick
  obtain ⟨hq, hnone, hdone⟩ := Block.portFree_iff.mp hfree
  have hasks : (b.arrived (vifAccess v off id d)).tryPart (vifAccess v off id d) true (4096 * v.toNat + off) .none =
      (b.asks (.ring r)).arrived (vifAccess v off id d) := by
    have hpart : (b.arrived (vifAccess v off id d)).partAsk (vifAccess v off id d) true (4096 * v.toNat + off) = .ring r := by
      rw [Block.partAsk_vifAccess hoff, ← hwant]
      rfl
    simp only [Block.tryPart, hpart, reduceCtorEq, decide_false, Bool.or_self, Bool.false_eq_true, if_false]
    exact Block.putAsk_ring_of_here (b := b.arrived _) hhere
  have htry := Block.tryPart_vifAccess (b := b.turn (.ring r)) (q := .ring r) (id := id) (d := d) hoff
    (by rw [hturn]; exact Block.portFree_iff.mpr ⟨hq, rfl, hdone⟩) (.inr (by rw [hturn]; exact hwant))
  have hone (c : Block) : (b.turn (.ring r)).oneSeq c = b.oneSeq c := by
    rw [hturn]
    rfl
  have hpicked : ((b.asks (.ring r)).arrived (vifAccess v off id d)).askPicked = true := by
    rw [← hpick, Block.putAsk_ring_of_here hhere]
    rfl
  have hgrant : ((b.asks (.ring r)).arrived (vifAccess v off id d)).takeGrant = (b.turn (.ring r)).arrived (vifAccess v off id d) := by
    rw [hturn]
    rfl
  have hadm' : (b.arrived (vifAccess v off id d)).admits true id (0x1000 + v.toNat) (off / 4) true = true := hadm
  have hstep := Block.portStep_vifAccess (b := b.arrived (vifAccess v off id d)) hoff h4 rfl hmode
  rw [if_pos (show (b.arrived (vifAccess v off id d)).fab.ask = .none from hnone), hadm', if_pos rfl, hasks] at hstep
  have hgo := Block.portStep_vifAccess (b := (b.asks (.ring r)).arrived (vifAccess v off id d)) hoff h4 rfl hmode
  rw [if_neg (by simp [Block.arrived, Block.asks]), if_pos hpicked, hgrant] at hgo
  rw [hone] at htry
  rw [Block.access_vifAccess hfree, Block.servePort, hstep]
  dsimp only
  rw [Block.servePort, hgo]
  dsimp only
  refine (congrArg (·.servePort 2) htry).trans (Block.servePort_of_empty ?_ 2)
  rw [Block.oneSeq_answer_queue, hempty, hq]

end VifWrite

/-! ### What a VIF page's registers do (R266, R267) -/

theorem Block.vifPageWrite_inactive {b : Block} {n : Nat} (h : (b.vifOf n).state ≠ .active) (off : Nat) (d : Word) :
    b.vifPageWrite n off d = b := by
  rw [Block.vifPageWrite, if_pos (bne_iff_ne.mpr h)]

theorem Block.vifPageWrite_hvdb {b : Block} {n : Nat} (h : (b.vifOf n).state = .active) (d : Word) :
    b.vifPageWrite n 0x00C d = b.hvdb n d := by
  simp [Block.vifPageWrite, h]

theorem Block.vifPageWrite_ci {b : Block} {n : Nat} (h : (b.vifOf n).state = .active) (j : Fin 16) (d : Word) :
    b.vifPageWrite n (0x100 + 16 * j) d = b.vifCi n j d := by
  have hslot : 0x100 ≤ 0x100 + 16 * j.val ∧ 0x100 + 16 * j.val < 0x200 ∧ (0x100 + 16 * j.val) % 16 = 0 := by omega
  have hj : (0x100 + 16 * j.val - 0x100) / 16 = j := by omega
  rw [Block.vifPageWrite, if_neg (by simp [h]), if_neg (by omega), if_pos hslot, hj]

/-- VIF_HVDB waits for no grant. -/
theorem Block.vifAsk_hvdb (b : Block) (n : Nat) : b.vifAsk n 0x00C = .none := by
  simp [Block.vifAsk]

/-- VIF_RING_CI of an owned slot waits for the descriptor port of the slot's ring. -/
theorem Block.vifAsk_ci {b : Block} {n : Nat} {j : Fin 16} {r : RingNo} (h : (b.vifOf n).state = .active) (hr : b.slotRing n j = some r) :
    b.vifAsk n (0x100 + 16 * j) = .ring r := by
  have hslot : 0x100 ≤ 0x100 + 16 * j.val ∧ 0x100 + 16 * j.val < 0x200 ∧ (0x100 + 16 * j.val) % 16 = 0 := by omega
  have hj : (0x100 + 16 * j.val - 0x100) / 16 = j := by omega
  simp only [Block.vifAsk, h, hj, hr, hslot]
  rfl

theorem Block.hvdb_queue (b : Block) (n : Nat) (d : Word) : (b.hvdb n d).fab.q = b.fab.q :=
  ((Block.AdmitsNone.refl (b.setVif n { b.vifOf n with msg := fld d 15 0 })).vifCause n 0).queue

/-- A consumer index from CI to PUB is taken. -/
theorem Block.vifCi_within {b : Block} {n j : Nat} {r : RingNo} {d : Word} (hr : b.slotRing n j = some r)
    (hle : (d - (b.ringOf r).ci).toNat ≤ ((b.ringOf r).pub - (b.ringOf r).ci).toNat) :
    b.vifCi n j d = b.setRing r { b.ringOf r with ci := d } := by
  simp only [Block.vifCi, hr, Block.writeCi, if_neg (Nat.not_lt.mpr hle)]
  rfl

/-- Any other is counted for the block and for the VIF, and flagged. -/
theorem Block.vifCi_beyond {b : Block} {n j : Nat} {r : RingNo} {d : Word} (hr : b.slotRing n j = some r)
    (hlt : ((b.ringOf r).pub - (b.ringOf r).ci).toNat < (d - (b.ringOf r).ci).toNat) :
    b.vifCi n j d =
      ((b.cnt pgERW 0x08C).flag pgERW 3).setVif n { b.vifOf n with ciErr := satAdd (b.vifOf n).ciErr 1 } := by
  simp only [Block.vifCi, hr, Block.writeCi, if_pos hlt, if_true, Block.vifOf_flag, Block.vifOf_cnt]

/-- A write of VIF_RING_CI of an owned slot whose ring's port is free puts its effect on the block that has had the grant. -/
theorem Puts.vifRingCi {s : State} {v : VifNo} {j : Fin 16} {rid : BitVec 5} {d : Word} {r : RingNo} {c : Block} (hfree : s.blk.portFree = true)
    (hmode : s.blk.portMode = .serve) (hadm : s.blk.admits true rid (0x1000 + v.toNat) (0x40 + 4 * j) true = true)
    (hst : (s.blk.vifOf v.toNat).state = .active) (hr : s.blk.slotRing v.toNat j = some r) (hturn : s.blk.turnFree (.ring r) = true)
    (hci : (s.blk.turn (.ring r)).vifCi v.toNat j d = c) (hq : c.fab.q = s.blk.fab.q) :
    Puts s (.vifRingCi v j rid d) (c.answer false 0) := by
  have hpick : (s.blk.putAsk (.ring r)).askPicked = true := by simpa [Block.turnFree] using hturn
  have hst' : ((s.blk.turn (.ring r)).vifOf v.toNat).state = .active := by
    rw [Block.turn_ring_of_picked hpick]
    exact hst
  have hword : (0x100 + 16 * j.val) / 4 = 0x40 + 4 * j.val := by omega
  have hwrite : (s.blk.turn (.ring r)).vifPageWrite v.toNat (0x100 + 16 * j) d = c := by
    rw [Block.vifPageWrite_ci hst', hci]
  have hacc := Block.access_vif_ring (id := rid) (d := d) (off := 0x100 + 16 * j.val) (by omega) (by omega) hfree hmode
    (by rw [hword]; exact hadm) (Block.vifAsk_ci hst hr) hpick (by rw [hwrite, hq])
  rw [hwrite] at hacc
  exact .of_effect rfl hacc

/-- Settles O39: VIF_HVDB is served at once; VIF_RING_CI is served with the grant of its ring's descriptor port, which changes no
ring and no VIF. -/
theorem vifPagesAct : Obligations.VifPagesAct := by
  refine ⟨?_, ?_⟩
  · intro s v rid d hfree hmode n x
    refine ⟨fun hadm => ?_, fun hadm => ?_⟩
    · have hnow := Block.access_vif_now (off := 0x00C) (id := rid) (d := d) (by decide) (by decide) hfree hmode hadm (s.blk.vifAsk_hvdb n)
      refine ⟨fun hst => ?_, fun hst => ?_⟩
      · rw [Block.vifPageWrite_hvdb hst] at hnow
        exact .of_effect rfl (hnow (s.blk.hvdb_queue n d))
      · rw [Block.vifPageWrite_inactive hst] at hnow
        exact .of_effect rfl (hnow rfl)
    · exact .of_effect rfl (Block.access_vif_refused (off := 0x00C) (by decide) (by decide) hfree hmode hadm)
  · intro s v j rid d hfree hmode n x r g hadm hst hj hown hturn b
    have hr : s.blk.slotRing n j = some r := by
      rw [Block.slotRing, if_pos ⟨hj, hown⟩]
    have hb := Block.turn_ring_of_picked (b := s.blk) (r := r) (by simpa [Block.turnFree] using hturn)
    have hr' : b.slotRing n j = some r := by
      rw [← hr]
      simp only [b, hb]
      rfl
    have hring : b.ringOf r = g := by
      simp only [b, hb]
      rfl
    have hvif : b.vifOf n = x := by
      simp only [b, hb]
      rfl
    have hq : b.fab.q = s.blk.fab.q := by
      simp only [b, hb]
      rfl
    refine ⟨fun hle => .vifRingCi hfree hmode hadm hst hr hturn ?_ hq, fun hlt => .vifRingCi hfree hmode hadm hst hr hturn ?_ ?_⟩
    · rw [← hring] at hle ⊢
      exact Block.vifCi_within hr' hle
    · rw [← hring] at hlt
      rw [← hvif]
      exact Block.vifCi_beyond hr' hlt
    · exact (Block.flag_queue _ _ _).trans hq

end Sys2Proof.Machine

namespace Sys2Proof.Machine

/-! ### What a register write leaves of the units -/

/-- Two blocks differ in the register fabric and the Ringmaster only. -/
def Block.SameUnits (b b' : Block) : Prop := b' = { b with fab := b'.fab, rm := b'.rm }

theorem Block.SameUnits.trans {a b c : Block} (h : Block.SameUnits a b) (k : Block.SameUnits b c) : Block.SameUnits a c := by
  unfold Block.SameUnits at h k
  rw [k, h]
  rfl

theorem Block.SameUnits.notes {pgs : List Nat} {b b' : Block} (h : Block.Notes pgs b b') : Block.SameUnits b b' := by
  unfold Block.SameUnits
  rw [h.rest]

theorem Block.SameUnits.answer (b : Block) (err : Bool) (d : BitVec 64) : Block.SameUnits b (b.answer err d) := rfl
theorem Block.SameUnits.oneSeq (a b : Block) : Block.SameUnits b (a.oneSeq b) := rfl

/-! ### Entries leave the TLB (R283, R415) -/

/-- From one block to the other entries that no access had used have been counted, each in its engine's prefetch count or as lost. -/
structure Block.CountsUnused (b b' : Block) : Prop where
  notes : Block.Notes [pgPMU, pgRM] { b with eng := b'.eng } b'
  engine : ∀ n, b'.engine n = { b.engine n with prefetch := (b'.engine n).prefetch }

namespace Block.CountsUnused

theorem refl (b : Block) : CountsUnused b b := ⟨Block.Notes.refl _ _, fun _ => rfl⟩

theorem trans {a b c : Block} (h : CountsUnused a b) (k : CountsUnused b c) : CountsUnused a c where
  notes := Block.Notes.trans (h.notes.map (fun x => { x with eng := c.eng }) (fun _ _ _ _ _ => rfl) fun _ => ⟨rfl, rfl⟩) k.notes
  engine n := by rw [k.engine n, h.engine n]

theorem unusedPrefetch (b : Block) (e : TlbEnt) : CountsUnused b (b.unusedPrefetch e) := by
  unfold Block.unusedPrefetch
  split
  · dsimp only
    split
    · have hnotes : Block.Notes [pgPMU, pgRM] b ((b.cnt pgPMU 0x058).flag pgPMU 2) :=
        ((Block.cnt_notes b pgPMU 0x058 1 (by decide)).of (by simp)).trans (Block.flag_notes _ pgPMU 2)
      refine ⟨?_, fun n => ?_⟩
      · rw [Block.flag_eng, Block.cnt_eng]
        exact hnotes
      · simp
    · refine ⟨Block.Notes.refl _ _, fun n => ?_⟩
      by_cases hn : n = e.seg.toNat % 16
      · subst hn
        simp
      · simp [Block.engine, Block.setEngine, Map.get_set_ne _ _ _ _ hn]
  · exact refl b

theorem foldl (l : List TlbEnt) (b : Block) : CountsUnused b (l.foldl Block.unusedPrefetch b) := by
  induction l generalizing b with
  | nil => exact refl b
  | cons e l ih => exact (unusedPrefetch b e).trans (ih _)

variable {b b' : Block} (h : CountsUnused b b')
include h

theorem xl : b'.xl = b.xl := by rw [h.notes.rest]
theorem queue : b'.fab.q = b.fab.q := by rw [h.notes.rest]
theorem reg {off : Nat} (hoff : off < 4096) : b'.reg pgXU off = b.reg pgXU off := h.notes.reg pgXU off (by decide) hoff

end Block.CountsUnused

/-- The TLB without the entries that pass. -/
def tlbWithout (m : Map (List TlbEnt)) (p : TlbEnt → Bool) : Map (List TlbEnt) :=
  ⟨(m.cells.map fun c => (c.1, c.2.filter fun e => !p e)).filter fun c => !c.2.isEmpty⟩

/-- Entries leave the TLB: those that no access had used are counted. -/
theorem tlbRemove_counts (b : Block) (p : TlbEnt → Bool) : ∃ c : Block, Block.CountsUnused b c ∧
    tlbRemove b p = { c with xl := { b.xl with tlb := tlbWithout b.xl.tlb p } } := by
  have hc := Block.CountsUnused.foldl (b.xl.tlb.cells.flatMap fun c => c.2.filter p) b
  exact ⟨_, hc, congrArg (fun x : Xlate =>
    { (b.xl.tlb.cells.flatMap fun c => c.2.filter p).foldl Block.unusedPrefetch b with xl := { x with tlb := tlbWithout x.tlb p } })
    hc.xl⟩

/-! ### The start of an invalidation (R289) -/

/-- From one block to the other an invalidation of the TLB entries that pass has started, and segments may have changed. -/
structure Block.Removes (c b : Block) (p : TlbEnt → Bool) : Prop where
  tlb : b.xl.tlb = tlbWithout c.xl.tlb p
  busy : b.xl.inv.isSome = true
  walks : ∀ x ∈ b.xl.walkers.cells, x.2.noInstall = true
  rest : b = { c with xl := b.xl, eng := b.eng, fab := b.fab, rm := b.rm }
  xl : b.xl = { c.xl with tlb := b.xl.tlb, inv := b.xl.inv, walkers := b.xl.walkers, segs := b.xl.segs }
  engines : ∀ n, b.engine n = { c.engine n with prefetch := (b.engine n).prefetch }

/-- What the port's side changes on either end leaves the removal. -/
theorem Block.Removes.same_units {c c' b b' : Block} {p : TlbEnt → Bool} (h : Block.Removes c b p) (hc : Block.SameUnits c c')
    (hb : Block.SameUnits b b') : Block.Removes c' b' p := by
  rw [hc, hb]
  exact ⟨h.tlb, h.busy, h.walks, congrArg (fun x => { x with fab := b'.fab, rm := b'.rm }) h.rest, h.xl, h.engines⟩

theorem Block.Removes.setSegs {c b : Block} {p : TlbEnt → Bool} (h : Block.Removes c b p) (m : Map Segm) :
    Block.Removes c { b with xl := { b.xl with segs := m } } p :=
  ⟨h.tlb, h.busy, h.walks, congrArg (fun x => { x with xl := { b.xl with segs := m } }) h.rest,
    congrArg (fun x => { x with segs := m }) h.xl, h.engines⟩

/-- The walks in flight install nothing from then on. -/
theorem Block.xuStart_removes (b : Block) (p : TlbEnt → Bool) : Block.Removes b (tlbRemove b p).xuStart p := by
  obtain ⟨c, hc, htlb⟩ := tlbRemove_counts b p
  rw [htlb]
  refine ⟨rfl, rfl, fun x hx => ?_, ?_, rfl, hc.engine⟩
  · obtain ⟨y, -, rfl⟩ := List.mem_map.mp hx
    rfl
  · rw [hc.notes.rest]
    rfl

theorem Block.xuStart_reg (b : Block) (p : TlbEnt → Bool) {off : Nat} (hoff : off < 4096) :
    (tlbRemove b p).xuStart.reg pgXU off = b.reg pgXU off := by
  obtain ⟨c, hc, htlb⟩ := tlbRemove_counts b p
  rw [htlb]
  exact hc.reg hoff

theorem Block.xuStart_queue (b : Block) (p : TlbEnt → Bool) : (tlbRemove b p).xuStart.fab.q = b.fab.q := by
  obtain ⟨c, hc, htlb⟩ := tlbRemove_counts b p
  rw [htlb]
  exact hc.queue

theorem Block.xuStart_segs (b : Block) (p : TlbEnt → Bool) : (tlbRemove b p).xuStart.xl.segs = b.xl.segs := by
  obtain ⟨c, hc, htlb⟩ := tlbRemove_counts b p
  rw [htlb]
  rfl

/-! ### XU_INV and XU_SEG_CMD (R277, R289) -/

/-- The virtual page of an offset of a segment. -/
def Block.invPage (b : Block) (seg : BitVec 6) (off : BitVec 48) : BitVec 36 :=
  BitVec.ofNat 36 ((b.segm seg).base.toNat + off.toNat / 4096)

theorem reqVpn_eq_invPage (b : Block) (seg : BitVec 6) (off : BitVec 48) (op : BitVec 4) (k : Cont) :
    reqVpn b { seg, off := off.setWidth 64, op, cont := k } = b.invPage seg off := by
  have hoff : (off.setWidth 64).toNat = off.toNat := by
    rw [BitVec.toNat_setWidth, Nat.mod_eq_of_lt (by omega)]
  refine BitVec.eq_of_toNat_eq ?_
  simp only [reqVpn, Block.invPage, xVa, hoff, BitVec.extractLsb'_toNat, BitVec.toNat_ofNat, Nat.shiftRight_eq_div_pow]
  omega

/-- The entries that XU_INV.SCOPE names: all, those of a segment, those of a page of it. -/
def scopeNames (scope : BitVec 2) (seg : BitVec 6) (vpn : BitVec 36) (e : TlbEnt) : Bool :=
  scope == 0 || (e.seg == seg && (scope == 1 || e.vpn == vpn))

theorem scopeNames_segment (seg : BitVec 6) (vpn : BitVec 36) : scopeNames 1 seg vpn = fun e => e.seg == seg := by
  funext e
  simp [scopeNames]

theorem Block.xuInvGo_of_idle {b : Block} (h : b.xl.inv = none) {scope : BitVec 2} (hs : scope ≠ 3) (seg : BitVec 6) (off : BitVec 48) :
    b.xuInvGo scope seg off = (tlbRemove b (scopeNames scope seg (b.invPage seg off))).xuStart := by
  have hnames : (fun e : TlbEnt => scope == 0 || scope == 3 || (e.seg == seg && (scope == 1 || e.vpn == b.invPage seg off))) =
      scopeNames scope seg (b.invPage seg off) := by
    have hs' : (scope == 3) = false := beq_eq_false_iff_ne.mpr hs
    funext e
    simp only [scopeNames, hs', Bool.or_false]
  rw [Block.xuInvGo, if_neg (by simp [h])]
  simp only [reqVpn_eq_invPage, hnames]

theorem Block.xuInvGo_queue (b : Block) (scope : BitVec 2) (seg : BitVec 6) (off : BitVec 48) :
    (b.xuInvGo scope seg off).fab.q = b.fab.q := by
  unfold Block.xuInvGo
  split
  · exact Block.flag_queue _ _ _
  · exact Block.xuStart_queue _ _

theorem Block.segCmd_apply_of_busy {b : Block} (h : b.xl.inv.isSome = true) : b.segCmd 1 = b.flag pgXU 3 := by
  simp [Block.segCmd, h]

/-- The staged descriptor is what the registers of the XU page say. -/
theorem Block.stagedSeg_congr {b c : Block} (h : ∀ off, off < 4096 → c.reg pgXU off = b.reg pgXU off) : c.stagedSeg = b.stagedSeg := by
  simp (disch := decide) only [Block.stagedSeg, h]

/-- A descriptor that stands for a segment from then on, and SEG_APPLIED. -/
def Block.putsSeg (b : Block) (seg : BitVec 6) (d : Segm) : Block :=
  { b with xl := { b.xl with segs := b.xl.segs.set {} seg.toNat d } }.flag pgXU 4

theorem Block.segCmd_apply_of_idle {b : Block} (h : b.xl.inv = none) :
    b.segCmd 1 = (tlbRemove b (scopeNames 1 (b.regFld pgXU 0x054 5 0) (b.invPage (b.regFld pgXU 0x054 5 0) 0))).xuStart.putsSeg
      (b.regFld pgXU 0x054 5 0) b.stagedSeg := by
  have hgo := Block.xuInvGo_of_idle h (scope := 1) (by decide) (b.regFld pgXU 0x054 5 0) 0
  have hstaged : (b.xuInvGo 1 (b.regFld pgXU 0x054 5 0) 0).stagedSeg = b.stagedSeg := by
    rw [hgo]
    exact Block.stagedSeg_congr fun off hoff => b.xuStart_reg _ hoff
  rw [← hgo, ← hstaged, Block.segCmd, if_pos rfl, if_neg (by simp [h])]
  rfl

/-- FETCH: the descriptor's words go to the staging registers. -/
theorem Block.segCmd_fetch (b : Block) : b.segCmd 2 =
    ([0x05C, 0x060, 0x064, 0x068, 0x06C, 0x070, 0x074].zip (b.segm (b.regFld pgXU 0x054 5 0)).words).foldl
      (fun b p => b.setReg pgXU p.1 p.2) b := by
  rw [Block.segCmd, if_neg (by decide), if_pos rfl]

theorem Block.foldl_setReg_queue (l : List (Nat × Word)) (pg : Nat) (b : Block) :
    (l.foldl (fun b p => b.setReg pg p.1 p.2) b).fab.q = b.fab.q := by
  induction l generalizing b with
  | nil => rfl
  | cons p l ih => exact ih _

theorem Block.foldl_setReg_answer (l : List (Nat × Word)) (pg : Nat) (b : Block) (err : Bool) (d : BitVec 64) :
    l.foldl (fun b p => b.setReg pg p.1 p.2) (b.answer err d) = (l.foldl (fun b p => b.setReg pg p.1 p.2) b).answer err d := by
  induction l generalizing b with
  | nil => rfl
  | cons p l ih => exact ih (b.setReg pg p.1 p.2)

theorem Block.segCmd_queue (b : Block) (op : BitVec 2) : (b.segCmd op).fab.q = b.fab.q := by
  unfold Block.segCmd
  dsimp only
  split
  · split
    · exact Block.flag_queue _ _ _
    · exact (Block.flag_queue _ _ _).trans (b.xuInvGo_queue _ _ _)
  · split
    · exact Block.foldl_setReg_queue _ pgXU b
    · rfl

/-! ### Writes of the XU page (R294) -/

theorem pgClass_xu : pgClass pgXU = some .xu := rfl
theorem defOf_xu_inv : defOf .xu 0x044 = { rw := 0x3F03, wo := 4, atOnce := true } := by decide
theorem defOf_xu_segCmd : defOf .xu 0x058 = { wo := 3, key := true, atOnce := true } := by decide

theorem Block.applyXu_queue (b : Block) (off : Nat) (v : Word) : (b.applyXu off v).fab.q = b.fab.q := by
  unfold Block.applyXu
  split
  · split
    · rfl
    · split
      · exact Block.flag_queue _ _ _
      · exact Block.xuInvGo_queue _ _ _ _
  · exact b.segCmd_queue _
  · rfl

/-- A write of the base part of the XU page that meets no obstacle. -/
theorem Puts.of_writes_xu {s : State} {i : Instr} {off : Nat} {w : RegAcc} {r : Block} (ha : w.als = .base)
    (e : exec i s = .next { s with blk := s.blk.regCmd pgXU off w }) (hoff : off < 0x1000) (h4 : off % 4 = 0)
    (h : s.blk.writes pgXU off w = true)
    (hr : ((s.blk.opened pgXU off).applyXu off (storedVal .xu off (w.data &&& ((defOf .xu off).rw ||| (defOf .xu off).wo)))).answer
      false 0 = r) : Puts s i r := by
  refine .of_writes pgClass_xu rfl e hoff h4 h (fun b => Block.applyXu_queue b off _) ?_
  rw [Block.wval_base _ _ _ _ _ pgClass_xu ha]
  exact hr

/-- A write of XU_SEG_CMD that meets no obstacle is the command of its code. -/
theorem Puts.of_segCmd {s : State} {i : Instr} {w : RegAcc} {op : Word} {r : Block} (ha : w.als = .base)
    (e : exec i s = .next { s with blk := s.blk.regCmd pgXU 0x058 (withOp w 3 op) })
    (h : s.blk.writes pgXU 0x058 (withOp w 3 op) = true)
    (hr : ((s.blk.opened pgXU 0x058).segCmd (fld op 1 0)).answer false 0 = r) : Puts s i r := by
  refine .of_writes_xu (w := withOp w 3 op) ha e (by decide) (by decide) h ?_
  rw [defOf_xu_segCmd]
  simp only [storedVal, Block.applyXu, withOp, fld_blend_and_of_ones w.data op (show fld (3 : Word) 1 0 = _ by decide)
    (show fld ((0 : Word) ||| 3) 1 0 = _ by decide)]
  exact hr

/-- Opening the XU page changes neither the translation unit nor what the registers read. -/
theorem Block.opened_xu_xl (b : Block) (off : Nat) : (b.opened pgXU off).xl = b.xl := by
  obtain ⟨g, m, ho⟩ := Block.opened_of_plain (b := b) (off := off) pgClass_xu rfl
  rw [ho]
  rfl

theorem Block.opened_xu_reg (b : Block) (off pg o : Nat) : (b.opened pgXU off).reg pg o = b.reg pg o := by
  obtain ⟨g, m, ho⟩ := Block.opened_of_plain (b := b) (off := off) pgClass_xu rfl
  rw [ho]
  rfl

theorem Block.opened_xu_regFld (b : Block) (off pg o hi lo : Nat) : (b.opened pgXU off).regFld pg o hi lo = b.regFld pg o hi lo := by
  simp only [Block.regFld, Block.opened_xu_reg]

theorem Block.opened_xu_segm (b : Block) (off : Nat) (seg : BitVec 6) : (b.opened pgXU off).segm seg = b.segm seg := by
  simp only [Block.segm, Block.opened_xu_xl]

theorem Block.wrote_xu (b : Block) (off : Nat) (w : RegAcc) : b.wrote pgXU off w = (b.opened pgXU off).answer false 0 :=
  Block.wrote_of_plain pgClass_xu rfl

/-- What holds of the block that a write puts. -/
theorem Gives.of_puts {s : State} {c : Instr} {r : Block} {p : Block → Prop} (h : Puts s c r) (hp : p (s.blk.oneSeq r)) :
    Gives s c p := ⟨_, h, rfl, hp⟩

/-! #### XU_SEG_CMD -/

section SegCmd

variable {s : State} {w : RegAcc} (ha : w.als = .base)
include ha

theorem Puts.segApply_of_busy (h : s.blk.writes pgXU 0x058 (withOp w 3 1) = true) (hinv : s.blk.xl.inv.isSome = true) :
    Puts s (.segApply w) ((s.blk.wrote pgXU 0x058 (withOp w 3 1)).flag pgXU 3) := by
  refine .of_segCmd ha rfl h ?_
  rw [show fld (1 : Word) 1 0 = 1 by decide, Block.segCmd_apply_of_busy (by rwa [Block.opened_xu_xl]), Block.wrote_xu, Block.flag_answer]

/-- APPLY: the entries of the segment go, the staged descriptor stands for it. -/
theorem Puts.segApply_of_idle (h : s.blk.writes pgXU 0x058 (withOp w 3 1) = true) (hinv : s.blk.xl.inv = none) :
    Puts s (.segApply w) (((tlbRemove (s.blk.opened pgXU 0x058) fun e => e.seg == s.blk.regFld pgXU 0x054 5 0).xuStart.putsSeg
      (s.blk.regFld pgXU 0x054 5 0) s.blk.stagedSeg).answer false 0) := by
  refine .of_segCmd ha rfl h ?_
  rw [show fld (1 : Word) 1 0 = 1 by decide, Block.segCmd_apply_of_idle (by rwa [Block.opened_xu_xl]), Block.opened_xu_regFld,
    Block.stagedSeg_congr fun off _ => s.blk.opened_xu_reg 0x058 pgXU off, scopeNames_segment]

/-- FETCH: the descriptor of the segment is staged. -/
theorem Puts.segFetch (h : s.blk.writes pgXU 0x058 (withOp w 3 2) = true) :
    Puts s (.segFetch w) (([0x05C, 0x060, 0x064, 0x068, 0x06C, 0x070, 0x074].zip (s.blk.segm (s.blk.regFld pgXU 0x054 5 0)).words).foldl
      (fun b p => b.setReg pgXU p.1 p.2) (s.blk.wrote pgXU 0x058 (withOp w 3 2))) := by
  refine .of_segCmd ha rfl h ?_
  rw [show fld (2 : Word) 1 0 = 2 by decide, Block.segCmd_fetch, Block.wrote_xu, Block.opened_xu_regFld, Block.opened_xu_segm,
    Block.foldl_setReg_answer]

end SegCmd

/-! #### XU_INV -/

section XuInv

/-- What XU_INV takes of a write with GO. -/
def invWord (d : Word) : Word := blend 4 d 4 &&& (0x3F03 ||| 4)

theorem invWord_go (d : Word) : bit (invWord d) 2 = true := by
  simp [bit, invWord, blend]

theorem invWord_scope (d : Word) : fld (invWord d) 1 0 = fld d 1 0 :=
  fld_blend_and d 4 (by decide) (by decide) (by decide) (by decide)

theorem invWord_seg (d : Word) : fld (invWord d) 13 8 = fld d 13 8 :=
  fld_blend_and d 4 (by decide) (by decide) (by decide) (by decide)

/-- The offset of XU_INV_OFF. -/
def Block.invOff (b : Block) : BitVec 48 := b.regFld pgXU 0x04C 15 0 ++ b.reg pgXU 0x048

theorem Block.applyXu_inv_of_busy {b : Block} (h : b.xl.inv.isSome = true) {v : Word} (hv : bit v 2 = true) :
    b.applyXu 0x044 v = b.flag pgXU 3 := by
  simp [Block.applyXu, h, hv]

theorem Block.applyXu_inv_of_idle {b : Block} (h : b.xl.inv = none) {v : Word} (hv : bit v 2 = true) :
    b.applyXu 0x044 v = (b.store pgXU .xu 0x044 v).xuInvGo (fld v 1 0) (fld v 13 8) b.invOff := by
  simp [Block.applyXu, h, hv, Block.invOff]

variable {s : State} {w : RegAcc} (ha : w.als = .base) (h : s.blk.writes pgXU 0x044 (withOp w 4 4) = true)
include ha h

theorem Puts.of_xuInv {r : Block} (hr : ((s.blk.opened pgXU 0x044).applyXu 0x044 (invWord w.data)).answer false 0 = r) :
    Puts s (.xuInv w) r := by
  refine .of_writes_xu (w := withOp w 4 4) ha rfl (by decide) (by decide) h ?_
  rw [defOf_xu_inv]
  exact hr

theorem Puts.xuInv_of_busy (hinv : s.blk.xl.inv.isSome = true) :
    Puts s (.xuInv w) ((s.blk.wrote pgXU 0x044 (withOp w 4 4)).flag pgXU 3) := by
  refine .of_xuInv ha h ?_
  rw [Block.applyXu_inv_of_busy (by rwa [Block.opened_xu_xl]) (invWord_go _), Block.wrote_xu, Block.flag_answer]

theorem Puts.xuInv_of_idle (hinv : s.blk.xl.inv = none) (hs : fld w.data 1 0 ≠ 3) :
    Puts s (.xuInv w) ((tlbRemove ((s.blk.opened pgXU 0x044).store pgXU .xu 0x044 (invWord w.data))
      (scopeNames (fld w.data 1 0) (fld w.data 13 8) (s.blk.invPage (fld w.data 13 8) s.blk.invOff))).xuStart.answer false 0) := by
  have hxl : ((s.blk.opened pgXU 0x044).store pgXU .xu 0x044 (invWord w.data)).xl = s.blk.xl := s.blk.opened_xu_xl _
  have hoff : (s.blk.opened pgXU 0x044).invOff = s.blk.invOff := by
    simp only [Block.invOff, Block.opened_xu_regFld, Block.opened_xu_reg]
  refine .of_xuInv ha h ?_
  rw [Block.applyXu_inv_of_idle (by rwa [Block.opened_xu_xl]) (invWord_go _), invWord_scope, invWord_seg, hoff,
    Block.xuInvGo_of_idle (by rwa [hxl]) hs]
  simp only [Block.invPage, Block.segm, hxl]

end XuInv

/-! ### Segments and invalidations -/

theorem Block.oneSeq_xl (a b : Block) : (a.oneSeq b).xl = b.xl := rfl

theorem Block.putsSeg_segs (b : Block) (seg : BitVec 6) (d : Segm) : (b.putsSeg seg d).xl.segs = b.xl.segs.set {} seg.toNat d := by
  rw [Block.putsSeg, Block.flag_xl]

theorem Block.Removes.putsSeg {c b : Block} {p : TlbEnt → Bool} (h : Block.Removes c b p) (seg : BitVec 6) (d : Segm) :
    Block.Removes c (b.putsSeg seg d) p :=
  (h.setSegs (b.xl.segs.set {} seg.toNat d)).same_units rfl (.notes (Block.flag_notes _ pgXU 4))

/-- A removal that a write starts, with the write's answer given on both ends. -/
theorem Block.Removes.of_write {b c r : Block} {p : TlbEnt → Bool} {off : Nat} {w : RegAcc} (h : Block.Removes c r p)
    (hc : Block.SameUnits c (b.wrote pgXU off w)) (a : Block) : Block.Removes (b.wrote pgXU off w) (a.oneSeq (r.answer false 0)) p :=
  h.same_units hc ((Block.SameUnits.answer r false 0).trans (.oneSeq a _))

/-- The parts of a removal. -/
theorem Block.Removes.parts {c b : Block} {p : TlbEnt → Bool} (h : Block.Removes c b p) :
    b.xl.tlb.cells = (c.xl.tlb.cells.map fun x => (x.1, x.2.filter fun e => !p e)).filter (fun x => !x.2.isEmpty) ∧
      b.xl.inv.isSome = true ∧ (∀ x ∈ b.xl.walkers.cells, x.2.noInstall = true) ∧
      b = { c with xl := b.xl, eng := b.eng, fab := b.fab, rm := b.rm } ∧
      b.xl = { c.xl with tlb := b.xl.tlb, inv := b.xl.inv, walkers := b.xl.walkers, segs := b.xl.segs } ∧
      (∀ n, n < 16 → b.engine n = { c.engine n with prefetch := (b.engine n).prefetch }) :=
  ⟨congrArg Map.cells h.tlb, h.busy, h.walks, h.rest, h.xl, fun n _ => h.engines n⟩

/-- The end of an invalidation that waits for no walk and no access. -/
theorem effXuInvDone_of_ended {b : Block} {v : XuInv} (hv : b.xl.inv = some v)
    (hwalks : ∀ x ∈ b.xl.walkers.cells, x.2.noInstall = false) (hheld : v.held.inter b.unissuedNow = {}) :
    effXuInvDone b = { b with xl := { b.xl with inv := none, invCount := b.xl.invCount + 1 } }.flag pgXU 2 := by
  have hnone : (b.xl.walkers.cells.any fun p => p.2.noInstall) = false := by simpa using hwalks
  simp [effXuInvDone, hv, hnone, hheld]

/-- Settles O43: what a removal takes of the TLB and what it leaves is `Block.Removes`. -/
theorem segmentsAndInvalidations : Obligations.SegmentsAndInvalidations := by
  refine ⟨?_, fun s v hv hwalks hheld => .of_effect rfl (effXuInvDone_of_ended hv hwalks hheld)⟩
  intro s w ha sel seg_ b removes
  refine ⟨fun h => ⟨fun hinv => .segApply_of_busy ha h hinv, fun hinv => ?_⟩, fun h => .segFetch ha h,
    fun h => ⟨fun hinv => .xuInv_of_busy ha h hinv, fun hinv hs => ?_⟩⟩
  · have hrem := (s.blk.opened pgXU 0x058).xuStart_removes fun e => e.seg == sel
    refine .of_puts (.segApply_of_idle ha h hinv) ⟨((hrem.putsSeg sel s.blk.stagedSeg).of_write ?_ s.blk).parts, ?_⟩
    · rw [Block.wrote_xu]
      exact .answer _ _ _
    · rw [Block.oneSeq_xl, Block.answer_xl, Block.putsSeg_segs, Block.xuStart_segs, Block.opened_xu_xl]
  · have hrem := ((s.blk.opened pgXU 0x044).store pgXU .xu 0x044 (invWord w.data)).xuStart_removes
      (scopeNames (fld w.data 1 0) (fld w.data 13 8) (s.blk.invPage (fld w.data 13 8) s.blk.invOff))
    refine .of_puts (.xuInv_of_idle ha h hinv hs) ⟨(hrem.of_write ?_ s.blk).parts, ?_⟩
    · rw [Block.wrote_xu]
      rfl
    · rw [Block.oneSeq_xl, Block.answer_xl, Block.xuStart_segs, Block.store, Block.setReg_xl, Block.opened_xu_xl]

end Sys2Proof.Machine

namespace Sys2Proof.Machine

/-! ### Where a walk reads (R284, R285) -/

/-- The device windows are those of the 8 window registers. -/
theorem inDevWindow_congr {b c : Block} (h : ∀ off, 0x0A0 ≤ off → off < 0x0C0 → c.reg pgXU off = b.reg pgXU off) (pa : BitVec 64) :
    inDevWindow c pa = inDevWindow b pa := by
  simp only [inDevWindow, List.any_eq]
  refine decide_eq_decide.mpr (exists_congr fun n => and_congr_right fun hn => ?_)
  have hn4 : n < 4 := List.mem_range.mp hn
  rw [h (0x0A0 + 8 * n) (by omega) (by omega), h (0x0A4 + 8 * n) (by omega) (by omega)]

/-- A walk whose next table entry lies in no device window stands in its walker. -/
theorem Block.walkNext_of_clear {b : Block} {x : Walker} (h : inDevWindow b (walkAddr x) = false) (w : Nat) :
    b.walkNext w x = { b with xl := { b.xl with walkers := b.xl.walkers.insert w x } } := by
  simp [Block.walkNext, h]

/-- One whose next table entry lies in one ends with cause 6. -/
theorem Block.walkNext_of_device {b : Block} {x : Walker} (h : inDevWindow b (walkAddr x) = true) (w : Nat) :
    b.walkNext w x = b.walkFault w x 6 x.level := by
  simp [Block.walkNext, h]

/-! ### The start of a walk (R284, R286) -/

/-- The lowest free walker. -/
theorem freeWalker_of_lowest {b : Block} {w : Nat} (hw : w < 64) (hfree : b.xl.walkers.find? w = none)
    (hbelow : ∀ v, v < w → b.xl.walkers.find? v ≠ none) : freeWalker b = some w := by
  simp only [freeWalker, List.find?_range_eq_some, List.mem_range, hfree, hw, Option.isNone_none, true_and]
  intro v hv
  simpa [Option.isSome_iff_ne_none] using hbelow v hv

theorem walkOf_eq_none {b : Block} {seg : BitVec 6} {vpn : BitVec 36}
    (h : ∀ x ∈ b.xl.walkers.cells, x.2.seg ≠ seg ∨ x.2.va.extractLsb' 12 36 ≠ vpn) : walkOf b seg vpn = none := by
  simp only [walkOf, Option.map_eq_none_iff, List.find?_eq_none, Bool.and_eq_true, beq_iff_eq, not_and_or]
  exact h

/-- The walker of a miss at the root of its segment, with the other misses of its page. -/
def Block.rootWalker (b : Block) (q : XReq) (more : List XReq) : Walker :=
  { seg := q.seg, va := BitVec.ofNat 48 (xVa (b.segm q.seg) q.off), level := 4, table := (b.segm q.seg).root, dev := (b.segm q.seg).dev,
    waiting := q :: more }

/-- A walk is counted where it begins. -/
theorem beginWalk_notes (b : Block) (w : Nat) (q : XReq) (more : List XReq) : Block.Notes [pgXU, pgPMU, pgRM]
    { b with xl := { b.xl with walkers := b.xl.walkers.insert w (b.rootWalker q more) } } (beginWalk b w q more) :=
  ((Block.cnt_notes _ pgXU 0x0C0 1 (by decide)).of (by simp)).trans ((Block.pmuEv_notes _ 0x16 0 1).of (by simp))

theorem beginWalk_xl (b : Block) (w : Nat) (q : XReq) (more : List XReq) :
    (beginWalk b w q more).xl = { b.xl with walkers := b.xl.walkers.insert w (b.rootWalker q more) } := by
  simp only [beginWalk, Block.pmuEv_xl, Block.cnt_xl]
  rfl

/-- The count of walks is no window register. -/
theorem inDevWindow_beginWalk (b : Block) (w : Nat) (q : XReq) (more : List XReq) (pa : BitVec 64) :
    inDevWindow (beginWalk b w q more) pa = inDevWindow b pa := by
  refine inDevWindow_congr (fun off _ hoff => ?_) pa
  rw [beginWalk, (Block.pmuEv_notes _ 0x16 0 1).reg pgXU off (by decide) (by omega), Block.cnt,
    Block.reg_setReg_ne _ _ (by decide) (by omega) (.inr (by omega))]
  rfl

/-- A walk begun outside the device windows stays in its walker. -/
theorem Block.walkNext_beginWalk {b : Block} {q : XReq} {more : List XReq} (h : inDevWindow b (walkAddr (b.rootWalker q more)) = false)
    (w : Nat) : (beginWalk b w q more).walkNext w (b.rootWalker q more) = beginWalk b w q more := by
  rw [Block.walkNext_of_clear (by rw [inDevWindow_beginWalk, h]), beginWalk_xl]
  simp only [Map.insert_insert]
  rw [← beginWalk_xl]

/-- Another waiting miss of the page of a miss. -/
def Block.samePage (b : Block) (q y : XReq) : Bool := y.seg == q.seg && reqVpn b y == reqVpn b q

/-- Other misses wait. -/
def Block.withWaitq (b : Block) (l : List XReq) : Block := { b with xl := { b.xl with waitq := l } }

section Start

variable {b : Block} {q : XReq} {rest : List XReq} {w : Nat} (hq : b.xl.waitq = q :: rest) (hseg : segCheck (b.segm q.seg) q.off = none)
  (htlb : ∀ e ∈ b.xl.tlb.get [] (tlbSet q.seg (reqVpn b q)), e.seg ≠ q.seg ∨ e.vpn ≠ reqVpn b q)
  (hwalk : ∀ x ∈ b.xl.walkers.cells, x.2.seg ≠ q.seg ∨ x.2.va.extractLsb' 12 36 ≠ reqVpn b q) (hw : freeWalker b = some w)
include hq hseg htlb hwalk hw

/-- The oldest miss of a page that is neither in the TLB nor walked begins its walk. -/
theorem effWalkStart_of_miss : effWalkStart b =
    (beginWalk (b.withWaitq (rest.filter fun y => !b.samePage q y)) w q (rest.filter (b.samePage q))).walkNext w
      (b.rootWalker q (rest.filter (b.samePage q))) := by
  have hfind : (b.xl.tlb.get [] (tlbSet q.seg (reqVpn b q))).find? (fun e => e.seg == q.seg && e.vpn == reqVpn b q) = none := by
    simpa only [List.find?_eq_none, Bool.and_eq_true, beq_iff_eq, not_and_or] using htlb
  simp only [effWalkStart, hq, hseg, hfind, walkOf_eq_none hwalk, hw, beginWalk_xl, Map.find?_insert_self]
  rfl

/-- Outside the device windows it stays in its walker, and besides it is counted. -/
theorem effWalkStart_notes (hwin : inDevWindow b (walkAddr (b.rootWalker q (rest.filter (b.samePage q)))) = false) :
    Block.Notes [pgXU, pgPMU, pgRM]
      { b with xl := { b.xl with
          waitq := rest.filter fun y => !b.samePage q y
          walkers := b.xl.walkers.insert w (b.rootWalker q (rest.filter (b.samePage q))) } } (effWalkStart b) := by
  have hclear : inDevWindow (b.withWaitq (rest.filter fun y => !b.samePage q y)) (walkAddr (b.rootWalker q (rest.filter (b.samePage q)))) =
    false := (inDevWindow_congr (fun _ _ _ => rfl) _).trans hwin
  have hstays := Block.walkNext_beginWalk (q := q) (more := rest.filter (b.samePage q)) hclear w
  rw [(effWalkStart_of_miss hq hseg htlb hwalk hw).trans hstays]
  exact beginWalk_notes (b.withWaitq (rest.filter fun y => !b.samePage q y)) w q (rest.filter (b.samePage q))

end Start

/-! ### The answer of a table read (R284, R285) -/

/-- The walker one level down, at the table that an entry names. -/
def Walker.descend (x : Walker) (e : BitVec 64) : Walker := { x with table := e.extractLsb' 12 52, level := x.level - 1 }

/-- The TLB entry of a leaf. -/
def Walker.leaf (x : Walker) (e : BitVec 64) : TlbEnt :=
  { seg := x.seg, vpn := x.va.extractLsb' 12 36, ppn := e.extractLsb' 12 52, r := bit e 1, w := bit e 2, u := bit e 4, s := bit e 5,
    dev := x.dev, unused := x.waiting.all XReq.silent }

section Answer

variable {b : Block} {w : Nat} {x : Walker} {e : BitVec 64} (hx : b.xl.walkers.find? w = some x)
include hx

theorem effWalkRead_err {r : WalkResp} (hr : ∀ e, r ≠ .ok e) : effWalkRead b w r = b.walkFault w x 7 x.level := by
  cases r with
  | ok e => exact absurd rfl (hr e)
  | err => simp only [effWalkRead, hx]
  | poison => simp only [effWalkRead, hx]

theorem effWalkRead_absent (hv : bit e 0 = false) : effWalkRead b w (.ok e) = b.walkFault w x 3 x.level := by
  simp [effWalkRead, hx, hv]

theorem effWalkRead_table (hv : bit e 0 = true) (hl : 1 < x.level.toNat) : effWalkRead b w (.ok e) = b.walkNext w (x.descend e) := by
  simp only [effWalkRead, hx, hv, Nat.not_le.mpr hl]
  rfl

theorem effWalkRead_leaf (hv : bit e 0 = true) (hl : x.level.toNat ≤ 1) : effWalkRead b w (.ok e) = b.walkLeaf w x e := by
  simp only [effWalkRead, hx, hv, hl]
  rfl

end Answer

/-- A leaf that is writable and executable is malformed. -/
theorem Block.walkLeaf_malformed {b : Block} {w : Nat} {x : Walker} {e : BitVec 64} (hw : bit e 2 = true) (hxb : bit e 3 = true) :
    b.walkLeaf w x e = b.walkFault w x 5 1 := by
  simp [Block.walkLeaf, hw, hxb]

/-- Any other serves what is attached: installed, or with the accesses that an invalidation then waits for (R289). -/
theorem Block.walkLeaf_serves {b : Block} {w : Nat} {x : Walker} {e : BitVec 64} (h : bit e 2 = false ∨ bit e 3 = false) :
    let c : Block := { b with xl := { b.xl with walkers := b.xl.walkers.erase w } }
    b.walkLeaf w x e = if x.noInstall then (x.waiting.foldl (Block.xServe (x.leaf e)) c).staleServed c.unissuedNow
      else x.waiting.foldl (Block.xServe (x.leaf e)) (tlbInstall c (x.leaf e)) := by
  have hgood : (bit e 2 && bit e 3) = false := by
    rcases h with h | h <;> simp [h]
  cases hn : x.noInstall <;> simp only [Block.walkLeaf, hgood, hn] <;> rfl

/-! ### What leaves the translation unit as it is -/

@[simp] theorem Block.ask16_xl (b : Block) (i : Ins) : (b.ask16 i).xl = b.xl := rfl

@[simp] theorem Block.vifCause_xl (b : Block) (v i : Nat) : (b.vifCause v i).xl = b.xl := by
  unfold Block.vifCause
  dsimp only
  split
  · rfl
  · split
    · exact Block.flag_xl _ _ _
    · rfl

@[simp] theorem Block.ownerCause_xl (b : Block) (o : OwnerNo) (i : Nat) : (b.ownerCause o i).xl = b.xl := by
  unfold Block.ownerCause
  split
  · rfl
  · exact b.vifCause_xl _ i

@[simp] theorem Block.stage_xl (b : Block) (w : Nat) (x : Staged) : (b.stage w x).xl = b.xl := by
  unfold Block.stage
  dsimp only
  split
  · exact Block.flag_xl _ _ _
  · rfl

@[simp] theorem Block.ownRecord_xl (b : Block) (r : RingNo) (rcd : Rec) (flt ras : Bool) : (b.ownRecord r rcd flt ras).xl = b.xl := by
  unfold Block.ownRecord
  dsimp only
  split
  · exact b.stage_xl _ _
  · cases flt <;> cases ras <;> simp

/-- The status bit of a context, or what stands for it where there is none. -/
theorem Block.ctxFlag_xl {b c : Block} (h : c.xl = b.xl) (d : CtxNo) (i : Nat) : ((b.ctxFlag d i).getD c).xl = b.xl := by
  unfold Block.ctxFlag
  split
  · rfl
  · cases b.leave.find? d.toNat with
    | none => exact h
    | some l => rfl

@[simp] theorem Block.spillDrop_xl (b : Block) (c : CtxNo) : (b.spillDrop c).xl = b.xl := by
  rw [Block.spillDrop, Block.ctxFlag_xl (by rfl), Block.flag_xl]
  rfl

@[simp] theorem Block.spillBad_xl (b : Block) (c : CtxNo) : (b.spillBad c).xl = b.xl := by
  rw [Block.spillBad, Block.ctxFlag_xl (by rfl)]

@[simp] theorem Block.ctxInvalid_xl (b : Block) (c : CtxNo) : (b.ctxInvalid c).xl = b.xl := Block.flag_xl _ _ _

@[simp] theorem Block.push_xl (b : Block) (c : CtxNo) (e : Entry) (front : Bool) : (b.push c e front).xl = b.xl := by
  unfold Block.push
  split
  · rfl
  · split
    · exact b.spillDrop_xl c
    · rfl

@[simp] theorem Block.resolveRec_xl (b : Block) (tok : Option Nat) (merged : Bool) : (b.resolveRec tok merged).xl = b.xl := by
  cases tok <;> rfl

/-! ### Reports join their queue (R293)

What an insert starts besides, and the translations it asks for, may meet faults of their own: their reports wait behind those
that stood there, and none is made. -/

/-- From one block to the other no report has been made: the fault log stands and reports have only joined their queue. -/
structure Block.OnlyReports (b b' : Block) : Prop where
  flog : b'.xl.flog = b.xl.flog
  next : b'.xl.flogNext = b.xl.flogNext
  reports : b.xl.reports <+: b'.xl.reports

namespace Block.OnlyReports

theorem refl (b : Block) : OnlyReports b b := ⟨rfl, rfl, List.prefix_rfl⟩

variable {a b c : Block}

theorem trans (h : OnlyReports a b) (k : OnlyReports b c) : OnlyReports a c :=
  ⟨k.flog.trans h.flog, k.next.trans h.next, h.reports.trans k.reports⟩

/-- An update of other parts of the block. -/
theorem parts (h : OnlyReports a b) (e : c.xl = b.xl := by rfl) : OnlyReports a c :=
  h.trans ⟨by rw [e], by rw [e], e ▸ List.prefix_rfl⟩

/-- An update of the translation unit that makes no report and asks for none. -/
theorem same (h : OnlyReports a b) (hf : c.xl.flog = b.xl.flog := by rfl) (hn : c.xl.flogNext = b.xl.flogNext := by rfl)
    (hr : c.xl.reports = b.xl.reports := by rfl) : OnlyReports a c := h.trans ⟨hf, hn, hr ▸ List.prefix_rfl⟩

theorem ite {p : Prop} [Decidable p] (h : OnlyReports a b) (k : OnlyReports a c) : OnlyReports a (if p then b else c) := by
  split
  · exact h
  · exact k

theorem foldl {α : Type} {f : Block → α → Block} (h : OnlyReports a b) (l : List α)
    (hf : ∀ {b : Block} (x : α), OnlyReports a b → OnlyReports a (f b x)) : OnlyReports a (l.foldl f b) := by
  induction l generalizing b with
  | nil => exact h
  | cons x l ih => exact ih (hf x h)

/-! #### Translations -/

theorem xReport (h : OnlyReports a b) (q : XReq) (cause : BitVec 4) (level : BitVec 3) : OnlyReports a (b.xReport q cause level) := by
  unfold Block.xReport
  dsimp only
  split
  · exact h.trans ⟨rfl, rfl, List.prefix_append _ _⟩
  · exact h.parts (by simp)

theorem xlate {q : XReq} {r : XRes} (h : OnlyReports a b) (hx : xlate b q = (c, r)) : OnlyReports a c := by
  obtain rfl : c = (Machine.xlate b q).1 := (congrArg Prod.fst hx).symm
  have hmiss : OnlyReports a (b.pmuEv 0x15 0) := h.parts (by simp)
  unfold Machine.xlate
  dsimp only
  split
  · exact h.xReport q _ 0
  · split
    · unfold xHit
      split
      · exact h.same
      · exact h.same.xReport q 4 1
    · split
      · exact hmiss.same
      · exact hmiss.same

theorem gotAddr (h : OnlyReports a b) (n : Nat) (k : Cont) (pa : BitVec 64) (dev : Bool) :
    OnlyReports a (gotAddr b n k pa dev).1 := by
  unfold Machine.gotAddr
  dsimp only
  split
  · exact h.parts
  · exact h.same

theorem startRead {n : Nat} {q : XReq} {r : Sum Phase (BitVec 4 × BitVec 3)} (h : OnlyReports a b)
    (hs : startRead b n q = (c, r)) : OnlyReports a c := by
  obtain rfl : c = (Machine.startRead b n q).1 := (congrArg Prod.fst hs).symm
  unfold Machine.startRead
  split
  · next hx => exact (h.xlate hx).gotAddr n _ _ _
  · next hx => exact h.xlate hx
  · next hx => exact h.xlate hx

/-! #### The ring writers' memory ports -/

theorem logPage (h : OnlyReports a b) (w : Nat) (o : OwnerNo) (seg : BitVec 6) (pa : BitVec 64) :
    OnlyReports a (b.logPage w o seg pa) := by
  have hthresh : ∀ (p : Prop) [Decidable p] (d : Block) (v : Nat), d.xl = b.xl → OnlyReports a (if p then d.vifCause v 4 else d) :=
    fun p _ d v hd => OnlyReports.ite (h.parts (by simp [hd])) (h.parts hd)
  unfold Block.logPage
  dsimp only
  split
  · exact h
  · split
    · exact h
    · split
      · exact h.parts (by simp)
      · split
        · next hx => exact ((hthresh _ _ _ (by rfl)).xlate hx).parts
        · next hx => exact (hthresh _ _ _ (by rfl)).xlate hx
        · next hx => exact ((hthresh _ _ _ (by rfl)).xlate hx).parts (by simp)

theorem issueWrite (h : OnlyReports a b) (w : Nat) (m : MemWrite) (seg : BitVec 6) : OnlyReports a (b.issueWrite w m seg) :=
  (h.parts (by simp)).logPage w _ seg _

theorem grantPort (h : OnlyReports a b) (w fuel : Nat) : OnlyReports a (b.grantPort w fuel) := by
  induction fuel generalizing b with
  | zero => exact h
  | succ fuel ih =>
    unfold Block.grantPort
    split
    · exact h
    · exact h
    · split
      · exact ih ((h.parts (by simp)).issueWrite w _ _)
      · exact h

theorem issueWb (h : OnlyReports a b) (q : WbReq) (pa : BitVec 64) (dev : Bool) : OnlyReports a (b.issueWb q pa dev) := by
  refine grantPort (foldl ?_ _ fun _ hb => hb.parts) _ 64
  exact ite (h.parts (b.spillDrop_xl _)) h

theorem sendWb {q : WbReq} {op : BitVec 4} {r : WbRes} (h : OnlyReports a b) (hs : b.sendWb q op = (c, r)) : OnlyReports a c := by
  obtain rfl : c = (b.sendWb q op).1 := (congrArg Prod.fst hs).symm
  unfold Block.sendWb
  dsimp only
  split
  · next hx => exact (h.xlate hx).issueWb q _ _
  · next hx => exact (h.xlate hx).parts
  · next hx => exact h.xlate hx

/-! #### The residency and spill engine -/

theorem pushEntry (h : OnlyReports a b) (s : Spill) (seg : BitVec 6) (page : BitVec 36) (d : Option (Nat × Nat)) :
    OnlyReports a (b.pushEntry s seg page d) := by
  unfold Block.pushEntry
  dsimp only
  split
  · exact h.parts (Block.spillDrop_xl _ _)
  · split
    · next hs => exact (h.sendWb hs).parts (Block.spillDrop_xl _ _)
    · next hs => exact (h.sendWb hs).parts (Block.pmuEv_xl _ _ _ _)

theorem readDesc (h : OnlyReports a b) (s : Spill) : OnlyReports a (b.readDesc s) := by
  unfold Block.readDesc
  split
  · exact h
  · dsimp only
    split
    · next hs => exact (h.startRead hs).parts
    · next hs => exact ((h.startRead hs).parts (Block.spillBad_xl _ _)).pushEntry _ _ _ _

theorem readEntry (h : OnlyReports a b) (s : Spill) : OnlyReports a (b.readEntry s) := by
  unfold Block.readEntry
  dsimp only
  split
  · next hs => exact (h.startRead hs).parts
  · next hs => exact (h.startRead hs).parts (Block.ctxInvalid_xl _ _)

theorem startSpill (h : OnlyReports a b) (d : CtxNo) : OnlyReports a (b.startSpill d) := by
  unfold Block.startSpill
  split
  · exact h
  · refine h.ite (h.ite ?_)
    split
    · exact h.ite (h.readDesc _)
    · exact h.ite (h.readEntry _)

theorem kickSpills (h : OnlyReports a b) (q : Nat) : OnlyReports a (b.kickSpills q) := foldl h _ fun x hb => hb.startSpill x

/-! #### An insert at the port of its context's bank (R66, R68, R160) -/

theorem insertAt (h : OnlyReports a b) (d : CtxNo) (x : Ctx) (e : Entry) : OnlyReports a (b.insertAt d x e).1 := by
  unfold Block.insertAt
  split
  · exact h.parts (by simp)
  · exact h.parts
  · exact ite h.parts ((h.parts (by simp)).kickSpills _)
  · exact (h.parts (by simp)).kickSpills _

theorem insertAway (h : OnlyReports a b) (i : Ins) : OnlyReports a (b.insertAway i) :=
  ite (kickSpills h.parts _) (h.parts (b.ctxInvalid_xl _))

theorem doInsert (h : OnlyReports a b) (i : Ins) : OnlyReports a (b.doInsert i).1 := by
  unfold Block.doInsert
  split
  · simp only [apply_ite Prod.fst]
    exact ite h.parts (ite h.parts (ite h.parts
      (ite (ite (h.insertAt _ _ _) (ite (insertAt h.parts _ _ _) h.parts)) (h.insertAt _ _ _))))
  · simp only [apply_ite Prod.fst]
    exact ite (ite (insertAway h.parts _) (ite (insertAway h.parts _) h.parts)) (h.insertAway i)

/-- The grant of an insert of requester 16 that belongs to no arrival. -/
theorem grantIns {i : Ins} (h : OnlyReports a b) (q : Nat) (hi : i.flight = none) : OnlyReports a (b.grantIns q 16 i) := by
  have hins := doInsert (h.parts (b.pmuEv_xl 0x0B q 1)) i
  simp only [Block.grantIns, hi]
  exact hins.parts (Block.resolveRec_xl _ _ _)

/-- The insert at the head of an intake of requester 16 that belongs to no arrival is granted. -/
theorem grantHead {i : Ins} (h : OnlyReports a b) (q : Nat) (hi : i.flight = none) : OnlyReports a (b.grantHead q 16 i) := by
  have hmerge : b.withMerge i = i := by rw [Block.withMerge, hi]
  unfold Block.grantHead
  simp only [hmerge, Block.insTaken, hi]
  exact ite h.parts (ite h.parts (grantIns h.parts q hi))

end Block.OnlyReports
/-! ### The report at the head of the queue is made (R292, R293) -/

/-- A report in the log slot NEXT, the others left in the queue. -/
def Block.logsReport (b : Block) (r : Report) (rest : List Report) : Block :=
  { b with xl := { b.xl with reports := rest, flog := b.xl.flog.insert b.xl.flogNext.toNat r, flogNext := b.xl.flogNext + 1 } }

/-- The record of a report in a log slot. -/
def Report.record (r : Report) (slot : BitVec 6) (prio : Prio) : Rec :=
  { vevent := 0x00903, prio, type := 0xB, w1 := slot.setWidth 32 ||| at' r.cause 6 ||| at' r.op 10 ||| at' r.owner 14, gt := r.gt }

/-- The report's record, where reports go to a ring. -/
def Block.reportRecord (b : Block) (rcd : Rec) : Block :=
  if bit (b.reg pgXU 0x078) 15 = true then b.ownRecord (fld (b.reg pgXU 0x078) 13 0) rcd true false else b

section Report

variable {b : Block} {r : Report} {rest : List Report} (h : b.xl.reports = r :: rest)
include h

theorem Block.makeReport_of_head : b.makeReport =
    ((((b.logsReport r rest).reportRecord (r.record b.xl.flogNext (fld (b.reg pgXU 0x07C) 21 16))).ownerCause r.owner 6).cnt pgXU
      0x0C4).flag pgXU 0 := by
  simp only [Block.makeReport, h]
  rfl

/-- Record, cause and flag leave the log as the report has left it. -/
theorem Block.makeReport_xl : b.makeReport.xl = (b.logsReport r rest).xl := by
  rw [Block.makeReport_of_head h, Block.flag_xl, Block.cnt_xl, Block.ownerCause_xl, Block.reportRecord]
  split
  · exact Block.ownRecord_xl _ _ _ _ _
  · rfl

end Report

/-! ### FAULT_REPORT (R293) -/

/-- The insert of a report. -/
def Block.reportIns (b : Block) : Ins :=
  { ctx := fld (b.reg pgXU 0x07C) 15 0, entry := bankedEntry 0x00903 (fld (b.reg pgXU 0x07C) 21 16) 0, report := true }

/-- An operation that joins an empty intake of requester 16 stands at its head. -/
theorem Block.bankHead_ask16 {b : Block} {i : Ins} (h : (b.bank (ctxBank i.ctx)).in16 = []) :
    (b.ask16 i).bankHead (ctxBank i.ctx) 16 = some i := by
  simp [Block.bankHead, Block.ask16, h, headIns]

/-- The grant of a report's insert makes the report. -/
theorem effRankInsert_of_report {b : Block} {q : Nat} {i : Ins} (hhead : b.bankHead q 16 = some i) (hrep : i.report = true)
    (hpick : b.bankPick q = some 16) : effRankInsert b q 16 = ((b.grantHead q 16 i).granted (.ctxBank q) 16).makeReport := by
  simp [effRankInsert, hhead, hpick, hrep]

theorem effRankInsert_of_not_picked {b : Block} {q r : Nat} (h : b.bankPick q ≠ some r) : effRankInsert b q r = b := by
  unfold effRankInsert
  split
  · rw [if_neg h]
  · rfl

section FaultReport

variable {b : Block} {r : Report} {rest : List Report} (h : b.xl.reports = r :: rest)
include h

/-- Without the insert the report is made at once. -/
theorem effFaultReport_now (hev : bit (b.reg pgXU 0x07C) 22 = false) : effFaultReport b = b.makeReport := by
  simp [effFaultReport, h, hev]

/-- With it the insert is asked for, and granted if the arbiter of its bank picks it. -/
theorem effFaultReport_asks (hev : bit (b.reg pgXU 0x07C) 22 = true) (hask : b.reportAsked = false)
    (hempty : (b.bank (ctxBank b.reportIns.ctx)).in16 = []) :
    effFaultReport b = effRankInsert (b.ask16 b.reportIns) (ctxBank b.reportIns.ctx) 16 := by
  have hhead := Block.bankHead_ask16 hempty
  unfold Block.reportIns at hhead ⊢
  dsimp only at hhead
  simp only [effFaultReport, h, hev, hask, hhead, List.isEmpty_cons, Bool.not_true, Bool.false_eq_true, if_false, if_true]

/-- The report that its insert's grant makes is the one that was oldest: reports of faults met on the way wait behind it. -/
theorem effFaultReport_granted (hev : bit (b.reg pgXU 0x07C) 22 = true) (hask : b.reportAsked = false)
    (hempty : (b.bank (ctxBank b.reportIns.ctx)).in16 = [])
    (hpick : (b.ask16 b.reportIns).bankPick (ctxBank b.reportIns.ctx) = some 16) :
    (effFaultReport b).xl.flog.find? b.xl.flogNext.toNat = some r ∧ (effFaultReport b).xl.flogNext = b.xl.flogNext + 1 := by
  rw [effFaultReport_asks h hev hask hempty, effRankInsert_of_report (Block.bankHead_ask16 hempty) rfl hpick]
  have hkept : Block.OnlyReports b (((b.ask16 b.reportIns).grantHead (ctxBank b.reportIns.ctx) 16 b.reportIns).granted
      (.ctxBank (ctxBank b.reportIns.ctx)) 16) :=
    (Block.OnlyReports.grantHead ((Block.OnlyReports.refl b).parts (b.ask16_xl _)) _ rfl).parts
  obtain ⟨more, hmore⟩ := hkept.reports
  rw [h, List.cons_append] at hmore
  rw [Block.makeReport_xl hmore.symm, Block.logsReport]
  exact ⟨by rw [← hkept.next, Map.find?_insert_self], by rw [← hkept.next]⟩

end FaultReport

/-! ### Walks and reports, case by case -/

/-- Settles O44: a walk starts and goes on as its table entries say (`effWalkStart_of_miss`, `effWalkRead_table`, `Block.walkLeaf_serves`);
the oldest report stays the oldest until it is made (`Block.OnlyReports`). -/
theorem walksServeTheirOperations : Obligations.WalksServeTheirOperations := by
  refine ⟨?_, ?_, ?_⟩
  · intro s q rest w hq d va vpn hseg htlb hwalk hw hfree hbelow same x hwin
    exact .of_effect rfl rfl (effWalkStart_notes hq hseg htlb hwalk (freeWalker_of_lowest hw hfree hbelow) hwin)
  · intro s w x r hx c faults
    refine ⟨fun hr => .of_effect rfl (effWalkRead_err hx hr), ?_⟩
    rintro e rfl
    refine ⟨fun hv => .of_effect rfl (effWalkRead_absent hx hv), fun hv hl => ⟨fun hdev => ?_, fun hclear => ?_⟩,
      fun hv hl hw hxb => ?_, fun hv hl h => ?_⟩
    · exact .of_effect rfl ((effWalkRead_table hx hv hl).trans (Block.walkNext_of_device hdev _))
    · exact .of_effect rfl ((effWalkRead_table hx hv hl).trans (Block.walkNext_of_clear hclear _))
    · exact .of_effect rfl ((effWalkRead_leaf hx hv hl).trans (Block.walkLeaf_malformed hw hxb))
    · exact .of_effect rfl ((effWalkRead_leaf hx hv hl).trans (Block.walkLeaf_serves h))
  · intro s r rest hr n b0 ring ev w1 rcd b1
    refine ⟨fun hev => .of_effect rfl ((effFaultReport_now hr hev).trans (Block.makeReport_of_head hr)), ?_⟩
    intro hev hask c a hempty
    refine ⟨fun hpick => ?_, fun hpick => ?_⟩
    · exact .of_effect rfl ((effFaultReport_asks hr hev hask hempty).trans (effRankInsert_of_not_picked hpick))
    · exact .of_effect rfl rfl (effFaultReport_granted hr hev hask hempty hpick)

end Sys2Proof.Machine

namespace Sys2Proof.Machine

/-! ### The transmit port of a Juwa port (R38, Table 1-5) -/

@[simp] theorem Block.port_granted (b : Block) (r : Res) (i p : Nat) : (b.granted r i).port p = b.port p := rfl

section Transmit

variable {b : Block} {p : Nat}

/-- No TIME frame leaves a port that presents none. -/
theorem Block.txPick_ne_time (ht : (b.port p).time = false) : b.txPick p ≠ some 16 := fun h => by
  simpa [Block.txElig, ht] using pickOldest_eligible h

/-- Where the time unit and control present nothing, nothing waits to be sent. -/
theorem Block.sendWaiting_of_quiet (ht : (b.port p).time = false) (hc : (b.port p).ctl = []) (fuel : Nat) :
    b.sendWaiting p fuel = b := by
  have hpick := Block.txPick_ne_time ht
  cases fuel with
  | zero => rfl
  | succ fuel =>
    delta Block.sendWaiting Block.sendWaiting._f
    dsimp only [Nat.brecOn, Nat.brecOn.go]
    rw [hc]
    generalize b.txPick p = k at hpick ⊢
    split
    · exact absurd rfl hpick
    · next h => cases h
    · rfl

/-- A control frame that the arbiter picks leaves as the last one. -/
theorem Block.sendWaiting_of_control {op : BitVec 4} (ht : (b.port p).time = false) (hc : (b.port p).ctl = [op])
    (hpick : b.txPick p = some 18) (fuel : Nat) : b.sendWaiting p (fuel + 1) =
      (b.setPort p { b.port p with ctl := [], txOut := [b.ctlBeat op] }).granted (.juwaTx p) 18 := by
  have hsent : b.sendWaiting p (fuel + 1) =
      Block.sendWaiting (((b.setPort p { b.port p with ctl := [] }).tx p [b.ctlBeat op]).granted (.juwaTx p) 18) p fuel := by
    delta Block.sendWaiting Block.sendWaiting._f
    dsimp only [Nat.brecOn, Nat.brecOn.go]
    rw [hpick, hc]
    rfl
  rw [hsent, Block.sendWaiting_of_quiet (by simp [Block.tx, ht]) (by simp [Block.tx])]
  simp [Block.tx]

/-- A control frame that is presented alone, and picked at once, leaves. -/
theorem Block.sendCtl_of_quiet {op : BitVec 4} (ht : (b.port p).time = false) (hc : (b.port p).ctl = [])
    (hpick : (b.setPort p { b.port p with ctl := [op] }).txPick p = some 18) :
    b.sendCtl p op = (b.setPort p { b.port p with txOut := [b.ctlBeat op] }).granted (.juwaTx p) 18 := by
  rw [Block.sendCtl, hc, List.nil_append, Block.sendWaiting_of_control (op := op) (by simp [ht]) (by simp) hpick]
  simp only [Block.port_setPort, Block.setPort_setPort, ← hc]
  rfl

end Transmit

end Sys2Proof.Machine

namespace Sys2Proof.Machine

/-! ### Receive FIFOs (R303, R304, R307) -/

/-- A port after the head of a receive FIFO has left it: what follows is there, the freed slot's credit is to be returned. -/
def JPort.freed (j : JPort) (vc : Bool) (rest : List Frame) (now : Nat) : JPort :=
  let since := if j.ret0 + j.ret1 = 0 then now else j.retSince
  if vc then { j with rx1 := rest, ret1 := j.ret1 + 1, retSince := since }
  else { j with rx0 := rest, ret0 := j.ret0 + 1, retSince := since }

section Receive

variable {b : Block} {p : Nat} {vc : Bool} {f : Frame} {rest : List Frame}

/-- The head of a receive FIFO leaves a block whose port is as it was. -/
theorem Block.rxPop_of_head {c : Block} (hport : c.port p = b.port p) (hclk : c.clk = b.clk)
    (h : (if vc then (b.port p).rx1 else (b.port p).rx0) = f :: rest) :
    c.rxPop p vc = c.setPort p ((b.port p).freed vc rest b.clk.dclk) := by
  rw [← hport] at h ⊢
  rw [← hclk]
  cases vc
  · simp only [Bool.false_eq_true, if_false] at h
    simp [Block.rxPop, Block.freeSlotOf, JPort.freed, h]
  · simp only [if_true] at h
    simp [Block.rxPop, Block.freeSlotOf, JPort.freed, h]

theorem Block.Notes.setPort {pgs : List Nat} {b b' : Block} (h : Block.Notes pgs b b') (p : Nat) (x : JPort) :
    Block.Notes pgs (b.setPort p x) (b'.setPort p x) :=
  h.map (·.setPort p x) (fun _ _ _ _ _ => rfl) fun _ => ⟨rfl, rfl⟩

theorem Block.rxHead_of_cons (h : (if vc then (b.port p).rx1 else (b.port p).rx0) = f :: rest) : b.rxHead p vc = some f := by
  rw [Block.rxHead, h]
  rfl

/-- A head for this block that the arbiter of its bank's port picks is admitted (R303). -/
theorem Block.rxTake_of_local (h : (if vc then (b.port p).rx1 else (b.port p).rx0) = f :: rest) (hdest : f.dest = b.inst)
    (hpick : b.pendPick (evBank f.revent) = some (8 + p)) (hasks : b.rxAsks p vc (evBank f.revent) = true) :
    b.rxTake p vc = ((b.admitFrame p f).granted (.pendBank (evBank f.revent)) (8 + p)).rxPop p vc := by
  simp only [Block.rxTake, Block.rxHead_of_cons h, hdest, hpick, hasks, decide_true, Bool.and_self, if_true]

/-- A head in transit that a lane takes leaves its FIFO (R304). -/
theorem Block.rxTake_of_transit {c : Block} (h : (if vc then (b.port p).rx1 else (b.port p).rx0) = f :: rest)
    (hdest : f.dest ≠ b.inst) (ht : b.transit p f = some c) : b.rxTake p vc = c.rxPop p vc := by
  simp only [Block.rxTake, Block.rxHead_of_cons h, hdest, if_false, ht]

/-- A FIFO without a frame gives none. -/
theorem Block.rxTake_of_empty (h : (if vc then (b.port p).rx1 else (b.port p).rx0) = []) : b.rxTake p vc = b := by
  simp only [Block.rxTake, Block.rxHead, h, List.head?_nil]

/-- A frame without payload of an event that is masked and not pending is held (R21). -/
theorem Block.admitFrame_of_masked (hlen : f.plen = 0) (hp : (b.pendOf f.revent).p = false) (hm : (b.pendOf f.revent).m = true) :
    b.admitFrame p f = (b.setPend f.revent { b.pendOf f.revent with p := true }).pmuEv 0x09 (evBank f.revent) := by
  simp [Block.admitFrame, hlen, hp, hm]

/-- A frame without payload of an event that is neither masked nor pending goes to its station as a re-entry (R303). -/
theorem Block.admitFrame_of_open (hlen : f.plen = 0) (hp : (b.pendOf f.revent).p = false) (hm : (b.pendOf f.revent).m = false) :
    b.admitFrame p f = (b.setPend f.revent { b.pendOf f.revent with
        p := true, fl := some { merge := f.merge, looking := true } }).setStation (evBank f.revent % 8)
      { b.station (evBank f.revent % 8) with reentry := (b.station (evBank f.revent % 8)).reentry ++
        [{ kind := .reentry, src := if wiredRange f.revent then .line (f.revent.setWidth 11) else .self f.revent,
           pevent := f.revent, trunc := f.trunc }] } := by
  simp [Block.admitFrame, Block.framePay, hlen, hp, hm]

end Receive

/-! ### Frames in transit (R304, R305) -/

/-- The block with other lanes of an engine towards a port. -/
def Block.withLanes (b : Block) (n p : Nat) (l : Lanes) : Block :=
  b.setEngine n { b.engine n with lanes := (b.engine n).lanes.set {} p l }

/-- A frame in transit as it enters a lane: one hop more. -/
def Frame.onward (f : Frame) : LaneFrame := { fr := { f with hops := f.hops + 1 } }

section Transit

variable {b : Block} {p : Nat} {f : Frame} {out : BitVec 2} {l : Lanes} (hout : b.outPort f.dest = .inl out) (hhops : f.hops ≠ 15)
  (hl : (b.engine f.oeng.toNat).lane out.toNat = l)
include hout hhops hl

theorem Block.transit_vc1 (hvc : f.vc = true) (hroom : l.vc1 = []) :
    b.transit p f = some (b.withLanes f.oeng.toNat out.toNat { l with vc1 := laneIn b [] f.onward }) := by
  simp only [Block.transit, hout, if_neg hhops, if_pos hvc, hl, hroom, List.isEmpty_nil, if_true]
  rfl

theorem Block.transit_pin (hvc : f.vc = false) (hpin : f.pin = true) (hroom : l.pin.length < 4) :
    b.transit p f = some (b.withLanes f.oeng.toNat out.toNat { l with pin := laneIn b l.pin f.onward }) := by
  simp only [Block.transit, hout, if_neg hhops, if_neg (Bool.eq_false_iff.mp hvc), if_pos hpin, hl, if_pos hroom]
  rfl

theorem Block.transit_vc0 (hvc : f.vc = false) (hpin : f.pin = false) (hroom : l.vc0.length < 4) :
    b.transit p f = some (b.withLanes f.oeng.toNat out.toNat { l with vc0 := laneIn b l.vc0 f.onward }) := by
  simp only [Block.transit, hout, if_neg hhops, if_neg (Bool.eq_false_iff.mp hvc), if_neg (Bool.eq_false_iff.mp hpin), hl,
    if_pos hroom]
  rfl

end Transit

/-! ### Frames at a port that takes them (R297, R300, R310) -/

/-- A frame that no slot takes is counted and reported (R300). -/
theorem Block.badFrame_none (b : Block) (p : Nat) : b.badFrame p none =
    ((b.cnt pgJL 0x04C).setReg pgJL 0x054 (at' (4 : BitVec 4) 16 ||| at' (BitVec.ofNat 2 p) 20)).flag pgJL 4 := by
  simp [Block.badFrame, Block.jlErr]

/-- A port comes up if its link is ready and HELLOs have gone both ways (R310). -/
theorem Block.comeUp_setPort (b : Block) (p : Nat) (x : JPort) : (b.setPort p x).comeUp p =
    if x.up = false ∧ x.ready = true ∧ x.helloSent = true ∧ x.helloGot = true
    then (b.setPort p { x with up := true }).flag pgJL 0 else b.setPort p x := by
  simp only [Block.comeUp, Block.port_setPort, Block.setPort_setPort]
  by_cases h : x.up = false ∧ x.ready = true ∧ x.helloSent = true ∧ x.helloGot = true
  · obtain ⟨hup, hready, hsent, hgot⟩ := h
    simp [hup, hready, hsent, hgot]
  · rw [if_neg h, if_pos]
    simpa [imp_iff_not_or, or_assoc] using h

/-- EVENT_FRAME without a new frame takes the head of a receive FIFO. -/
theorem effEventFrame_nil {b : Block} {p : Nat} {vc : Bool} (hon : b.portOn p = true) (hup : (b.port p).up = true) :
    effEventFrame b p vc [] = b.rxTake p vc := by
  simp [effEventFrame, hon, hup]

/-- A frame that arrives while the other FIFO is empty joins its own (R300). -/
theorem effEventFrame_joins {b : Block} {p : Nat} {vc : Bool} {arr : List (BitVec 128)} {f : Frame} (hon : b.portOn p = true)
    (hup : (b.port p).up = true) (hf : frameRx arr = .event f) (hempty : (if vc then (b.port p).rx1 else (b.port p).rx0) = [])
    (hvc : f.vc ≠ vc) (hroom : (if f.vc then (b.port p).rx1 else (b.port p).rx0).length < if f.vc then 64 else 192) :
    effEventFrame b p vc arr =
      (b.setPort p (if f.vc then { b.port p with rx1 := (b.port p).rx1 ++ [f] } else { b.port p with rx0 := (b.port p).rx0 ++ [f] })).cnt48
        pgJL (0x098 + 0x20 * p) (0x09C + 0x20 * p) := by
  have harr : arr.isEmpty = false := by
    cases arr with
    | nil => cases hf
    | cons => rfl
  have htake : effEventFrame b p vc arr = (b.rxIn p f).rxTake p vc := by
    simp only [effEventFrame, hon, hup, harr, hf, Bool.not_true, Bool.or_self, Bool.false_eq_true, if_false]
  rw [htake, Block.rxIn, if_neg (Nat.not_le.mpr hroom)]
  refine Block.rxTake_of_empty ?_
  rw [Block.port_cnt48, Block.port_setPort, ← hempty]
  cases vc
  · rw [(Bool.not_eq_false _).mp hvc]; rfl
  · rw [(Bool.not_eq_true _).mp hvc]; rfl

/-- SLEEP is answered at once where nothing else is presented and the arbiter picks the answer (R311). -/
theorem effSleep_of_sleep {b : Block} {p : Nat} {beats : List (BitVec 128)} (hon : b.portOn p = true) (hup : (b.port p).up = true)
    (hf : frameRx beats = .sleep) (hc : (b.port p).ctl = []) (ht : (b.port p).time = false)
    (hpick : (b.setPort p { b.port p with peerAsleep := true, ctl := [3] }).txPick p = some 18) : effSleep b p beats =
      (b.setPort p { b.port p with peerAsleep := true, txOut := [b.ctlBeat 3] }).granted (.juwaTx p) 18 := by
  have hsend : effSleep b p beats = (b.setPort p { b.port p with peerAsleep := true }).sendCtl p 3 := by
    simp only [effSleep, hon, hup, hf, Bool.not_true, Bool.or_self, Bool.false_eq_true, if_false]
  rw [hsend, Block.sendCtl_of_quiet (by simpa using ht) (by simpa using hc) (by simpa using hpick)]
  simp only [Block.port_setPort, Block.setPort_setPort]
  rfl

/-- A SLEEP_ACK after the port's own SLEEP is noted (R311). -/
theorem effSleepAck_of_sent {b : Block} {p : Nat} {beats : List (BitVec 128)} (hon : b.portOn p = true) (hup : (b.port p).up = true)
    (hf : frameRx beats = .sleepAck) (hsent : (b.port p).sleepSent = true) :
    effSleepAck b p beats = b.setPort p { b.port p with ackGot := true } := by
  simp [effSleepAck, Block.sendSleep, hon, hup, hf, hsent]

/-- A TIME frame stamps, answers an echo with offset and delay, and steers GT where it may (R313, R314). -/
theorem effTimeFrame_of_time {b : Block} {p : Nat} {beats : List (BitVec 128)} {valid echo : Bool} {tx etx erx : Gt}
    (hon : b.portOn p = true) (hup : (b.port p).up = true) (hf : frameRx beats = .time valid echo tx etx erx) :
    effTimeFrame b p beats =
      let theta := (gtDiff b.tu.ns tx - gtDiff erx etx) / 2
      let delay := (gtDiff b.tu.ns tx + gtDiff erx etx) / 2
      let j : JPort := { b.port p with peerValid := valid, echo := some (tx, b.tu.ns) }
      let c := b.setPort p (if echo then { j with theta := BitVec.ofInt 32 theta, delay := BitVec.ofInt 32 delay } else j)
      if b.tuFollow && b.tuPort == p && valid then (if echo then c.heardFrame.steer theta else c.heardFrame) else c := by
  have hsteers : ∀ x, (!(b.setPort p x).tuFollow || (b.setPort p x).tuPort != p || !valid) =
      !(b.tuFollow && b.tuPort == p && valid) := fun _ => by
    simp only [bne, Bool.not_and]
    rfl
  simp only [effTimeFrame, hon, hup, hf, hsteers, Bool.not_true, Bool.or_self, Bool.false_eq_true, if_false]
  cases b.tuFollow && b.tuPort == p && valid <;> rfl

/-- The HELLO of another block gives its credits, and the port comes up if it has sent its own (R310). -/
theorem effHello_of_peer {b : Block} {p : Nat} {beats : List (BitVec 128)} {n : BitVec 16} {g0 : BitVec 8} {g1 : BitVec 7}
    (hon : b.portOn p = true) (hf : frameRx beats = .hello n g0 g1) (hn : n ≠ b.inst) : effHello b p beats =
      let j : JPort := { b.port p with peer := n, helloGot := true, peerAsleep := false, cred0 := g0, cred1 := g1, trk := [] }
      if (b.port p).up = false ∧ (b.port p).ready = true ∧ (b.port p).helloSent = true
      then (b.setPort p { j with up := true }).flag pgJL 0 else b.setPort p j := by
  simp only [effHello, hon, hf, hn, Bool.not_true, Bool.false_eq_true, if_false, Block.comeUp_setPort, and_true]

/-! ### Frames that arrive -/

/-- Settles O45: each frame at a port that takes it is its effect on the port, its lanes or its bank. -/
theorem juwaFramesArrive : Obligations.JuwaFramesArrive := by
  unfold Obligations.JuwaFramesArrive
  intro s p hon j frees
  refine ⟨fun beats hf => ?_, fun hup => ⟨?_, ?_, ?_, ?_, ?_, ?_, ?_⟩, ?_⟩
  · dsimp only
    rw [← Block.badFrame_none]
    refine ⟨.of_effect rfl ?_, fun hup => ?_⟩
    · simp [effHello, hon, hf]
    · replace hup : (s.blk.port p).up = true := hup
      exact ⟨.of_effect rfl (by simp [effCreditFrame, hon, hup, hf]), .of_effect rfl (by simp [effTimeFrame, hon, hup, hf]),
        .of_effect rfl (by simp [effSleep, hon, hup, hf]), .of_effect rfl (by simp [effSleepAck, hon, hup, hf])⟩
  · exact fun vc arr f hf hempty hvc hroom => .of_effect rfl (effEventFrame_joins hon hup hf hempty hvc hroom)
  · intro vc f rest hhead hdest hlen e q k hpick hasks x hp
    have htake := (effEventFrame_nil (vc := vc) hon hup).trans (Block.rxTake_of_local hhead hdest hpick hasks)
    refine ⟨fun hm => ?_, fun hm => .of_effect rfl (htake.trans ?_)⟩
    · have hpmu := Block.pmuEv_notes (s.blk.setPend f.revent { x with p := true }) 0x09 q 1
      rw [Block.admitFrame_of_masked hlen hp hm] at htake
      exact .of_effect rfl (htake.trans (Block.rxPop_of_head (Block.port_pmuEv ..) (Block.pmuEv_clk ..) hhead))
        ((hpmu.granted (.pendBank q) (8 + p)).setPort p (frees vc rest))
    · rw [Block.admitFrame_of_open hlen hp hm]
      exact Block.rxPop_of_head rfl rfl hhead
  · intro vc f rest out hhead hdest hout hhops g l x goes
    have hgoes : ∀ l' : Lanes, s.blk.transit p f = some (s.blk.withLanes f.oeng.toNat out.toNat l') → goes l' := fun l' ht =>
      .of_effect rfl (((effEventFrame_nil (vc := vc) hon hup).trans (Block.rxTake_of_transit hhead hdest ht)).trans
        (Block.rxPop_of_head rfl rfl hhead))
    exact ⟨fun hvc hroom => hgoes _ (Block.transit_vc1 hout hhops rfl hvc hroom),
      fun hvc hpin hroom => hgoes _ (Block.transit_pin hout hhops rfl hvc hpin hroom),
      fun hvc hpin hroom => hgoes _ (Block.transit_vc0 hout hhops rfl hvc hpin hroom)⟩
  · exact fun beats c0 c1 hf => .of_effect rfl (by simp [effCreditFrame, hon, hup, hf, j])
  · exact fun beats valid echo tx etx erx hf => .of_effect rfl (effTimeFrame_of_time hon hup hf)
  · exact fun beats hf hc ht hpick => .of_effect rfl (effSleep_of_sleep hon hup hf hc ht hpick)
  · exact fun beats hf hsent => .of_effect rfl (effSleepAck_of_sent hon hup hf hsent)
  · refine fun beats n g0 g1 hf => ⟨fun hn => .of_effect rfl ?_, fun hn => .of_effect rfl (effHello_of_peer hon hf hn)⟩
    simp [effHello, hon, hf, hn]

end Sys2Proof.Machine

namespace Sys2Proof.Machine

/-! ### An origin frame's arrival is placed (R50, R106) -/

/-- Freeing a payload concerns the payload entries only. -/
theorem Block.freePay_parts {b c : Block} (h : b.pays = c.pays) (o : Option Nat) :
    b.freePay o = { b with pays := (c.freePay o).pays } := by
  cases o with
  | none => simp only [Block.freePay, ← h]
  | some i => simp only [Block.freePay, h]

theorem Block.readPay_parts {b c : Block} (h : b.pays = c.pays) (o : Option Nat) :
    b.readPay o = { b with pays := (c.readPay o).pays } := by
  unfold Block.readPay
  rw [h]
  split
  · split
    · split
      · exact Block.freePay_parts h _
      · rfl
    · rw [← h]
  · rw [← h]

/-- The payloads that an arrival leaves without a reader are freed (R106). -/
def Block.freePays (b : Block) (l : List Nat) : Block := l.foldl (fun b i => b.freePay (some i)) b

theorem Block.freePays_parts {b c : Block} (hpend : b.pend = c.pend) (hpays : b.pays = c.pays) (l : List Nat) :
    b.freePays l = { b with pend := (c.freePays l).pend, pays := (c.freePays l).pays } := by
  induction l generalizing b c with
  | nil =>
    rw [Block.freePays, Block.freePays, List.foldl_nil, List.foldl_nil, ← hpend, ← hpays]
  | cons i l ih =>
    have herase : (b.freePay (some i)).pays = (c.freePay (some i)).pays := congrArg (·.erase i) hpays
    exact (ih (b := b.freePay (some i)) (c := c.freePay (some i)) hpend herase).trans rfl

/-- Placing an arrival concerns the pending array and the payload entries only. -/
theorem Block.place_parts {b c : Block} (hpend : b.pend = c.pend) (hpays : b.pays = c.pays) (e : Event) :
    b.place e = { b with pend := (c.place e).pend, pays := (c.place e).pays } := by
  have hof : b.pendOf e = c.pendOf e := congrArg (·.get {} e.toNat) hpend
  unfold Block.place
  rw [hof]
  dsimp only
  split
  · next f _ =>
    have hset := congrArg (fun m => m.set {} e.toNat { c.pendOf e with p := false, fl := none }) hpend
    exact Block.freePays_parts (b := b.setPend e _) (c := c.setPend e _) hset hpays f.frees
  · rw [← hpend, ← hpays]

/-- The arrival of a frame that leaves its lane is placed, if it is one of this block (R50). -/
def Block.placeOrigin (b : Block) (x : LaneFrame) : Block :=
  match x.local? with
  | some e => (b.place e).readPay x.pay
  | none => b

theorem Block.placeOrigin_parts {b c : Block} (hpend : b.pend = c.pend) (hpays : b.pays = c.pays) (x : LaneFrame) :
    b.placeOrigin x = { b with pend := (c.placeOrigin x).pend, pays := (c.placeOrigin x).pays } := by
  unfold Block.placeOrigin
  split
  · next e _ =>
    have hplace := Block.place_parts hpend hpays e
    rw [Block.readPay_parts (c := c.place e) (by rw [hplace]), hplace]
    have hkeep := congrArg Block.pend (Block.readPay_parts (b := c.place e) rfl x.pay)
    rw [hkeep]
  · rw [← hpend, ← hpays]

theorem Block.placeOrigin_setPort (b : Block) (p : Nat) (j : JPort) (x : LaneFrame) :
    (b.setPort p j).placeOrigin x = (b.placeOrigin x).setPort p j :=
  (Block.placeOrigin_parts (b := b.setPort p j) (c := b) rfl rfl x).trans
    (congrArg (·.setPort p j) (Block.placeOrigin_parts (b := b) (c := b) rfl rfl x)).symm

theorem Block.placeOrigin_answer (b : Block) (err : Bool) (d : BitVec 64) (x : LaneFrame) :
    (b.answer err d).placeOrigin x = (b.placeOrigin x).answer err d :=
  (Block.placeOrigin_parts (b := b.answer err d) (c := b) rfl rfl x).trans
    (congrArg (·.answer err d) (Block.placeOrigin_parts (b := b) (c := b) rfl rfl x)).symm

@[simp] theorem Block.placeOrigin_eng (b : Block) (x : LaneFrame) : (b.placeOrigin x).eng = b.eng :=
  (congrArg Block.eng (Block.placeOrigin_parts (b := b) rfl rfl x)).trans rfl

@[simp] theorem Block.placeOrigin_fab (b : Block) (x : LaneFrame) : (b.placeOrigin x).fab = b.fab :=
  (congrArg Block.fab (Block.placeOrigin_parts (b := b) rfl rfl x)).trans rfl

@[simp] theorem Block.placeOrigin_clk (b : Block) (x : LaneFrame) : (b.placeOrigin x).clk = b.clk :=
  (congrArg Block.clk (Block.placeOrigin_parts (b := b) rfl rfl x)).trans rfl

end Sys2Proof.Machine

namespace Sys2Proof.Machine

/-! ### A head leaves its lane (R305, R306) -/

/-- The lanes without the head of one: what follows it waits as head from now on. -/
def Lanes.behead (l : Lanes) (b : Block) : LaneId → Lanes
  | .vc1 => { l with vc1 := laneOut b l.vc1 }
  | .pin => { l with pin := laneOut b l.pin }
  | .vc0 => { l with vc0 := laneOut b l.vc0 }

theorem Lanes.behead_congr {b c : Block} (h : c.clk = b.clk) (l : Lanes) (i : LaneId) : l.behead c i = l.behead b i := by
  simp only [Lanes.behead, laneOut, h]

/-- A lane's head as it leaves on a VC: one of this block carries its arrival's merge count and payload (R305, R403). -/
def Block.sentFrame (b : Block) (x : LaneFrame) (vc : Bool) : Frame :=
  match x.local? with
  | some e =>
    let plen := if b.payBad x.pay then 0 else x.fr.plen
    { x.fr with vc, plen, merge := b.mergeOf e, bytes := (b.payBytes x.pay).take plen.toNat }
  | none => { x.fr with vc }

/-- A port after a frame has used a credit of its VC and a tracker (R306). -/
def JPort.spent (j : JPort) (vc : Bool) (t : Tag) : JPort :=
  { j with cred0 := if vc then j.cred0 else j.cred0 - 1, cred1 := if vc then j.cred1 - 1 else j.cred1, trk := j.trk ++ [(vc, t)] }

/-- What a frame that leaves counts and reports; an escaped one counts as such too (R308). -/
def Block.countSent (b : Block) (p : Nat) (escape : Bool) : Block :=
  let b := (b.cnt48 pgJL (0x090 + 0x20 * p) (0x094 + 0x20 * p)).pmuEv 0x17 p
  if escape then ((b.cnt pgJL 0x044).flag pgJL 2).pmuEv 0x18 p else b

theorem Block.countSent_notes (b : Block) (p : Fin 4) (escape : Bool) :
    Block.Notes [pgJL, pgPMU, pgRM] b (b.countSent p escape) := by
  have hp := p.isLt
  have hsent : Block.Notes [pgJL, pgPMU, pgRM] b ((b.cnt48 pgJL (0x090 + 0x20 * p) (0x094 + 0x20 * p)).pmuEv 0x17 p) :=
    ((Block.cnt48_notes b pgJL _ _ 1 (by omega) (by omega)).of (by simp)).trans ((Block.pmuEv_notes _ 0x17 p 1).of (by simp))
  unfold Block.countSent
  dsimp only
  split
  · exact ((hsent.trans ((Block.cnt_notes _ pgJL 0x044 1 (by decide)).of (by simp))).trans
      ((Block.flag_notes _ pgJL 2).of (by simp))).trans ((Block.pmuEv_notes _ 0x18 p 1).of (by simp))
  · exact hsent

section SendHead

variable {b : Block} {p n : Nat} {i : LaneId} {x : LaneFrame} {vc : Bool}

theorem Block.lanePop_of_empty (h : (b.engine n).mcq = []) :
    b.lanePop p n i = b.withLanes n p (((b.engine n).lane p).behead b i) := by
  unfold Block.lanePop
  dsimp only
  rw [Block.drainMc_of_empty (by simpa using h)]
  cases i <;> rfl

theorem Block.withLanes_setPort (b : Block) (n p q : Nat) (l : Lanes) (j : JPort) :
    (b.setPort q j).withLanes n p l = (b.withLanes n p l).setPort q j := rfl

theorem Block.tx_setPort (b : Block) (p : Nat) (j : JPort) (beats : List (BitVec 128)) :
    (b.setPort p j).tx p beats = b.setPort p { j with txOut := beats } := by
  simp [Block.tx]

theorem Block.sendHead_eq (hhead : oldestHead (b.heads p n) = some (i, x, vc)) : b.sendHead p n =
    ((((b.setPort p ((b.port p).spent vc x.tag)).placeOrigin x).lanePop p n i).tx p
      (eventBeats (b.sentFrame x vc))).countSent p (vc && i == .vc0) := by
  unfold Block.sendHead
  rw [hhead]
  rfl

/-- The oldest eligible head of an engine whose multicast queue is empty leaves its lane. -/
theorem Block.sendHead_of_empty (hmcq : (b.engine n).mcq = []) (hhead : oldestHead (b.heads p n) = some (i, x, vc)) :
    b.sendHead p n = (((b.placeOrigin x).withLanes n p (((b.engine n).lane p).behead b i)).setPort p
      { (b.port p).spent vc x.tag with txOut := eventBeats (b.sentFrame x vc) }).countSent p (vc && i == .vc0) := by
  have heng : ((b.placeOrigin x).setPort p ((b.port p).spent vc x.tag)).engine n = b.engine n :=
    congrArg (·.get {} n) (Block.placeOrigin_eng b x)
  have hclk : ((b.placeOrigin x).setPort p ((b.port p).spent vc x.tag)).clk = b.clk := Block.placeOrigin_clk b x
  rw [Block.sendHead_eq hhead, Block.placeOrigin_setPort, Block.lanePop_of_empty (by rw [heng, hmcq]), heng,
    Lanes.behead_congr hclk, Block.withLanes_setPort, Block.tx_setPort]

end SendHead

end Sys2Proof.Machine

namespace Sys2Proof.Machine

/-! ### What leaves a quiet port (R305 to R312) -/

section Sends

variable {b : Block} {p : Fin 4}

theorem Block.port_countSent (b : Block) (p : Fin 4) (escape : Bool) : (b.countSent p escape).port p = b.port p :=
  (Block.countSent_notes b p escape).eq_field (·.port p) fun _ _ _ _ _ => rfl

theorem Block.engine_countSent (b : Block) (p : Fin 4) (escape : Bool) (n : Nat) : (b.countSent p escape).engine n = b.engine n :=
  (Block.countSent_notes b p escape).eq_field (·.engine n) fun _ _ _ _ _ => rfl

/-- A frame in transit leaves as it is, on the VC of its credit. -/
theorem Block.sentFrame_of_transit (b : Block) {x : LaneFrame} (h : x.local? = none) (vc : Bool) :
    b.sentFrame x vc = { x.fr with vc } := by
  simp only [Block.sentFrame, h]

/-- A frame of this block without payload carries its arrival's merge count. -/
theorem Block.sentFrame_of_origin (b : Block) {x : LaneFrame} {e : Event} (h : x.local? = some e) (hlen : x.fr.plen = 0)
    (vc : Bool) : b.sentFrame x vc = { x.fr with vc, merge := b.mergeOf e, bytes := [] } := by
  simp [Block.sentFrame, h, hlen]

/-- JUWA_TRANSMIT of the head that the arbiter picks, where nothing else is presented (R305, R306). -/
theorem effJuwaTransmit_of_head {n : Fin 16} {i : LaneId} {x : LaneFrame} {vc : Bool} (ht : (b.port p).time = false)
    (hc : (b.port p).ctl = []) (hpick : b.txPick p = some n.val) (hmcq : (b.engine n).mcq = [])
    (hhead : oldestHead (b.heads p n) = some (i, x, vc)) : effJuwaTransmit b p n =
      ((((b.placeOrigin x).withLanes n p (((b.engine n).lane p).behead b i)).setPort p
        { (b.port p).spent vc x.tag with txOut := eventBeats (b.sentFrame x vc) }).countSent p (vc && i == .vc0)).granted
          (.juwaTx p) n := by
  rw [effJuwaTransmit, if_pos (by simp [n.isLt, hpick]), Block.sendHead_of_empty hmcq hhead, Block.sendWaiting_of_quiet]
  · rw [Block.port_granted, Block.port_countSent, Block.port_setPort]
    exact ht
  · rw [Block.port_granted, Block.port_countSent, Block.port_setPort]
    exact hc

/-- ESCAPE of a VC0 head that has lacked credit for ESC_CYC cycles (R308). -/
theorem effEscape_of_dry {n : Nat} {x : LaneFrame} {rest : List LaneFrame} (hon : b.dpOn = true) (hup : (b.port p).up = true)
    (hl : ((b.engine n).lane p).vc0 = x :: rest) (hesc : x.escaped = false) (hcred : (b.port p).cred0 = 0)
    (hdry : (b.regFld pgJL 0x040 15 0).toNat ≤ x.dry) : effEscape b p n =
      b.withLanes n p { (b.engine n).lane p with vc0 := { x with escaped := true } :: rest } := by
  simp only [effEscape, hl]
  rw [if_neg (by simp [hon, hup, hesc, hcred, hdry])]
  rfl

/-- CREDIT_RETURN that the arbiter picks (R307). -/
theorem effCreditReturn_of_pick (ht : (b.port p).time = false) (hc : (b.port p).ctl = []) (hpick : b.txPick p = some 17) :
    effCreditReturn b p = (b.setPort p { b.port p with
      ret0 := 0, ret1 := 0, txOut := [creditBeat (b.port p).ret0 (b.port p).ret1] }).granted (.juwaTx p) 17 := by
  rw [effCreditReturn, if_pos hpick, Block.tx_setPort, Block.sendWaiting_of_quiet]
  · simpa using ht
  · simpa using hc

/-- WAKE_SEND with an eligible head towards a peer asleep, the first or 16 µs after the last (R312). -/
theorem effWakeSend_of_wait (hon : b.dpOn = true) (hup : (b.port p).up = true) (ht : (b.port p).time = false)
    (hc : (b.port p).ctl = []) (hasleep : (b.port p).peerAsleep = true) (hwait : ∃ n, n < 16 ∧ b.heads p n ≠ [])
    (hlast : (b.port p).lastWake = 0 ∨ (b.port p).lastWake.toNat + 16000 ≤ b.gt.toNat)
    (hpick : (b.setPort p { b.port p with lastWake := b.gt, ctl := [4] }).txPick p = some 18) : effWakeSend b p =
      (b.setPort p { b.port p with lastWake := b.gt, txOut := [b.ctlBeat 4] }).granted (.juwaTx p) 18 := by
  have hany : ((List.range 16).any fun n => !(b.heads p n).isEmpty) = true := by
    obtain ⟨n, hn, hne⟩ := hwait
    exact List.any_eq_true.mpr ⟨n, List.mem_range.mpr hn, by simpa using hne⟩
  have hdue : ((b.port p).lastWake != 0 && decide (b.gt.toNat < (b.port p).lastWake.toNat + 16000)) = false := by
    rcases hlast with h | h
    · simp [h]
    · simp [Nat.not_lt.mpr h]
  have hsend : effWakeSend b p = (b.setPort p { b.port p with lastWake := b.gt }).sendCtl p 4 := by
    rw [effWakeSend, hany, hdue]
    simp [hon, hup, hasleep]
  rw [hsend, Block.sendCtl_of_quiet (by simpa using ht) (by simpa using hc) (by simpa using hpick)]
  simp only [Block.port_setPort, Block.setPort_setPort]
  rfl

/-- HELLO_SEND of a port that is down with its link ready, the first or 4,096 cycles after the last (R310). -/
theorem effHelloSend_of_due (hon : b.portOn p = true) (hup : (b.port p).up = false) (ht : (b.port p).time = false)
    (hc : (b.port p).ctl = []) (hready : (b.port p).ready = true)
    (hlast : (b.port p).helloSent = false ∨ (b.port p).lastHello + 4096 ≤ b.clk.dclk)
    (hpick : (b.setPort p { b.port p with helloSent := true, lastHello := b.clk.dclk, ctl := [1] }).txPick p = some 18) :
    effHelloSend b p =
      let j : JPort := { b.port p with helloSent := true, lastHello := b.clk.dclk, txOut := [b.ctlBeat 1] }
      let c (j : JPort) : Block := (b.setPort p j).granted (.juwaTx p) 18
      if (b.port p).helloGot then (c { j with up := true }).flag pgJL 0 else c j := by
  have hdue : ((b.port p).helloSent && decide (b.clk.dclk < (b.port p).lastHello + 4096)) = false := by
    rcases hlast with h | h
    · simp [h]
    · simp [Nat.not_lt.mpr h]
  have hsend : effHelloSend b p =
      ((b.setPort p { b.port p with helloSent := true, lastHello := b.clk.dclk }).sendCtl p 1).comeUp p := by
    rw [effHelloSend, hdue]
    simp [hon, hup, hready]
  have hcomm : ∀ j, (b.setPort p j).granted (.juwaTx p) 18 = (b.granted (.juwaTx p) 18).setPort p j := fun _ => rfl
  rw [hsend, Block.sendCtl_of_quiet (by simpa using ht) (by simpa using hc) (by simpa using hpick)]
  simp only [Block.port_setPort, Block.setPort_setPort, hcomm, Block.comeUp_setPort, hup, hready, true_and]
  rfl

/-- PORT_UP: the link is ready, and the port comes up after both HELLOs (R310). -/
theorem effPortUp_of_down (hon : b.portOn p = true) (hup : (b.port p).up = false) : effPortUp b p =
    if (b.port p).helloSent = true ∧ (b.port p).helloGot = true
    then (b.setPort p { b.port p with ready := true, up := true }).flag pgJL 0 else b.setPort p { b.port p with ready := true } := by
  have hset : ∀ x : JPort, (b.setPort p x).portOn p = b.portOn p := fun _ => rfl
  simp only [effPortUp, hset, hon, if_true, Block.comeUp_setPort, hup, true_and]

end Sends

end Sys2Proof.Machine

namespace Sys2Proof.Machine

/-! ### A port goes down (R310) -/

/-- A flag is set before or after a port changes. -/
theorem Block.flag_setPort (b : Block) (p : Nat) (j : JPort) (pg i : Nat) :
    (b.setPort p j).flag pg i = (b.flag pg i).setPort p j := by
  simp only [Block.flag, Block.raise, Block.even, Block.evenLog, Block.rmLog, apply_ite (Block.setPort · p j)]
  rfl

theorem Block.jlDrop_setPort (b : Block) (p : Nat) (j : JPort) (dest : BitVec 16) (cause : BitVec 4) (port : BitVec 2) :
    (b.setPort p j).jlDrop dest cause port = (b.jlDrop dest cause port).setPort p j := by
  rw [Block.jlDrop, Block.jlDrop, ← Block.flag_setPort]
  rfl

theorem Block.jlDrop_answer (b : Block) (err : Bool) (d : BitVec 64) (dest : BitVec 16) (cause : BitVec 4) (port : BitVec 2) :
    (b.answer err d).jlDrop dest cause port = (b.jlDrop dest cause port).answer err d := by
  rw [Block.jlDrop, Block.jlDrop, ← Block.flag_answer]
  rfl

/-- A frame lost with its link is dropped and its arrival placed. -/
theorem Block.linkLoss_eq (p : Nat) (b : Block) (x : LaneFrame) :
    Block.linkLoss p b x = (b.jlDrop x.fr.dest 5 (BitVec.ofNat 2 p)).placeOrigin x := rfl

theorem Block.linkLoss_setPort (p q : Nat) (b : Block) (j : JPort) (x : LaneFrame) :
    Block.linkLoss p (b.setPort q j) x = (Block.linkLoss p b x).setPort q j := by
  simp only [Block.linkLoss_eq, Block.jlDrop_setPort, Block.placeOrigin_setPort]

theorem Block.linkLoss_answer (p : Nat) (b : Block) (err : Bool) (d : BitVec 64) (x : LaneFrame) :
    Block.linkLoss p (b.answer err d) x = (Block.linkLoss p b x).answer err d := by
  simp only [Block.linkLoss_eq, Block.jlDrop_answer, Block.placeOrigin_answer]

theorem Block.linkLoss_eng (p : Nat) (b : Block) (x : LaneFrame) : (Block.linkLoss p b x).eng = b.eng := by
  rw [Block.linkLoss_eq, Block.placeOrigin_eng, Block.jlDrop, Block.flag_eng]
  rfl

/-- All frames lost with a port's link. -/
def Block.linkLosses (b : Block) (p : Nat) (l : List LaneFrame) : Block := l.foldl (Block.linkLoss p) b

theorem Block.linkLosses_setPort (b : Block) (p q : Nat) (j : JPort) (l : List LaneFrame) :
    (b.setPort q j).linkLosses p l = (b.linkLosses p l).setPort q j :=
  List.foldl_hom (Block.setPort · q j) fun c x => Block.linkLoss_setPort p q c j x

theorem Block.linkLosses_answer (b : Block) (err : Bool) (d : BitVec 64) (p : Nat) (l : List LaneFrame) :
    (b.answer err d).linkLosses p l = (b.linkLosses p l).answer err d :=
  List.foldl_hom (Block.answer · err d) fun c x => Block.linkLoss_answer p c err d x

theorem Block.linkLosses_eng (b : Block) (p : Nat) (l : List LaneFrame) : (b.linkLosses p l).eng = b.eng := by
  induction l generalizing b with
  | nil => rfl
  | cons x l ih => exact (ih _).trans (Block.linkLoss_eng p b x)

/-- A port that is not up, as the link leaves it: what it has learnt of its peer stays. -/
def JPort.linkLost (j : JPort) : JPort :=
  { ready := j.ready, peer := j.peer, peerValid := j.peerValid, theta := j.theta, delay := j.delay, txOut := j.txOut }

/-- What a port that goes down loses: the frames of its lanes and of its FIFOs. -/
def Block.lostFrames (b : Block) (p : Nat) : List LaneFrame :=
  b.portLanes p ++ ((b.port p).rx0 ++ (b.port p).rx1).map fun f => ({ fr := f } : LaneFrame)

/-- The block without the lanes of a port. -/
def Block.noLanes (b : Block) (p : Nat) : Block :=
  { b with eng := b.eng.mapVals fun _ e => { e with lanes := e.lanes.set {} p {} } }

/-- Every engine goes on with its multicast queue. -/
def Block.drainAll (b : Block) : Block := (b.eng.cells.map Prod.fst).foldl (fun b n => b.drainMc n 200) b

section GoDown

variable {b : Block} {p : Nat}

theorem Block.goDown_of_down (h : (b.port p).up = false) :
    b.goDown p = b.setPort p { (b.port p).linkLost with lastHello := (b.port p).lastHello } := by
  simp only [Block.goDown, h]
  rfl

theorem Block.goDown_of_up (h : (b.port p).up = true) :
    b.goDown p = ((((b.noLanes p).setPort p (b.port p).linkLost).linkLosses p (b.lostFrames p)).drainAll).flag pgJL 1 := by
  simp only [Block.goDown, h]
  rfl

/-- Multicast queues that are empty give nothing. -/
theorem Block.drainAll_of_empty (h : ∀ e ∈ b.eng.cells, e.2.mcq = []) : b.drainAll = b := by
  have hmcq : ∀ n, (b.engine n).mcq = [] := fun n => by
    rw [Block.engine, Map.get]
    cases hn : b.eng.find? n with
    | none => rfl
    | some e => exact h _ (Map.mem_of_find? hn)
  unfold Block.drainAll
  generalize b.eng.cells.map Prod.fst = l
  induction l with
  | nil => rfl
  | cons n l ih => rw [List.foldl_cons, Block.drainMc_of_empty (hmcq n), ih]

/-- PORT_DOWN of a port that is not up (R310). -/
theorem effPortDown_of_down (h : (b.port p).up = false) : effPortDown b p =
    b.setPort p { (b.port p).linkLost with ready := false, lastHello := (b.port p).lastHello } := by
  simp [effPortDown, Block.goDown_of_down h]

/-- PORT_DOWN of a port that is up, where no multicast queue holds anything (R310). -/
theorem effPortDown_of_up (h : (b.port p).up = true) (hmcq : ∀ e ∈ b.eng.cells, e.2.mcq = []) : effPortDown b p =
    (((b.noLanes p).setPort p { (b.port p).linkLost with ready := false }).linkLosses p (b.lostFrames p)).flag pgJL 1 := by
  have hempty : ∀ e ∈ ((b.noLanes p).linkLosses p (b.lostFrames p)).eng.cells, e.2.mcq = [] := by
    rw [Block.linkLosses_eng]
    intro e he
    obtain ⟨a, ha, rfl⟩ := List.mem_map.mp he
    exact hmcq a ha
  have hdown : b.goDown p = (((b.noLanes p).linkLosses p (b.lostFrames p)).flag pgJL 1).setPort p (b.port p).linkLost := by
    rw [Block.goDown_of_up h, Block.linkLosses_setPort, Block.drainAll_of_empty (by exact hempty), Block.flag_setPort]
  simp only [effPortDown, hdown, Block.port_setPort, Block.setPort_setPort, Block.linkLosses_setPort, Block.flag_setPort]

end GoDown

end Sys2Proof.Machine

namespace Sys2Proof.Machine

/-! ### Multicast queues go on before or after the port answers (R151, R154) -/

section Answer

variable (b : Block) (err : Bool) (d : BitVec 64)

theorem gotAddr_answer (n : Nat) (c : Cont) (pa : BitVec 64) (dev : Bool) :
    gotAddr (b.answer err d) n c pa dev = ((gotAddr b n c pa dev).1.answer err d, (gotAddr b n c pa dev).2) := by
  have hfree : sharedTrk (b.answer err d) = sharedTrk b := rfl
  simp only [gotAddr, hfree]
  split <;> rfl

theorem startRead_answer (n : Nat) (q : XReq) :
    startRead (b.answer err d) n q = ((startRead b n q).1.answer err d, (startRead b n q).2) := by
  simp only [startRead, xlate_answer]
  obtain ⟨c, r⟩ := xlate b q
  cases r with
  | ok pa dev => exact congrArg (fun r : Block × Phase => (r.1, Sum.inl r.2)) (gotAddr_answer c err d n q.cont pa dev)
  | wait => rfl
  | fault cause level => rfl

theorem Block.place_answer (e : Event) : (b.answer err d).place e = (b.place e).answer err d :=
  (Block.place_parts (b := b.answer err d) (c := b) rfl rfl e).trans
    (congrArg (·.answer err d) (Block.place_parts (b := b) (c := b) rfl rfl e)).symm

theorem Block.readPay_answer (o : Option Nat) : (b.answer err d).readPay o = (b.readPay o).answer err d :=
  (Block.readPay_parts (b := b.answer err d) (c := b) rfl o).trans
    (congrArg (·.answer err d) (Block.readPay_parts (b := b) (c := b) rfl o)).symm

theorem Block.resolveRec_answer (tok : Option Nat) (merged : Bool) :
    (b.answer err d).resolveRec tok merged = (b.resolveRec tok merged).answer err d := by
  cases tok <;> rfl

theorem Block.setGone_answer (n : Nat) (m : McItem) : (b.answer err d).setGone n m = (b.setGone n m).answer err d := by
  simp only [Block.setGone, Block.resolveRec_answer, Block.place_answer]
  rfl

theorem Block.setEngine_answer (n : Nat) (g : Engine) : (b.answer err d).setEngine n g = (b.setEngine n g).answer err d := rfl

theorem Block.readSet_answer (n : Nat) (m : McItem) : (b.answer err d).readSet n m = (b.readSet n m).answer err d := by
  simp only [Block.readSet, Block.engine_answer, Block.setEngine_answer, startRead_answer]
  generalize startRead _ _ _ = r
  obtain ⟨c, ph | f⟩ := r
  · rfl
  · exact Block.setGone_answer c err d n m

theorem Block.forward_answer (n : Nat) (a : Arrival) (r : Rte) :
    (b.answer err d).forward n a r = (b.forward n a r).map (·.answer err d) := by
  have hout : (b.answer err d).outPort r.inst = b.outPort r.inst := rfl
  unfold Block.forward
  rw [hout]
  cases b.outPort r.inst with
  | inr x =>
    simp only [Block.jlDrop_answer, Block.place_answer, Block.readPay_answer]
    rfl
  | inl p =>
    simp only [apply_ite (Option.map _)]
    rfl

theorem Block.drainMc_answer (n fuel : Nat) : (b.answer err d).drainMc n fuel = (b.drainMc n fuel).answer err d := by
  induction fuel generalizing b with
  | zero => rfl
  | succ fuel ih =>
    have hroom : ∀ c, (b.answer err d).insRoom n c = b.insRoom n c := fun _ => rfl
    have henq : ∀ i, (b.answer err d).enqueueIns n i = (b.enqueueIns n i).answer err d := fun _ => rfl
    unfold Block.drainMc
    rw [Block.engine_answer]
    cases (b.engine n).mcq with
    | nil => rfl
    | cons m rest =>
      simp only [Block.engine_answer, Block.setEngine_answer, Block.readSet_answer, Block.forward_answer, henq, hroom, ih]
      cases m.members with
      | none =>
        simp only [apply_ite (Block.answer · err d)]
        cases b.forward n m.arr m.rte with
        | none => rfl
        | some c => simp only [Option.map_some, Block.engine_answer, Block.setEngine_answer, ih]
      | some cs =>
        cases cs with
        | nil => rfl
        | cons c cs => simp only [apply_ite (Block.answer · err d)]

theorem Block.drainAll_answer : (b.answer err d).drainAll = b.drainAll.answer err d :=
  List.foldl_hom (Block.answer · err d) fun c n => Block.drainMc_answer c err d n 200

/-- A port goes down before or after the register port answers. -/
theorem Block.goDown_answer (p : Nat) : (b.answer err d).goDown p = (b.goDown p).answer err d := by
  cases h : (b.port p).up with
  | false =>
    rw [Block.goDown_of_down h, Block.goDown_of_down (by simpa using h)]
    rfl
  | true =>
    have hfirst : ((b.answer err d).noLanes p).setPort p ((b.answer err d).port p).linkLost =
      ((b.noLanes p).setPort p (b.port p).linkLost).answer err d := rfl
    have hlost : (b.answer err d).lostFrames p = b.lostFrames p := rfl
    rw [Block.goDown_of_up h, Block.goDown_of_up (by simpa using h), hfirst, hlost, Block.linkLosses_answer, Block.drainAll_answer,
      Block.flag_answer]

end Answer

theorem Block.linkLosses_queue (b : Block) (p : Nat) (l : List LaneFrame) : (b.linkLosses p l).fab.q = b.fab.q := by
  induction l generalizing b with
  | nil => rfl
  | cons x l ih =>
    refine (ih _).trans ?_
    rw [Block.linkLoss_eq, Block.placeOrigin_fab, Block.jlDrop, Block.flag_queue]
    rfl

theorem Block.drainAll_queue (b : Block) : b.drainAll.fab.q = b.fab.q :=
  ((Block.AdmitsNone.refl b).foldl _ fun n h => h.drainMc n 200).queue

/-- A port that goes down leaves the queue of the register port. -/
theorem Block.goDown_queue (b : Block) (p : Nat) : (b.goDown p).fab.q = b.fab.q := by
  cases h : (b.port p).up with
  | false => rw [Block.goDown_of_down h]; rfl
  | true =>
    rw [Block.goDown_of_up h, Block.flag_queue, Block.drainAll_queue, Block.linkLosses_queue]
    rfl

/-! ### JL_Pn_CTL (R310) -/

theorem pgClass_jl : pgClass pgJL = some .jl := rfl

theorem defOf_jl_ctl (p : Fin 4) : defOf .jl (0x080 + 0x20 * p) = { rw := 1, key := true, atOnce := true } := by
  revert p
  decide

/-- What a write of JL_Pn_CTL makes of the block: its value, and with EN = 0 the port goes down. -/
def Block.portCtl (b : Block) (p : Fin 4) (v : Word) : Block :=
  let c := b.setReg pgJL (0x080 + 0x20 * p) (blend 1 (b.reg pgJL (0x080 + 0x20 * p)) v)
  if bit v 0 then c else c.goDown p

theorem Block.applyJl_ctl (b : Block) (p : Fin 4) (v : Word) : b.applyJl (0x080 + 0x20 * p) v = b.portCtl p v := by
  have hstore : b.store pgJL .jl (0x080 + 0x20 * p) v =
      b.setReg pgJL (0x080 + 0x20 * p) (blend 1 (b.reg pgJL (0x080 + 0x20 * p)) v) := by
    rw [Block.store, defOf_jl_ctl]
  rw [Block.portCtl, ← hstore]
  fin_cases p <;> rfl

theorem Block.portCtl_queue (b : Block) (p : Fin 4) (v : Word) : (b.portCtl p v).fab.q = b.fab.q := by
  unfold Block.portCtl
  split
  · rfl
  · exact Block.goDown_queue _ p

theorem Block.portCtl_answer (b : Block) (err : Bool) (d : BitVec 64) (p : Fin 4) (v : Word) :
    (b.answer err d).portCtl p v = (b.portCtl p v).answer err d := by
  simp only [Block.portCtl, apply_ite (Block.answer · err d), ← Block.goDown_answer]
  rfl

/-- Opening the page of the Juwa ports gates units only. -/
theorem Block.opened_jl (b : Block) (off : Nat) :
    ∃ g m, b.opened pgJL off = { b.relock pgJL with clk := { b.clk with gated := g, busyAt := m } } :=
  Block.opened_of_plain pgClass_jl rfl

theorem Block.wrote_jl (b : Block) (off : Nat) (w : RegAcc) :
    ∃ g m, b.wrote pgJL off w = { b.relock pgJL with clk := { b.clk with gated := g, busyAt := m } }.answer false 0 := by
  obtain ⟨g, m, ho⟩ := b.opened_jl off
  exact ⟨g, m, (Block.wrote_of_plain pgClass_jl rfl).trans (by rw [ho])⟩

theorem Block.reg_wrote_jl (b : Block) (off : Nat) (w : RegAcc) (pg o : Nat) : (b.wrote pgJL off w).reg pg o = b.reg pg o := by
  obtain ⟨g, m, h⟩ := b.wrote_jl off w
  rw [h]
  rfl

theorem Block.stval_opened_jl (b : Block) {off : Nat} (h : 0x40 ≤ off) (w : RegAcc) :
    storedVal .jl off ((b.opened pgJL off).wval pgJL off w) = b.stval pgJL off w := by
  obtain ⟨g, m, ho⟩ := b.opened_jl off
  have hlow : ¬ off < 0x40 := by omega
  have hval : (b.opened pgJL off).wval pgJL off w = b.wval pgJL off w := by
    rw [ho]
    simp only [Block.wval, pgClass_jl, Block.readReg, if_neg hlow]
    rfl
  rw [hval, Block.stval, pgClass_jl]

/-- The block after an accepted write of JL_Pn_CTL, with the register's value stored. -/
def Block.ctlWritten (b : Block) (p : Fin 4) (w : RegAcc) : Block :=
  (b.wrote pgJL (0x080 + 0x20 * p) w).setReg pgJL (0x080 + 0x20 * p)
    (blend 1 (b.reg pgJL (0x080 + 0x20 * p)) (b.stval pgJL (0x080 + 0x20 * p) w))

theorem Block.port_ctlWritten (b : Block) (p : Fin 4) (w : RegAcc) (q : Nat) : (b.ctlWritten p w).port q = b.port q := by
  obtain ⟨g, m, h⟩ := b.wrote_jl (0x080 + 0x20 * p) w
  rw [Block.ctlWritten, Block.port_setReg, h]
  rfl

/-- A write of JL_Pn_CTL that meets no obstacle: with EN = 0 the port goes down. -/
theorem Puts.of_jlPortCtl {s : State} {p : Fin 4} {w : RegAcc} (h : s.blk.writes pgJL (0x080 + 0x20 * p) w = true) :
    Puts s (.jlPortCtl p w) (if bit (s.blk.stval pgJL (0x080 + 0x20 * p) w) 0 then s.blk.ctlWritten p w
      else (s.blk.ctlWritten p w).goDown p) := by
  have happly : ∀ b : Block, b.applyReg w.rid pgJL .jl w.als (0x080 + 0x20 * p)
      ((s.blk.opened pgJL (0x080 + 0x20 * p)).subOf pgJL (0x080 + 0x20 * p))
      (storedVal .jl (0x080 + 0x20 * p) ((s.blk.opened pgJL (0x080 + 0x20 * p)).wval pgJL (0x080 + 0x20 * p) w)) false =
      b.portCtl p (s.blk.stval pgJL (0x080 + 0x20 * p) w) := fun b => by
    rw [Block.stval_opened_jl _ (by omega), ← Block.applyJl_ctl]
    rfl
  refine .of_writes pgClass_jl rfl rfl (by omega) (by omega) h (fun b => ?_) ?_
  · rw [happly, Block.portCtl_queue]
  · rw [happly, ← Block.portCtl_answer, ← Block.wrote_of_plain pgClass_jl rfl, Block.portCtl, Block.reg_wrote_jl]
    rfl

end Sys2Proof.Machine

namespace Sys2Proof.Machine

/-! ### What a port sends, and how it comes up and goes down -/

@[simp] theorem Block.engine_granted (b : Block) (r : Res) (i n : Nat) : (b.granted r i).engine n = b.engine n := rfl
@[simp] theorem Block.engine_setPort (b : Block) (p n : Nat) (j : JPort) : (b.setPort p j).engine n = b.engine n := rfl

@[simp] theorem Block.lane_withLanes (b : Block) (n p : Nat) (l : Lanes) : ((b.withLanes n p l).engine n).lane p = l := by
  simp [Block.withLanes, Engine.lane]

/-- The port that JUWA_TRANSMIT leaves, its lanes, and for a frame in transit the whole block. -/
theorem Gives.juwaTransmit {s : State} {p : Fin 4} {n : Fin 16} {i : LaneId} {x : LaneFrame} {vc : Bool}
    (ht : (s.blk.port p).time = false) (hc : (s.blk.port p).ctl = []) (hpick : s.blk.txPick p = some n.val)
    (hmcq : (s.blk.engine n).mcq = []) (hhead : oldestHead (s.blk.heads p n) = some (i, x, vc)) :
    let j : JPort := { (s.blk.port p).spent vc x.tag with txOut := eventBeats (s.blk.sentFrame x vc) }
    let l := ((s.blk.engine n).lane p).behead s.blk i
    Gives s (.juwaTransmit p n) fun b => b.port p = j ∧ (b.engine n).lane p = l ∧
      (x.local? = none → Block.Notes [pgJL, pgPMU, pgRM] (((s.blk.withLanes n p l).setPort p j).granted (.juwaTx p) n) b) := by
  refine .of_effect rfl (effJuwaTransmit_of_head ht hc hpick hmcq hhead) ⟨?_, ?_, fun hlocal => ?_⟩
  · rw [Block.port_granted, Block.port_countSent, Block.port_setPort]
  · rw [Block.engine_granted, Block.engine_countSent, Block.engine_setPort, Block.lane_withLanes]
  · have hnone : s.blk.placeOrigin x = s.blk := by simp only [Block.placeOrigin, hlocal]
    rw [hnone]
    exact (Block.countSent_notes _ p _).granted (.juwaTx p) n

/-- Settles O46: each command is its effect on the port, where the arbiter picks the frame and nothing else is presented. -/
theorem juwaPortsSend : Obligations.JuwaPortsSend := by
  unfold Obligations.JuwaPortsSend
  intro s p j quiet fresh
  refine ⟨fun hon hup => ⟨?_, ?_, ?_, ?_⟩, fun hon hup => ⟨?_, ?_, ?_⟩, fun hup => ?_, fun hup hmcq => ?_,
    fun w h => ⟨?_, ?_, ?_⟩⟩
  · rintro ⟨ht, hc⟩ n i x vc hpick hmcq hhead hlen g l l' fr j'
    have hfr : s.blk.sentFrame x vc = fr := by
      cases hlocal : x.local? with
      | none => exact (s.blk.sentFrame_of_transit hlocal vc).trans (by simp only [fr, hlocal])
      | some e =>
        have hplen : x.fr.plen = 0 := hlen.resolve_right (by simp [hlocal])
        exact (s.blk.sentFrame_of_origin hlocal hplen vc).trans (by simp only [fr, hlocal])
    have hl : l.behead s.blk i = l' := by cases i <;> rfl
    have hgives := Gives.juwaTransmit ht hc hpick hmcq hhead
    rw [hfr, hl] at hgives
    exact hgives
  · intro n x rest g l hl hesc hcred hdry
    exact .of_effect rfl (effEscape_of_dry hon hup hl hesc hcred hdry)
  · intro batch hquiet _ _ hpick
    exact .of_effect rfl (effCreditReturn_of_pick hquiet.1 hquiet.2 hpick)
  · exact fun hquiet hasleep hwait hlast hpick =>
      .of_effect rfl (effWakeSend_of_wait hon hup hquiet.1 hquiet.2 hasleep hwait hlast hpick)
  · exact fun hquiet hready hlast hpick => .of_effect rfl (effHelloSend_of_due hon hup hquiet.1 hquiet.2 hready hlast hpick)
  · exact fun hsent hgot => .of_effect rfl ((effPortUp_of_down hon hup).trans (if_pos ⟨hsent, hgot⟩))
  · refine fun hnot => .of_effect rfl ((effPortUp_of_down hon hup).trans (if_neg ?_))
    rintro ⟨hsent, hgot⟩
    rcases hnot with h | h
    · exact absurd (hsent.symm.trans h) (by decide)
    · exact absurd (hgot.symm.trans h) (by decide)
  · exact .of_effect rfl (effPortDown_of_down hup)
  · exact .of_effect rfl (effPortDown_of_up hup hmcq)
  · intro hen
    have hputs := Puts.of_jlPortCtl h
    rwa [if_pos hen] at hputs
  · intro hen hdown
    have hputs := Puts.of_jlPortCtl h
    have hport := s.blk.port_ctlWritten p w p
    rw [if_neg (Bool.eq_false_iff.mp hen), Block.goDown_of_down (by rw [hport, hdown]), hport] at hputs
    exact hputs
  · intro hen _
    have hputs := Puts.of_jlPortCtl h
    rwa [if_neg (Bool.eq_false_iff.mp hen)] at hputs

end Sys2Proof.Machine
